-- ==== Sys2Proof/Word.lean ====
section
/-!
DEFINITION. Word.lean: the word types of the X4 and their plainest arithmetic. A register is 32 bits (R39), a 64-bit
register is a pair (R45), a memory byte is 8 bits, and an X32 number is held in its 32-bit encoding (R123).
-/
namespace Sys2Proof

/-- A 32-bit register value or an X32 encoding. -/
abbrev W := BitVec 32

/-- A byte of memory or of a message. -/
abbrev Byte := BitVec 8

/-- A 64-bit register pair, a scalar register or a 64-bit CRC. -/
abbrev D := BitVec 64

/-- One of the four Nirtar dies of the package (R12). -/
abbrev DieId := Fin 4

/-- One of the sixteen package link ports LP0 to LP15 (R18). -/
abbrev PortId := Fin 16

/-- One of the two stairway sides of a die: 0 is SW-CW, 1 is SW-CCW (R13). -/
abbrev SideId := Fin 2

end Sys2Proof
end

