-- ==== Sys2Proof/Types.lean ====
section
/-!
DEFINITION. Types.lean: the operand types of the commands: requesters, ticks, reports, messages of the links, the
collective engine and the stairway, and the outcomes of the environment that a command carries. Multi-byte message fields
are held decoded, as natural numbers; WellFormed.lean gives their ranges.
-/
namespace Sys2Proof

/-- The codes of R51, OK apart; the X4 returns no other (R52). -/
def errCodes : List Nat :=
  [0x0101, 0x0102, 0x0103, 0x0104, 0x0105, 0x0106, 0x0107, 0x0108, 0x0109, 0x010A, 0x010B, 0x010C] ++
  [0x0201, 0x0202, 0x0203, 0x0204, 0x0205, 0x0206, 0x0207, 0x0208, 0x0209, 0x020A, 0x020B, 0x020C] ++
  [0x0301, 0x0302, 0x0303, 0x0304, 0x0305, 0x0401, 0x0402, 0x0403, 0x0404] ++
  [0x0501, 0x0502, 0x0503, 0x0504, 0x0505, 0x0506, 0x0601, 0x0602, 0x0603, 0x0604, 0x0605, 0x0606] ++
  [0x0701, 0x0702, 0x0703, 0x0704, 0x0705, 0x0706]

/-- A requester of a register access, as LAST_ERR.SRC numbers it (R37): the host, the steward, or the control core of a
die. An SMBus DATA access is a steward access (R510). -/
inductive Req where
  | host
  | steward
  | cc (d : DieId)
  deriving DecidableEq, Repr

/-- A position report on a hatch port (R14, R15): the three samples agreed on a value, or they did not. -/
inductive PosReport where
  | stable (pos : Fin 4)
  | unstable
  deriving DecidableEq, Repr

/-- A member's report of a frame to the master (R61). -/
structure Report where
  member : Nat
  frame : Nat
  openTick : Nat
  done : Bool
  contribSent : Bool
  failed : Bool
  planMismatch : Bool
  sentNf : Nat
  sentSpike : Nat
  failCode : Nat
  deriving DecidableEq, Repr

/-- A tick (R73). `members` is the member set that follows the flit, in ascending order, when EXCL or FAILED is set. -/
structure Tick where
  tick : Nat
  step : Nat
  frame : Nat
  type : Nat
  abandon : Bool
  failed : Bool
  excl : Bool
  commit : Bool
  hold : Bool
  pin : Bool
  laggard : Nat
  lagNone : Bool
  acc : Nat
  slice : Nat
  epoch : Nat
  pgen : Nat
  masterTs : Nat
  members : List Nat
  deriving DecidableEq, Repr

/-- A whole message of a link port: the trailer fields of its FIRST flit that R312 checks, and its payload bytes. -/
structure LinkMsg where
  cls : Nat
  kind : Nat
  hops : Nat
  slice : Nat
  dst : Nat
  src : Nat
  flow : Nat
  epoch : Nat
  pgen : Nat
  payload : List Byte
  deriving DecidableEq, Repr

/-- A message of the collective engine: the header of R341, with the source member and the epoch of its trailer, and the
data at byte 64. The command that carries it gives its OP. -/
structure CeMsg where
  srcMember : Nat
  epoch : Nat
  wire : Nat
  resend : Bool
  srcPos : Nat
  srcDie : Nat
  dstDie : Nat
  att : Nat
  frame : Nat
  bucket : Nat
  offset : Nat
  count : Nat
  version : Nat
  digest : Nat
  reason : Nat
  ansOp : Nat
  slen : Nat
  data : List Byte
  deriving DecidableEq, Repr

/-- A link hello (R302). -/
structure Hello where
  slice : Nat
  member : Nat
  port : Nat
  role : Nat
  pgen : Nat
  major : Nat
  minor : Nat
  deriving DecidableEq, Repr

/-- A stairway advert (R393): the peer's epoch and state, and its receive width word or its agreed width word. -/
structure Advert where
  ep : Nat
  state : Nat
  isAw : Bool
  width : W
  deriving DecidableEq, Repr

/-- A stairway unit on a flight (R390): the 256 bytes on the data wires and the track word. -/
structure SwUnit where
  data : List Byte
  track : W
  deriving DecidableEq, Repr

/-- What the environment of a power-on reset decides: whether the fuses read (R441), the levels of COOLANT_OK and of the
SMBus straps, and what the start-up tests of the dies find (R169, R381, R404): `checkerFail` as (die, unit, channel),
`wireFail` as (die, side, flight, wire), `hatchFail` as (die, module), `stackFail` as (die, stack controller), and
`rowFaults` as (die, array, row) in the order the self-test meets them. -/
structure BootEnv where
  fuseBad : Bool
  coolantOk : Bool
  smbStraps : Fin 4
  checkerFail : List (Nat × Nat × Nat)
  wireFail : List (Nat × Nat × Nat × Nat)
  hatchFail : List (Nat × Nat)
  stackFail : List (Nat × Nat)
  rowFaults : List (Nat × Nat × Nat)
  deriving DecidableEq, Repr

/-- What a latency probe command of R304 carries: a probe that arrived from the peer and is returned, or the three time
stamps of a returned probe; the port itself stamps the fourth. -/
inductive Probe where
  | request (t1 : Nat)
  | result (t1 t2 t3 : Nat)
  deriving DecidableEq, Repr

/-- What the FEC decoder says with a flit (R293, R305, R319): whether the flit overlaps an uncorrectable codeword, and, of the codewords
that end with the flit, how many were uncorrectable, how many were corrected, and how many symbols were. -/
structure Fec where
  bad : Bool
  lost : Nat
  fixed : Nat
  symbols : Nat
  deriving DecidableEq, Repr

/-- A flit with no FEC error. -/
def Fec.clean : Fec := ⟨false, 0, 0, 0⟩

/-- What a stairway line request asks for (R25, R226): a read carries the loft tag a fill takes, and whether it may fill. -/
inductive LineKind where
  | read (len : Nat) (stepStable uncached : Bool)
  | write (data : List Byte)
  deriving DecidableEq, Repr

/-- The state of a JTAG TAP instruction (R493). -/
inductive TapInstr where
  | idcode
  | bypass
  | samplePreload
  | extest
  | clamp
  | highz
  deriving DecidableEq, Repr

/-- The kind of a die reset (R400). -/
inductive ResetKind where
  | warm
  | cold
  deriving DecidableEq, Repr

/-- What a hatch reports of its die (R398). -/
inductive LossReport where
  | clock
  | rail
  deriving DecidableEq, Repr

end Sys2Proof
end

