-- ==== Sys2Proof/Syntax.lean ====
section
/-!
DEFINITION. Syntax.lean: the commands of the block, one constructor per row of the table of operations and events.
An operand that the X4 computes itself is not an operand; what the requester, the peer, the package environment or the
elapse of time decides is. Each constructor cites the rule its row names.
-/
namespace Sys2Proof

/-- A command of the X4: a register write with an action of its own, a message or signal that arrives, or an event of
the package. -/
inductive Instr where
  /-- POWER_ON_RESET (R440). -/
  | powerOnReset (env : BootEnv)
  /-- STRAP_SAMPLE (R14). -/
  | strapSample (d : DieId) (v : Fin 4)
  /-- POS_REPORT (R15). -/
  | posReport (h : DieId) (r : PosReport)
  /-- DIE_REPORT_TIMEOUT (R15). -/
  | dieReportTimeout (d : DieId)
  /-- VR_ANSWER_TIMEOUT (R500). -/
  | vrAnswerTimeout (d : DieId)
  /-- FILL_DONE (R380). -/
  | fillDone (d : DieId)
  /-- PWRGD_FALL (R501). -/
  | pwrgdFall
  /-- PERST (R416). -/
  | perst
  /-- THERM_TRIP (R476). -/
  | thermTrip (d : DieId) (sensor : Fin 16)
  /-- TRIP_LOG_WRITE (R503). -/
  | tripLogWrite
  /-- COOLANT_STOP (R473). -/
  | coolantStop
  /-- COOLANT_OK_STABLE (R475). -/
  | coolantOkStable
  /-- RESTART (R475). -/
  | restart (r : Req)
  /-- BRAKE (R472). -/
  | brake
  /-- BRAKE_RELEASE (R472). -/
  | brakeRelease
  /-- DROOP (R471). -/
  | droop (d : DieId) (det : Fin 8)
  /-- DROOP_HOLD_EXPIRY (R471). -/
  | droopHoldExpiry (d : DieId)
  /-- POWER_SAMPLE (R467). -/
  | powerSample (watts : Nat)
  /-- CAP_INTERVAL (R468). -/
  | capInterval
  /-- SENSOR_READ (R469). -/
  | sensorRead (d : DieId) (raws : List Int) (temps : List Nat)
  /-- VF_POINT_SELECT (R470). -/
  | vfPointSelect
  /-- IDLE_ENTRY (R463). -/
  | idleEntry
  /-- WAKE (R464). -/
  | wake
  /-- IDLE_EXIT_DONE (R465). -/
  | idleExitDone
  /-- EXTEST (R494). -/
  | extest (tap : Fin 5)
  /-- CLAMP (R494). -/
  | clamp (tap : Fin 5)
  /-- HIGHZ (R494). -/
  | highz (tap : Fin 5)
  /-- IDCODE (R493). -/
  | idcode (tap : Fin 5)
  /-- BYPASS (R493). -/
  | bypass (tap : Fin 5) (code : Nat)
  /-- SAMPLE_PRELOAD (R493). -/
  | samplePreload (tap : Fin 5) (data : List Bool)
  /-- TICK_EN (R78). -/
  | tickEn (r : Req) (d : DieId) (en : Bool)
  /-- RUN (R79). -/
  | run (r : Req) (d : DieId) (v : Bool)
  /-- RESUME (R79). -/
  | resume (r : Req) (d : DieId)
  /-- STOP (R90). -/
  | stop (r : Req) (d : DieId)
  /-- DONE_REPORT (R61). -/
  | doneReport (rep : Report)
  /-- DIE_DONE_STATE (R78). -/
  | dieDoneState (d : DieId)
  /-- MIN_PERIOD_EXPIRY (R60). -/
  | minPeriodExpiry
  /-- DEADLINE_EXPIRY (R63). -/
  | deadlineExpiry
  /-- WATCHDOG_EXPIRY (R65). -/
  | watchdogExpiry
  /-- TICK_LOST (R66). -/
  | tickLost (d : DieId)
  /-- TICK_RECEIVE (R74). -/
  | tickReceive (d : DieId) (port : PortId) (t : Tick)
  /-- TICK_IN_EDGE (R77). -/
  | tickInEdge (d : DieId)
  /-- TICK_EDGE (R75). -/
  | tickEdge (d : DieId)
  /-- ARRAY_START (R86). -/
  | arrayStart (d : DieId) (rank : Fin 6)
  /-- RAMP_STEP (R87). -/
  | rampStep (d : DieId) (mx : Fin 7)
  /-- DISP_LOAD (R105). -/
  | dispLoad (r : Req) (d : DieId) (slot : Fin 2)
  /-- VALIDATION_DONE (R102). -/
  | validationDone (d : DieId) (slot : Fin 2)
  /-- DISP_ARM (R106). -/
  | dispArm (r : Req) (d : DieId) (slot : Fin 2)
  /-- DISP_DISARM (R105). -/
  | dispDisarm (r : Req) (d : DieId) (slot : Fin 2)
  /-- DISP_UNLOAD (R105). -/
  | dispUnload (r : Req) (d : DieId) (slot : Fin 2)
  /-- TASK_COMPLETE (R109). -/
  | taskComplete (d : DieId) (task : Nat)
  /-- REMOTE_DECREMENT (R111). -/
  | remoteDecrement (d : DieId) (src : DieId) (srcTask : Nat) (task : Nat) (tag : Nat)
  /-- TASK_FAULT (R114). -/
  | taskFault (d : DieId) (task : Nat) (code : Nat)
  /-- FRAME_FAIL_NOTICE (R114). -/
  | frameFailNotice (d : DieId)
  /-- MM (R147). -/
  | mm (d : DieId) (task : Nat)
  /-- MM_XB (R158). -/
  | mmXb (d : DieId) (task : Nat)
  /-- SHADOW_SAMPLE_DONE (R162). -/
  | shadowSampleDone (d : DieId)
  /-- ARRAY_PARITY_FAULT (R165). -/
  | arrayParityFault (d : DieId) (mx : Fin 7)
  /-- RUN_TASK (R176). -/
  | runTask (d : DieId) (task : Nat)
  /-- NOP (R180). -/
  | vNop (d : DieId) (vx : Fin 2)
  /-- END (R178). -/
  | vEnd (d : DieId) (vx : Fin 2)
  /-- LOOP (R180). -/
  | vLoop (d : DieId) (vx : Fin 2)
  /-- ENDL (R180). -/
  | vEndl (d : DieId) (vx : Fin 2)
  /-- AMOVI (R180). -/
  | amovi (d : DieId) (vx : Fin 2)
  /-- AADDI (R180). -/
  | aaddi (d : DieId) (vx : Fin 2)
  /-- AADD (R180). -/
  | aadd (d : DieId) (vx : Fin 2)
  /-- AMOVS (R180). -/
  | amovs (d : DieId) (vx : Fin 2)
  /-- MPOP (R180). -/
  | mpop (d : DieId) (vx : Fin 2)
  /-- SOUT (R180). -/
  | sout (d : DieId) (vx : Fin 2)
  /-- VBCAST (R180). -/
  | vbcast (d : DieId) (vx : Fin 2)
  /-- VMOVI (R180). -/
  | vmovi (d : DieId) (vx : Fin 2)
  /-- VIOTA (R180). -/
  | viota (d : DieId) (vx : Fin 2)
  /-- VSEL (R180). -/
  | vsel (d : DieId) (vx : Fin 2)
  /-- VMOV (R180). -/
  | vmov (d : DieId) (vx : Fin 2)
  /-- VADD (R182). -/
  | vadd (d : DieId) (vx : Fin 2)
  /-- VSUB (R182). -/
  | vsub (d : DieId) (vx : Fin 2)
  /-- VMUL (R182). -/
  | vmul (d : DieId) (vx : Fin 2)
  /-- VFMA (R182). -/
  | vfma (d : DieId) (vx : Fin 2)
  /-- VFNMA (R182). -/
  | vfnma (d : DieId) (vx : Fin 2)
  /-- VMIN (R182). -/
  | vmin (d : DieId) (vx : Fin 2)
  /-- VMAX (R182). -/
  | vmax (d : DieId) (vx : Fin 2)
  /-- VABS (R182). -/
  | vabs (d : DieId) (vx : Fin 2)
  /-- VNEG (R182). -/
  | vneg (d : DieId) (vx : Fin 2)
  /-- VDIV (R182). -/
  | vdiv (d : DieId) (vx : Fin 2)
  /-- VSQRT (R182). -/
  | vsqrt (d : DieId) (vx : Fin 2)
  /-- VRSQRT (R182). -/
  | vrsqrt (d : DieId) (vx : Fin 2)
  /-- VRCP (R182). -/
  | vrcp (d : DieId) (vx : Fin 2)
  /-- VEXP (R182). -/
  | vexp (d : DieId) (vx : Fin 2)
  /-- VLOG (R182). -/
  | vlog (d : DieId) (vx : Fin 2)
  /-- VTANH (R182). -/
  | vtanh (d : DieId) (vx : Fin 2)
  /-- CVTFI (R182). -/
  | cvtfi (d : DieId) (vx : Fin 2)
  /-- CVTIF (R180). -/
  | cvtif (d : DieId) (vx : Fin 2)
  /-- IADD (R180). -/
  | iadd (d : DieId) (vx : Fin 2)
  /-- ISUB (R180). -/
  | isub (d : DieId) (vx : Fin 2)
  /-- IMUL (R180). -/
  | imul (d : DieId) (vx : Fin 2)
  /-- IAND (R180). -/
  | iand (d : DieId) (vx : Fin 2)
  /-- IOR (R180). -/
  | ior (d : DieId) (vx : Fin 2)
  /-- IXOR (R180). -/
  | ixor (d : DieId) (vx : Fin 2)
  /-- ISHL (R180). -/
  | ishl (d : DieId) (vx : Fin 2)
  /-- ISHR (R180). -/
  | ishr (d : DieId) (vx : Fin 2)
  /-- CMPEQ (R180). -/
  | cmpeq (d : DieId) (vx : Fin 2)
  /-- CMPNE (R180). -/
  | cmpne (d : DieId) (vx : Fin 2)
  /-- CMPLT (R180). -/
  | cmplt (d : DieId) (vx : Fin 2)
  /-- CMPLE (R180). -/
  | cmple (d : DieId) (vx : Fin 2)
  /-- MAND (R180). -/
  | mand (d : DieId) (vx : Fin 2)
  /-- MOR (R180). -/
  | mor (d : DieId) (vx : Fin 2)
  /-- MANDN (R180). -/
  | mandn (d : DieId) (vx : Fin 2)
  /-- MNOT (R180). -/
  | mnot (d : DieId) (vx : Fin 2)
  /-- MSET (R180). -/
  | mset (d : DieId) (vx : Fin 2)
  /-- VREDSUM (R183). -/
  | vredsum (d : DieId) (vx : Fin 2)
  /-- VREDMAX (R183). -/
  | vredmax (d : DieId) (vx : Fin 2)
  /-- COMPRESS (R188). -/
  | compress (d : DieId) (vx : Fin 2)
  /-- EXPAND (R188). -/
  | expand (d : DieId) (vx : Fin 2)
  /-- VLD (R185). -/
  | vld (d : DieId) (vx : Fin 2)
  /-- VST (R185). -/
  | vst (d : DieId) (vx : Fin 2)
  /-- VSTG (R190). -/
  | vstg (d : DieId) (vx : Fin 2)
  /-- VSTGX (R190). -/
  | vstgx (d : DieId) (vx : Fin 2)
  /-- VLDX (R180). -/
  | vldx (d : DieId) (vx : Fin 2)
  /-- VSTX (R180). -/
  | vstx (d : DieId) (vx : Fin 2)
  /-- VSTC (R188). -/
  | vstc (d : DieId) (vx : Fin 2)
  /-- VLDE (R188). -/
  | vlde (d : DieId) (vx : Fin 2)
  /-- VLDACC (R189). -/
  | vldacc (d : DieId) (vx : Fin 2)
  /-- MLD (R180). -/
  | mld (d : DieId) (vx : Fin 2)
  /-- MST (R230). -/
  | mst (d : DieId) (vx : Fin 2)
  /-- VRAND (R180). -/
  | vrand (d : DieId) (vx : Fin 2)
  /-- LN_FWD (R196). -/
  | lnFwd (d : DieId) (task : Nat)
  /-- LN_BWD (R196). -/
  | lnBwd (d : DieId) (task : Nat)
  /-- RMS_FWD (R197). -/
  | rmsFwd (d : DieId) (task : Nat)
  /-- RMS_BWD (R197). -/
  | rmsBwd (d : DieId) (task : Nat)
  /-- SMAX_FWD (R198). -/
  | smaxFwd (d : DieId) (task : Nat)
  /-- SMAX_BWD (R198). -/
  | smaxBwd (d : DieId) (task : Nat)
  /-- LOSS (R199). -/
  | loss (d : DieId) (task : Nat)
  /-- MV_COPY (R220). -/
  | mvCopy (d : DieId) (task : Nat)
  /-- MV_GATHER (R222). -/
  | mvGather (d : DieId) (task : Nat)
  /-- SCATTER (R222). -/
  | scatter (d : DieId) (task : Nat)
  /-- LINE_REQUEST (R25). -/
  | lineRequest (d : DieId) (src : DieId) (addr : Nat) (k : LineKind)
  /-- LINE_RESPONSE (R228). -/
  | lineResponse (d : DieId) (addr : Nat) (data : List Byte)
  /-- MOM (R276). -/
  | mom (d : DieId) (task : Nat)
  /-- ADAM (R276). -/
  | adam (d : DieId) (task : Nat)
  /-- FEED (R432). -/
  | feed (d : DieId) (task : Nat)
  /-- REDUCE (R326). -/
  | reduce (d : DieId) (task : Nat)
  /-- FOLD (R331). -/
  | fold (d : DieId) (task : Nat)
  /-- TREE (R332). -/
  | tree (d : DieId) (task : Nat)
  /-- CE_GATHER (R338). -/
  | ceGather (d : DieId) (task : Nat)
  /-- SIDE (R333). -/
  | side (d : DieId) (task : Nat)
  /-- SIDEWAIT (R334). -/
  | sidewait (d : DieId) (task : Nat)
  /-- RESHARD (R345). -/
  | reshard (d : DieId) (task : Nat)
  /-- CONTRIB (R327). -/
  | contrib (d : DieId) (msg : CeMsg)
  /-- CHECK (R335). -/
  | check (d : DieId) (msg : CeMsg)
  /-- ACK (R328). -/
  | ack (d : DieId) (msg : CeMsg)
  /-- TREE_UP (R332). -/
  | treeUp (d : DieId) (msg : CeMsg)
  /-- TREE_DOWN (R332). -/
  | treeDown (d : DieId) (msg : CeMsg)
  /-- SIDE_UP (R333). -/
  | sideUp (d : DieId) (msg : CeMsg)
  /-- SIDE_DOWN (R333). -/
  | sideDown (d : DieId) (msg : CeMsg)
  /-- SHARD (R339). -/
  | shard (d : DieId) (msg : CeMsg)
  /-- MOVE (R345). -/
  | move (d : DieId) (msg : CeMsg)
  /-- REFUSE (R327). -/
  | refuse (d : DieId) (msg : CeMsg)
  /-- CE_ACK_TIMEOUT (R337). -/
  | ceAckTimeout (d : DieId) (n : Nat)
  /-- RESHARD_ARM (R344). -/
  | reshardArm (r : Req) (d : DieId) (epoch : Nat)
  /-- RESHARD_DISARM (R346). -/
  | reshardDisarm (r : Req) (d : DieId)
  /-- FLIT_RECEIVE (R293). -/
  | flitReceive (p : PortId) (bytes : List Byte) (fec : Fec)
  /-- NAK (R299). -/
  | nak (p : PortId) (seq : Nat)
  /-- LINK_MESSAGE (R312). -/
  | linkMessage (p : PortId) (msg : LinkMsg)
  /-- LP_ENABLE (R301). -/
  | lpEnable (r : Req) (p : PortId) (en : Bool)
  /-- LP_RETRAIN (R301). -/
  | lpRetrain (r : Req) (p : PortId)
  /-- PMD_TRAINED (R301). -/
  | pmdTrained (p : PortId)
  /-- AM_LOCK (R301). -/
  | amLock (p : PortId)
  /-- TRAIN_TIMEOUT (R301). -/
  | trainTimeout (p : PortId)
  /-- HELLO_SEND (R302). -/
  | helloSend (p : PortId)
  /-- HELLO (R302). -/
  | hello (p : PortId) (h : Hello)
  /-- PROBE (R304). -/
  | probe (p : PortId) (pr : Probe)
  /-- LOSS_OF_LOCK (R305). -/
  | lossOfLock (p : PortId)
  /-- DEAD (R305). -/
  | dead (p : PortId)
  /-- AUTO_RETRAIN (R301). -/
  | autoRetrain (p : PortId)
  /-- RT_SWAP (R313). -/
  | rtSwap (r : Req) (d : DieId)
  /-- RT_COPY (R313). -/
  | rtCopy (r : Req) (d : DieId)
  /-- SW_RETRAIN (R394). -/
  | swRetrain (r : Req) (d : DieId) (e : SideId)
  /-- ADVERT (R394). -/
  | advert (d : DieId) (e : SideId) (adv : Advert)
  /-- ADVERT_SEND (R393). -/
  | advertSend (d : DieId) (e : SideId)
  /-- CAL_DONE (R394). -/
  | calDone (d : DieId) (e : SideId) (fails : List (List Nat))
  /-- SW_MEASURE_DONE (R394). -/
  | swMeasureDone (d : DieId) (e : SideId) (lats : List Nat)
  /-- SW_TRAIN_TIMEOUT (R394). -/
  | swTrainTimeout (d : DieId) (e : SideId)
  /-- ERROR_LIMIT (R395). -/
  | errorLimit (d : DieId) (e : SideId)
  /-- HOLD_EXPIRY (R397). -/
  | holdExpiry (d : DieId) (e : SideId)
  /-- RESET_NOTICE (R394). -/
  | resetNotice (d : DieId) (e : SideId)
  /-- CLOCK_ABSENT (R398). -/
  | clockAbsent (d : DieId) (e : SideId)
  /-- PEER_DROP (R398). -/
  | peerDrop (reporter : DieId) (p : DieId)
  /-- HATCH_SILENT (R398). -/
  | hatchSilent (p : DieId)
  /-- HATCH_LOSS_REPORT (R398). -/
  | hatchLossReport (p : DieId) (k : LossReport)
  /-- HATCH_MODULE_FAIL (R403). -/
  | hatchModuleFail (h : DieId) (m : Fin 2)
  /-- DIE_RESET (R400). -/
  | dieReset (r : Req) (h : DieId) (kind : ResetKind)
  /-- REJOIN_READY (R401). -/
  | rejoinReady (h : DieId) (ok : Bool)
  /-- REJOIN (R401). -/
  | rejoin (r : Req) (h : DieId)
  /-- SCRUB_READ (R382). -/
  | scrubRead (d : DieId) (word : Nat)
  /-- SCRUB_SLOW (R383). -/
  | scrubSlow (d : DieId)
  /-- INJ_ARM (R385). -/
  | injArm (r : Req) (d : DieId) (syms : Fin 4)
  /-- LOFT_FLUSH (R228). -/
  | loftFlush (r : Req) (d : DieId)
  /-- UPD_VALID (R272). -/
  | updValid (r : Req) (d : DieId)
  /-- UPD_INIT (R287). -/
  | updInit (r : Req) (d : DieId)
  /-- UPD_FORGET (R272). -/
  | updForget (r : Req) (d : DieId)
  /-- LADDER_VALID (R259). -/
  | ladderValid (r : Req) (d : DieId)
  /-- LADDER_FORGET (R259). -/
  | ladderForget (r : Req) (d : DieId)
  /-- EXPORT_COPY_DONE (R364). -/
  | exportCopyDone (d : DieId)
  /-- EXPORT_STREAM_RECEIVE (R366). -/
  | exportStreamReceive (d : DieId) (off : Nat) (bytes : List Byte)
  /-- EXPORT_TABLE_CHECK (R363). -/
  | exportTableCheck (r : Req) (d : DieId) (v : W)
  /-- TWIN_DIGEST (R368). -/
  | twinDigest (msg : LinkMsg)
  /-- TWIN_TIMEOUT (R369). -/
  | twinTimeout
  /-- REPLAY_MODE (R359). -/
  | replayMode (r : Req) (d : DieId) (mode : Bool)
  /-- JRNL_REL_WRITE (R372). -/
  | jrnlRelWrite (r : Req) (d : DieId) (v : D)
  /-- BAR0_READ (R415). -/
  | bar0Read (off : Nat) (width : Nat)
  /-- BAR2_READ (R414). -/
  | bar2Read (off : Nat) (len : Nat)
  /-- BAR2_WRITE (R414). -/
  | bar2Write (off : Nat) (data : List Byte)
  /-- HOST_NEG (R417). -/
  | hostNeg (r : Req) (v : W)
  /-- CMD_NOP (R426). -/
  | cmdNop
  /-- REG_WRITE (R426). -/
  | regWrite
  /-- COPY_IN (R426). -/
  | copyIn
  /-- COPY_OUT (R426). -/
  | copyOut
  /-- FEED_PUSH (R431). -/
  | feedPush
  /-- Q_EN (R419). -/
  | qEn (r : Req) (q : Fin 32) (en : Bool)
  /-- Q_MARK (R422). -/
  | qMark (r : Req) (q : Fin 32)
  /-- Q_REWIND (R422). -/
  | qRewind (r : Req) (q : Fin 32)
  /-- Q_TRUNCATE (R433). -/
  | qTruncate (r : Req) (q : Fin 32)
  /-- Q_POP (R421). -/
  | qPop (r : Req) (q : Fin 32)
  /-- Q_RD_WRITE (R422). -/
  | qRdWrite (r : Req) (q : Fin 32) (v : D)
  /-- Q_REL_WRITE (R422). -/
  | qRelWrite (r : Req) (q : Fin 32) (v : D)
  /-- Q_DOORBELL (R422). -/
  | qDoorbell (r : Req) (q : Fin 32) (n : BitVec 16)
  /-- SUBMISSION_FETCH (R425). -/
  | submissionFetch
  /-- QUEUE_IRQ_DELAY (R424). -/
  | queueIrqDelay (q : Fin 32)
  /-- CFG_WRITE (R452). -/
  | cfgWrite (r : Req) (slot : Fin 2)
  /-- CFG_VERIFY (R452). -/
  | cfgVerify (r : Req) (slot : Fin 2)
  /-- CFG_ERASE (R452). -/
  | cfgErase (r : Req) (slot : Fin 2)
  /-- CFG_DONE (R452). -/
  | cfgDone
  /-- ATT_GO (R454). -/
  | attGo (r : Req)
  /-- ATT_DONE (R454). -/
  | attDone
  /-- FLOOR_REQ (R451). -/
  | floorReq (r : Req) (v : Fin 64)
  /-- SEAL (R457). -/
  | seal (r : Req)
  /-- REBOOT (R458). -/
  | reboot (r : Req)
  /-- FENCE_REQ (R483). -/
  | fenceReq (r : Req) (page : Nat) (req : Bool)
  /-- SELFTEST (R486). -/
  | selftest (r : Req) (d : DieId) (pageNum : Nat)
  /-- CALIBRATE (R486). -/
  | calibrate (r : Req) (d : DieId) (pageNum : Nat)
  /-- SVC_DONE (R488). `rows` lists what the work found: failing cell rows of an array, or failing wires of a stairway side as
  128 × flight + wire. -/
  | svcDone (d : DieId) (res : Nat) (detail : Nat) (rows : List Nat)
  /-- CS_LOAD (R490). -/
  | csLoad (r : Req) (d : DieId) (slot : Fin 2)
  /-- RMA_PREP (R495). -/
  | rmaPrep (r : Req)
  /-- RMA_DONE (R495). -/
  | rmaDone
  /-- SMB_ADDR (R510). -/
  | smbAddr (addr : W) (pecOk : Bool)
  /-- SMB_DATA_READ (R510). -/
  | smbDataRead (pecOk : Bool)
  /-- SMB_DATA_WRITE (R510). -/
  | smbDataWrite (v : W) (pecOk : Bool)
  /-- SMB_STATUS (R510). -/
  | smbStatus (pecOk : Bool)
  /-- IDENT (R510). -/
  | ident (pecOk : Bool)
  /-- ALERT_RESPONSE (R512). -/
  | alertResponse
  /-- VR_ALERT (R516). -/
  | vrAlert (mask : Fin 16)
  /-- EVT_FORCE (R47). -/
  | evtForce (r : Req) (page : Nat) (v : W)
  /-- TALLY_CLR (R54). -/
  | tallyClr (r : Req) (page : Nat)
  /-- TALLY_CLR_ALL (R54). -/
  | tallyClrAll (r : Req) (page : Nat)
  /-- LAST_ERR_CLEAR (R44). -/
  | lastErrClear (r : Req) (page : Nat)
  /-- READ_LO_LATCH (R45). -/
  | readLoLatch (r : Req) (addr : Nat)
  /-- WRITE_LO_SHADOW (R46). -/
  | writeLoShadow (r : Req) (addr : Nat) (v : W)
  /-- WRITE_HI_COMMIT (R46). -/
  | writeHiCommit (r : Req) (addr : Nat) (v : W)
  /-- REGISTER_WRITE (R41). -/
  | registerWrite (r : Req) (addr : Nat) (width : Nat) (v : W)
  /-- STAIRWAY_UNIT_RECEIVE (R395). -/
  | stairwayUnitReceive (d : DieId) (e : SideId) (flight : Fin 16) (u : SwUnit)
  /-- COOLANT_OK_PULSE (R473). -/
  | coolantOkPulse
  deriving DecidableEq, Repr

end Sys2Proof
end

