-- ==== Sys2Proof/Config.lean ====
section
/-!
DEFINITION. Config.lean: what one implementation fixes and the spec leaves open, as constants without a body: the factory
calibration, the cryptographic functions the spec takes from standards, and free values. No proof can see what they are.
-/
namespace Sys2Proof.Config

/-- SHA-384 of bytes, an uninterpreted function (R444). -/
opaque sha384 : List Byte → List Byte

/-- Whether an ECDSA P-384 signature over bytes verifies under Yelhorn's key (R444, R445). -/
opaque ecdsaOk : (sig data : List Byte) → Bool

/-- Whether an HSS signature over bytes verifies under Yelhorn's key (R444, R445). -/
opaque hssOk : (sig data : List Byte) → Bool

/-- The device's P-384 signature over a report body, as a number of 96 bytes; ECDSA draws a nonce, so it depends on a fresh index
(R454). -/
opaque ecdsaSig : (fresh : Nat) → List Byte → Nat

/-- The device's HSS signature over a report body with index `q`, as a number of 5,076 bytes (R454). -/
opaque hssSig : (q : Nat) → List Byte → Nat

/-- SHA-384 of the factory fuse pages, as a number of 48 bytes (R454). -/
opaque fuseHash : Nat

/-- Interface major version of the die section and of the steward firmware in a slot image with the given firmware hash
(R490). -/
opaque dieIface : List Byte → Nat
/-- R490. -/ opaque stewardIface : List Byte → Nat

/-- Factory value and bounds that the fuse pages hold for element INDEX of item ID (R449). -/
opaque calFactory : (id index : Nat) → Int
/-- R449. -/ opaque calMin : (id index : Nat) → Int
/-- R449. -/ opaque calMax : (id index : Nat) → Int

/-- Range of the PMD's equaliser taps and receive gains (R449). -/
opaque pmdLeast : (id : Nat) → Int
/-- R449. -/ opaque pmdMost : (id : Nat) → Int

/-- The core rail voltage that the sense of a die measures, in mV (R478). -/
opaque vcoreSense : (fresh die : Nat) → Nat

/-- Version and manufacturer identity of IDCODE (R493). -/
opaque idVersion : Nat
/-- R493. -/ opaque idMaker : Nat

/-- Levels that SAMPLE captures in the boundary register of a TAP (R493). -/
opaque boundary : (fresh tap : Nat) → List Bool

/-- The pair, and the channel of a stack's pair, that fail the test of a die reset (R381, R387), which the hatch's message does not name. -/
opaque checkerUnit : (fresh : Nat) → Fin 51
/-- R387. -/ opaque checkerChan : (fresh : Nat) → Fin 32

/-- Which code of R51 ends an array's self-test that finds more failing rows than it has spare rows (R169, R488). -/
opaque testCode : (fresh : Nat) → Fin 51

/-- The 16-byte header of a stairway message, whose contents R390 names and whose layout it leaves open. -/
opaque swHeader : (kind src dst addr count : Nat) → Nat

/-- The destination die that the header in the first bytes of a FIRST unit names (R390). -/
opaque swDest : List Byte → Fin 4

/-- What fills the last unit of a stairway message after its data (R390). -/
opaque swPad : BitVec 8

end Sys2Proof.Config
end

