-- ==== Sys2Proof/Machine/RegMap.lean ====
section
/-!
DEFINITION. RegMap.lean: the register pages (R35 to R50), the registers of every page as its owning chapter maps them, and
a name for every register field. A register's key is its BAR0 offset (R412): home × 0x100_0000 plus the offset in the
register space of that home, home 0 to 3 being the dies and home 4 the steward.
-/
namespace Sys2Proof.Machine

/-- The kinds of register page (R48, R49). -/
inductive PageKind where
  | topo | pkg | dir | time | tick | disp | cc | watch | upd | ce | jrnl | integ | pwr | svc | mx | vx | re | shelf | sr | loft | trunk | sc | mv | lp | sw | ht | hts | host | sec | cfg | boot | mgmt | tray | pcap | ssvc | queue
  deriving DecidableEq, Repr

/-- The range of legal values of an RW field: first bit, width, lowest and highest value. -/
structure FieldRange where
  lo : Nat
  width : Nat
  least : Nat
  most : Nat
  deriving DecidableEq, Repr

/-- A register, or an array of `count` registers `stride` bytes apart: its offset in the page, its reset value, and the
bits of each access type of R38 (`rwl` is the part of `rw` that the seal locks). -/
structure RegSpec where
  off : Nat
  stride : Nat
  count : Nat
  reset : Nat
  rw : Nat
  w1c : Nat
  w1s : Nat
  wo : Nat
  rsv : Nat
  rwl : Nat
  ranges : List FieldRange
  deriving DecidableEq, Repr

/-- A field of a register: the register's offset in its page, the field's first bit and its width. -/
structure Fld where
  off : Nat
  lo : Nat
  width : Nat
  deriving DecidableEq, Repr

/-- PAGE_ID.TYPE of a page kind (R48, R49). -/
def PageKind.type : PageKind → Nat
  | .topo => 0x002
  | .pkg => 0x040
  | .dir => 0x001
  | .time => 0x003
  | .tick => 0x004
  | .disp => 0x005
  | .cc => 0x006
  | .watch => 0x007
  | .upd => 0x008
  | .ce => 0x009
  | .jrnl => 0x00A
  | .integ => 0x00B
  | .pwr => 0x00C
  | .svc => 0x00D
  | .mx => 0x010
  | .vx => 0x011
  | .re => 0x012
  | .shelf => 0x013
  | .sr => 0x018
  | .loft => 0x019
  | .trunk => 0x01A
  | .sc => 0x01B
  | .mv => 0x01C
  | .lp => 0x020
  | .sw => 0x021
  | .ht => 0x022
  | .hts => 0x049
  | .host => 0x041
  | .sec => 0x043
  | .cfg => 0x044
  | .boot => 0x048
  | .mgmt => 0x045
  | .tray => 0x046
  | .pcap => 0x047
  | .ssvc => 0x00D
  | .queue => 0x042

/-- CAPS: the number of tallies, the number of block events, and whether the unit can be fenced. -/
def PageKind.caps : PageKind → Nat × Nat × Bool
  | .topo => (0, 0, false)
  | .pkg => (0, 0, false)
  | .dir => (0, 0, false)
  | .time => (0, 0, false)
  | .tick => (8, 9, false)
  | .disp => (12, 6, false)
  | .cc => (2, 0, false)
  | .watch => (10, 9, false)
  | .upd => (8, 2, false)
  | .ce => (17, 6, true)
  | .jrnl => (13, 8, false)
  | .integ => (11, 6, false)
  | .pwr => (4, 2, false)
  | .svc => (5, 2, false)
  | .mx => (12, 4, true)
  | .vx => (11, 2, true)
  | .re => (10, 1, true)
  | .shelf => (6, 2, false)
  | .sr => (5, 0, false)
  | .loft => (9, 0, false)
  | .trunk => (4, 0, false)
  | .sc => (6, 1, false)
  | .mv => (9, 2, true)
  | .lp => (17, 6, true)
  | .sw => (9, 5, true)
  | .ht => (6, 2, false)
  | .hts => (6, 4, false)
  | .host => (7, 3, false)
  | .sec => (3, 2, false)
  | .cfg => (2, 1, false)
  | .boot => (0, 2, false)
  | .mgmt => (4, 2, false)
  | .tray => (4, 3, false)
  | .pcap => (8, 2, false)
  | .ssvc => (3, 3, false)
  | .queue => (6, 2, false)

/-- Registers of the TOPO page from 0x100 upwards, as the owning chapter maps them (R29). -/
def regsTopo : List RegSpec :=
  [ ⟨0x100, 0, 1, 0x0, 0x0, 0x0, 0x0, 0x0, 0xFFFC0000, 0x0, []⟩ /- TOPO_ID -/
  , ⟨0x104, 0, 1, 0x0, 0x0, 0x0, 0x0, 0x0, 0xFFFFFF80, 0x0, []⟩ /- TOPO_STRAP -/
  , ⟨0x108, 0, 1, 0x2, 0x3, 0x0, 0x0, 0x0, 0xFFFFFFF8, 0x0, []⟩ /- TOPO_ROUTE -/
  , ⟨0x10C, 0, 1, 0xF, 0x0, 0x0, 0x0, 0x0, 0xFFFFFF00, 0x0, []⟩ /- TOPO_DIES -/ ]

/-- Registers of the PKG page from 0x100 upwards, as the owning chapter maps them (R34). -/
def regsPkg : List RegSpec :=
  [ ⟨0x100, 0, 1, 0x0, 0x0, 0x0, 0x0, 0x0, 0xFFFFE000, 0x0, []⟩ /- PKG_STRAPS -/
  , ⟨0x104, 0, 1, 0x0, 0x0, 0x0, 0x0, 0x0, 0xFFFFFF00, 0x0, []⟩ /- PKG_RELEASE -/ ]

/-- Registers of the DIR page from 0x100 upwards, as the owning chapter maps them (R50). -/
def regsDir : List RegSpec :=
  [ ⟨0x100, 0, 1, 0x35, 0x0, 0x0, 0x0, 0x0, 0x0, 0x0, []⟩ /- DIR_COUNT -/
  , ⟨0x200, 4, 53, 0x0, 0x0, 0x0, 0x0, 0x0, 0xC0000000, 0x0, []⟩ /- DIR_ENTRY -/ ]

/-- Registers of the TIME page from 0x100 upwards, as the owning chapter maps them (R57). -/
def regsTime : List RegSpec :=
  [ ⟨0x100, 0, 1, 0x0, 0x0, 0x0, 0x0, 0x0, 0x0, 0x0, []⟩ /- TS_LO -/
  , ⟨0x104, 0, 1, 0x0, 0x0, 0x0, 0x0, 0x0, 0x0, 0x0, []⟩ /- TS_HI -/
  , ⟨0x108, 0, 1, 0x0, 0x0, 0x0, 0x0, 0x0, 0xFFFFFFFE, 0x0, []⟩ /- TS_STAT -/ ]

/-- Registers of the TICK page from 0x100 upwards, as the owning chapter maps them (R89). -/
def regsTick : List RegSpec :=
  [ ⟨0x100, 0, 1, 0x0, 0x3, 0x0, 0x0, 0xC, 0xFFFFFFE0, 0x0, []⟩ /- TICK_CTRL -/
  , ⟨0x104, 0, 1, 0xC0A00, 0x3FFF1F, 0x0, 0x0, 0x0, 0xFFC000E0, 0x0, [⟨8, 10, 2, 1000⟩]⟩ /- TICK_CFG -/
  , ⟨0x108, 0, 1, 0x0, 0xF0FFF, 0x0, 0x0, 0x0, 0xFFF0F000, 0x0, []⟩ /- TICK_PARENT -/
  , ⟨0x10C, 0, 1, 0x0, 0xFFFF, 0x0, 0x0, 0x0, 0xFFFF0000, 0x0, []⟩ /- TICK_CHILDREN -/
  , ⟨0x110, 0, 1, 0xF4240, 0xFFFFFFFF, 0x0, 0x0, 0x0, 0x0, 0x0, [⟨0, 32, 10000, 1000000000⟩]⟩ /- TICK_MIN_PERIOD -/
  , ⟨0x114, 0, 1, 0xF4240, 0xFFFFFFFF, 0x0, 0x0, 0x0, 0x0, 0x0, [⟨0, 32, 1000, 1000000000⟩]⟩ /- TICK_DEADLINE -/
  , ⟨0x118, 0, 1, 0x7D0, 0xFFFF, 0x0, 0x0, 0x0, 0xFFFF0000, 0x0, []⟩ /- TICK_LEAD -/
  , ⟨0x11C, 0, 1, 0x7D0, 0xFFFF, 0x0, 0x0, 0x0, 0xFFFF0000, 0x0, [⟨0, 16, 500, 20000⟩]⟩ /- TICK_RAMP -/
  , ⟨0x120, 0, 1, 0x40, 0xFFFF, 0x0, 0x0, 0x0, 0xFFFF0000, 0x0, [⟨0, 16, 1, 65535⟩]⟩ /- TICK_LAG_THRESH -/
  , ⟨0x128, 0, 1, 0x0, 0xFFFFFFFF, 0x0, 0x0, 0x0, 0x0, 0x0, []⟩ /- TICK_NUM_LO -/
  , ⟨0x12C, 0, 1, 0x0, 0xFFFFFFFF, 0x0, 0x0, 0x0, 0x0, 0x0, []⟩ /- TICK_NUM_HI -/
  , ⟨0x130, 0, 1, 0x0, 0xFFFFFFFF, 0x0, 0x0, 0x0, 0x0, 0x0, []⟩ /- TICK_STEP_LO -/
  , ⟨0x134, 0, 1, 0x0, 0xFFFFFFFF, 0x0, 0x0, 0x0, 0x0, 0x0, []⟩ /- TICK_STEP_HI -/
  , ⟨0x138, 0, 1, 0x0, 0x0, 0x0, 0x0, 0x0, 0xFFE00000, 0x0, []⟩ /- TICK_LAST -/
  , ⟨0x13C, 0, 1, 0x0, 0x0, 0x0, 0x0, 0x0, 0xC000, 0x0, []⟩ /- TICK_LAGGARD -/
  , ⟨0x140, 0, 1, 0x0, 0x0, 0x0, 0x0, 0x0, 0xFFFFF800, 0x0, []⟩ /- TICK_STATE -/
  , ⟨0x144, 0, 1, 0x0, 0x0, 0x0, 0x0, 0x0, 0x0, 0x0, []⟩ /- TICK_SLACK -/
  , ⟨0x148, 0, 1, 0x0, 0x0, 0x0, 0x0, 0x0, 0xFFFE0000, 0x0, []⟩ /- TICK_ACC -/
  , ⟨0x14C, 0, 1, 0x0, 0x0, 0x0, 0x0, 0x0, 0xFFFFE000, 0x0, []⟩ /- TICK_SET_COUNT -/
  , ⟨0x150, 0, 1, 0x0, 0x10F, 0x0, 0x0, 0x0, 0xFFFFFEF0, 0x0, []⟩ /- PH_SEL -/ ] ++
  [ ⟨0x154, 0, 1, 0x0, 0x0, 0x0, 0x0, 0x0, 0x0, 0x0, []⟩ /- PH_LO -/
  , ⟨0x158, 0, 1, 0x0, 0x0, 0x0, 0x0, 0x0, 0x0, 0x0, []⟩ /- PH_HI -/
  , ⟨0x200, 4, 128, 0x0, 0x0, 0x0, 0x0, 0x0, 0x0, 0x0, []⟩ /- TICK_SET -/ ]

/-- Registers of the DISP page from 0x100 upwards, as the owning chapter maps them (R119). -/
def regsDisp : List RegSpec :=
  [ ⟨0x100, 0, 1, 0x102, 0x0, 0x0, 0x0, 0x0, 0xFFFF0000, 0x0, []⟩ /- DISP_VER -/
  , ⟨0x104, 0, 1, 0x0, 0x0, 0x0, 0x0, 0x17, 0xFFFFFFE8, 0x0, []⟩ /- DISP_CMD -/
  , ⟨0x108, 0, 1, 0x0, 0xFFFFFFFF, 0x0, 0x0, 0x0, 0x0, 0x0, []⟩ /- DISP_IMG_LO -/
  , ⟨0x10C, 0, 1, 0x0, 0xFFFFF, 0x0, 0x0, 0x0, 0xFFF00000, 0x0, []⟩ /- DISP_IMG_HI -/
  , ⟨0x110, 0, 1, 0x0, 0x7FFF, 0x0, 0x0, 0x0, 0xFFFF8000, 0x0, [⟨0, 15, 0, 16384⟩]⟩ /- DISP_IMG_LEN -/
  , ⟨0x118, 0, 1, 0x0, 0xFFFFFFFF, 0x0, 0x0, 0x0, 0x0, 0x0, []⟩ /- DISP_ACT_STEP_LO -/
  , ⟨0x11C, 0, 1, 0x0, 0xFFFFFFFF, 0x0, 0x0, 0x0, 0x0, 0x0, []⟩ /- DISP_ACT_STEP_HI -/
  , ⟨0x120, 0, 1, 0x0, 0x0, 0x0, 0x0, 0x0, 0xFF0000F8, 0x0, []⟩ /- DISP_SLOT_A -/
  , ⟨0x124, 0, 1, 0x0, 0x0, 0x0, 0x0, 0x0, 0xFF0000F8, 0x0, []⟩ /- DISP_SLOT_B -/
  , ⟨0x128, 0, 1, 0x0, 0x0, 0x0, 0x0, 0x0, 0x0, 0x0, []⟩ /- DISP_SEQ_A -/
  , ⟨0x12C, 0, 1, 0x0, 0x0, 0x0, 0x0, 0x0, 0x0, 0x0, []⟩ /- DISP_SEQ_B -/
  , ⟨0x130, 0, 1, 0x0, 0x0, 0x0, 0x0, 0x0, 0xFFF00000, 0x0, []⟩ /- DISP_VAL_ERR -/
  , ⟨0x134, 0, 1, 0x0, 0x0, 0x0, 0x0, 0x0, 0xFF800000, 0x0, []⟩ /- DISP_VAL_IDX -/
  , ⟨0x138, 0, 1, 0x0, 0x0, 0x0, 0x0, 0x0, 0xFFFFFFF8, 0x0, []⟩ /- DISP_ACTIVE -/
  , ⟨0x140, 0, 1, 0x0, 0x0, 0x0, 0x0, 0x0, 0x0, 0x0, []⟩ /- DISP_ACT_AT_LO -/
  , ⟨0x144, 0, 1, 0x0, 0x0, 0x0, 0x0, 0x0, 0x0, 0x0, []⟩ /- DISP_ACT_AT_HI -/
  , ⟨0x148, 0, 1, 0x0, 0x0, 0x0, 0x0, 0x0, 0xFFFFC000, 0x0, []⟩ /- DISP_FRAME -/
  , ⟨0x14C, 0, 1, 0x0, 0x0, 0x0, 0x0, 0x0, 0xFFF80000, 0x0, []⟩ /- DISP_PENDING -/
  , ⟨0x150, 0, 1, 0x0, 0x1F, 0x0, 0x0, 0x0, 0xFFFFFFE0, 0x0, []⟩ /- DISP_HEAD_SEL -/
  , ⟨0x154, 0, 1, 0x0, 0x0, 0x0, 0x0, 0x0, 0xFFF00000, 0x0, []⟩ /- DISP_HEAD -/ ] ++
  [ ⟨0x158, 0, 1, 0x0, 0x0, 0x0, 0x0, 0x0, 0xFF000000, 0x0, []⟩ /- DISP_FAULT -/
  , ⟨0x15C, 0, 1, 0x0, 0x0, 0x0, 0x0, 0x0, 0xFFFF0000, 0x0, []⟩ /- DISP_FAULT_CODE -/
  , ⟨0x160, 4, 4, 0x0, 0x0, 0x0, 0x0, 0x0, 0x0, 0x0, []⟩ /- DISP_DIGEST -/ ]

/-- Registers of the CC page from 0x100 upwards, as the owning chapter maps them (R122). -/
def regsCc : List RegSpec :=
  [ ⟨0x200, 8, 64, 0x0, 0xFFFFFFFF, 0x0, 0x0, 0x0, 0x0, 0x0, []⟩ /- SCAL_LO -/
  , ⟨0x204, 8, 64, 0x0, 0xFFFFFFFF, 0x0, 0x0, 0x0, 0x0, 0x0, []⟩ /- SCAL_HI -/
  , ⟨0x400, 8, 64, 0x0, 0x0, 0x0, 0x0, 0x0, 0x0, 0x0, []⟩ /- SBANK_LO -/
  , ⟨0x404, 8, 64, 0x0, 0x0, 0x0, 0x0, 0x0, 0x0, 0x0, []⟩ /- SBANK_HI -/ ]

/-- Registers of the WATCH page from 0x100 upwards, as the owning chapter maps them (R262). -/
def regsWatch : List RegSpec :=
  [ ⟨0x100, 0, 1, 0x1A0000, 0x1F1FFF, 0x0, 0x0, 0x0, 0xFFE0E000, 0x0, [⟨0, 13, 0, 4096⟩, ⟨16, 4, 6, 16⟩]⟩ /- WATCH_CFG -/
  , ⟨0x104, 0, 1, 0x400, 0xFFFF, 0x0, 0x0, 0x0, 0xFFFF0000, 0x0, [⟨0, 16, 1, 65535⟩]⟩ /- WATCH_DORM -/
  , ⟨0x108, 0, 1, 0x0, 0xBF, 0x0, 0x0, 0x0, 0xFFFFFF40, 0x0, []⟩ /- WATCH_TOKENS -/
  , ⟨0x10C, 0, 1, 0x0, 0x0, 0x0, 0x1, 0x2, 0xFFFFFFF0, 0x0, []⟩ /- WATCH_LADDER -/
  , ⟨0x110, 0, 1, 0x0, 0x0, 0x0, 0x0, 0x0, 0x0, 0x0, []⟩ /- WATCH_DIGEST_LO -/
  , ⟨0x114, 0, 1, 0x0, 0x0, 0x0, 0x0, 0x0, 0x0, 0x0, []⟩ /- WATCH_DIGEST_HI -/
  , ⟨0x118, 0, 1, 0x0, 0x0, 0x0, 0x0, 0x0, 0x0, 0x0, []⟩ /- WATCH_SDIGEST_LO -/
  , ⟨0x11C, 0, 1, 0x0, 0x0, 0x0, 0x0, 0x0, 0x0, 0x0, []⟩ /- WATCH_SDIGEST_HI -/
  , ⟨0x120, 0, 1, 0x0, 0x1FFF, 0x0, 0x0, 0x0, 0xFFFFE000, 0x0, []⟩ /- WATCH_SEL -/
  , ⟨0x124, 0, 1, 0x13000, 0xFFFFFFFF, 0x0, 0x0, 0x0, 0x0, 0x0, [⟨11, 5, 1, 24⟩, ⟨16, 16, 1, 65535⟩]⟩ /- WATCH_DECL0 -/
  , ⟨0x128, 0, 1, 0x1, 0xFFFF, 0x0, 0x0, 0x0, 0xFFFF0000, 0x0, [⟨0, 16, 1, 65535⟩]⟩ /- WATCH_DECL1 -/
  , ⟨0x12C, 0, 1, 0xFFFFFFFF, 0xFFFFFFFF, 0x0, 0x0, 0x0, 0x0, 0x0, []⟩ /- WATCH_DECL2 -/
  , ⟨0x130, 0, 1, 0xFFFFFFFF, 0xFFFFFFFF, 0x0, 0x0, 0x0, 0x0, 0x0, []⟩ /- WATCH_DECL3 -/
  , ⟨0x134, 0, 1, 0xFFFFFFFF, 0xFFFFFFFF, 0x0, 0x0, 0x0, 0x0, 0x0, []⟩ /- WATCH_DECL4 -/
  , ⟨0x138, 0, 1, 0x0, 0xFFFF0003, 0x0, 0x0, 0x0, 0xFFFC, 0x0, []⟩ /- WATCH_ST0 -/
  , ⟨0x13C, 0, 1, 0x0, 0xFFFFFFFF, 0x0, 0x0, 0x0, 0x0, 0x0, []⟩ /- WATCH_ST1 -/
  , ⟨0x140, 8, 7, 0x0, 0x0, 0x0, 0x0, 0x0, 0x0, 0x0, []⟩ /- WATCH_CNT_LO -/
  , ⟨0x144, 8, 7, 0x0, 0x0, 0x0, 0x0, 0x0, 0x0, 0x0, []⟩ /- WATCH_CNT_HI -/
  , ⟨0x178, 0, 1, 0x0, 0x0, 0x0, 0x0, 0x0, 0x0, 0x0, []⟩ /- WATCH_TOK_LO -/
  , ⟨0x17C, 0, 1, 0x0, 0x0, 0x0, 0x0, 0x0, 0x0, 0x0, []⟩ /- WATCH_TOK_HI -/ ] ++
  [ ⟨0x180, 16, 8, 0x0, 0xFFFF3FF, 0x0, 0x0, 0x0, 0xF0000C00, 0x0, []⟩ /- SENT_CFG -/
  , ⟨0x184, 16, 8, 0x100050, 0xFFFFFFFF, 0x0, 0x0, 0x0, 0x0, 0x0, [⟨0, 16, 1, 65535⟩]⟩ /- SENT_K -/
  , ⟨0x188, 16, 8, 0x0, 0xFFFFFFFF, 0x0, 0x0, 0x0, 0x0, 0x0, []⟩ /- SENT_MEAN -/
  , ⟨0x18C, 16, 8, 0x0, 0xFFFFFFFF, 0x0, 0x0, 0x0, 0x0, 0x0, []⟩ /- SENT_VAR -/
  , ⟨0x200, 4, 8, 0x0, 0xFFFF, 0x0, 0x0, 0x0, 0xFFFC0000, 0x0, []⟩ /- SENT_SEEN -/
  , ⟨0x220, 4, 8, 0x0, 0x0, 0x0, 0x0, 0x0, 0x0, 0x0, []⟩ /- SENT_LAST -/
  , ⟨0x240, 0, 1, 0x0, 0x0, 0x0, 0x0, 0x0, 0x7FFFF000, 0x0, []⟩ /- WATCH_DORM_LAST -/ ]

/-- Registers of the UPD page from 0x100 upwards, as the owning chapter maps them (R286). -/
def regsUpd : List RegSpec :=
  [ ⟨0x100, 0, 1, 0x0, 0xFFFFFFFF, 0x0, 0x0, 0x0, 0x0, 0x0, []⟩ /- UPD_SEED_LO -/
  , ⟨0x104, 0, 1, 0x0, 0xFFFFFFFF, 0x0, 0x0, 0x0, 0x0, 0x0, []⟩ /- UPD_SEED_HI -/
  , ⟨0x108, 0, 1, 0x0, 0xFFFFFFFF, 0x0, 0x0, 0x0, 0x0, 0x0, []⟩ /- UPD_T0_LO -/
  , ⟨0x10C, 0, 1, 0x0, 0xFFFFFFFF, 0x0, 0x0, 0x0, 0x0, 0x0, []⟩ /- UPD_T0_HI -/
  , ⟨0x110, 0, 1, 0x0, 0x0, 0x0, 0x1, 0x6, 0xFFE00008, 0x0, []⟩ /- UPD_VCTL -/
  , ⟨0x114, 0, 1, 0x0, 0xFFFF, 0x0, 0x0, 0x0, 0xFFFF0000, 0x0, []⟩ /- UPD_VSEL -/
  , ⟨0x118, 0, 1, 0x0, 0x1, 0x0, 0x0, 0x0, 0xFFFFFFF8, 0x0, []⟩ /- UPD_VSTAT -/
  , ⟨0x120, 0, 1, 0x0, 0xFFFFFFFF, 0x0, 0x0, 0x0, 0x0, 0x0, []⟩ /- UPD_VVER_LO -/
  , ⟨0x124, 0, 1, 0x0, 0xFFFFFFFF, 0x0, 0x0, 0x0, 0x0, 0x0, []⟩ /- UPD_VVER_HI -/
  , ⟨0x128, 0, 1, 0x0, 0x0, 0x0, 0x0, 0x0, 0xFFFFFFFC, 0x0, []⟩ /- UPD_LAST -/
  , ⟨0x12C, 0, 1, 0x0, 0x0, 0x0, 0x0, 0x0, 0x0, 0x0, []⟩ /- UPD_COUNTS -/ ]

/-- Registers of the CE page from 0x100 upwards, as the owning chapter maps them (R347). -/
def regsCe : List RegSpec :=
  [ ⟨0x100, 0, 1, 0x4198, 0x7FFF, 0x0, 0x0, 0x0, 0xFFFF8000, 0x0, [⟨0, 4, 1, 8⟩, ⟨5, 5, 0, 16⟩, ⟨10, 5, 8, 23⟩]⟩ /- CE_CFG -/
  , ⟨0x104, 0, 1, 0x0, 0x7, 0x0, 0x0, 0x0, 0xFFFFFFF8, 0x0, []⟩ /- CE_GSELF -/
  , ⟨0x108, 0, 1, 0x186A0, 0xFFFFFF, 0x0, 0x0, 0x0, 0xFF000000, 0x0, []⟩ /- CE_ACK_NS -/
  , ⟨0x110, 4, 8, 0x0, 0xFFF, 0x0, 0x0, 0x0, 0xFFFFF000, 0x0, []⟩ /- CE_GROUP -/
  , ⟨0x130, 0, 1, 0x0, 0x80000FFF, 0x0, 0x0, 0x0, 0x7FFFF000, 0x0, []⟩ /- CE_TPARENT -/
  , ⟨0x134, 4, 8, 0x0, 0x80000FFF, 0x0, 0x0, 0x0, 0x7FFFF000, 0x0, []⟩ /- CE_TCHILD -/
  , ⟨0x160, 0, 1, 0x0, 0x0, 0x0, 0x0, 0x0, 0xFFFF0000, 0x0, []⟩ /- CE_EPOCH -/
  , ⟨0x164, 0, 1, 0x0, 0xFFFF0000, 0x0, 0x0, 0x3, 0xFFF8, 0x0, []⟩ /- CE_RESHARD -/
  , ⟨0x168, 0, 1, 0xFFF0, 0x0, 0x0, 0x0, 0x0, 0xE0000008, 0x0, []⟩ /- CE_STATE -/
  , ⟨0x16C, 0, 1, 0x0, 0x0, 0x0, 0x0, 0x0, 0xFFFFFFFC, 0x0, []⟩ /- CE_SIDE -/
  , ⟨0x170, 0, 1, 0x0, 0x0, 0x0, 0x0, 0x0, 0xFF7C0000, 0x0, []⟩ /- CE_FAULT -/
  , ⟨0x174, 0, 1, 0x0, 0x0, 0x0, 0x0, 0x0, 0xFFFF0000, 0x0, []⟩ /- CE_FAULT_CODE -/
  , ⟨0x178, 0, 1, 0x0, 0x0, 0x0, 0x0, 0x0, 0x7C000000, 0x0, []⟩ /- CE_DIS -/
  , ⟨0x200, 4, 128, 0x0, 0x0, 0x0, 0x0, 0x0, 0x0, 0x0, []⟩ /- CE_EXCL -/ ]

/-- Registers of the JRNL page from 0x100 upwards, as the owning chapter maps them (R371). -/
def regsJrnl : List RegSpec :=
  [ ⟨0x100, 0, 1, 0x3, 0x3, 0x0, 0x0, 0x0, 0xFFFFFFFC, 0x0, []⟩ /- JRNL_CFG -/
  , ⟨0x104, 0, 1, 0x0, 0xFFFFFFFF, 0x0, 0x0, 0x0, 0x0, 0x0, []⟩ /- JRNL_RING_LO -/
  , ⟨0x108, 0, 1, 0x0, 0xFFFFF, 0x0, 0x0, 0x0, 0xFFF00000, 0x0, []⟩ /- JRNL_RING_HI -/
  , ⟨0x10C, 0, 1, 0x0, 0xFFFFFF, 0x0, 0x0, 0x0, 0xFF000000, 0x0, []⟩ /- JRNL_RING_LEN -/
  , ⟨0x110, 0, 1, 0x0, 0x0, 0x0, 0x0, 0x0, 0x0, 0x0, []⟩ /- JRNL_WR_LO -/
  , ⟨0x114, 0, 1, 0x0, 0x0, 0x0, 0x0, 0x0, 0x0, 0x0, []⟩ /- JRNL_WR_HI -/
  , ⟨0x118, 0, 1, 0x0, 0xFFFFFFFF, 0x0, 0x0, 0x0, 0x0, 0x0, []⟩ /- JRNL_REL_LO -/
  , ⟨0x11C, 0, 1, 0x0, 0xFFFFFFFF, 0x0, 0x0, 0x0, 0x0, 0x0, []⟩ /- JRNL_REL_HI -/
  , ⟨0x120, 0, 1, 0x0, 0xFFFFFFFF, 0x0, 0x0, 0x0, 0x0, 0x0, []⟩ /- JRNL_RPL_LO -/
  , ⟨0x124, 0, 1, 0x0, 0xFFFFF, 0x0, 0x0, 0x0, 0xFFF00000, 0x0, []⟩ /- JRNL_RPL_HI -/
  , ⟨0x128, 0, 1, 0x0, 0xFFFFFF, 0x0, 0x0, 0x0, 0xFF000000, 0x0, []⟩ /- JRNL_RPL_LEN -/
  , ⟨0x12C, 0, 1, 0x0, 0x1, 0x0, 0x0, 0x0, 0xFFFFFFF8, 0x0, []⟩ /- JRNL_RPL_CTRL -/
  , ⟨0x130, 0, 1, 0x0, 0xFFFFFFFF, 0x0, 0x0, 0x0, 0x0, 0x0, []⟩ /- JRNL_EXP_LO -/
  , ⟨0x134, 0, 1, 0x0, 0xFFFFF, 0x0, 0x0, 0x0, 0xFFF00000, 0x0, []⟩ /- JRNL_EXP_HI -/
  , ⟨0x138, 0, 1, 0x0, 0x3FFF, 0x0, 0x0, 0x0, 0xFFFFC000, 0x0, [⟨0, 13, 0, 4096⟩]⟩ /- JRNL_EXP_CFG -/
  , ⟨0x13C, 0, 1, 0x0, 0x18, 0x0, 0x0, 0x0, 0xFFF00000, 0x0, []⟩ /- JRNL_EXP_STAT -/
  , ⟨0x140, 0, 1, 0x0, 0x0, 0x0, 0x0, 0x0, 0x0, 0x0, []⟩ /- JRNL_EXP_STEP0_LO -/
  , ⟨0x144, 0, 1, 0x0, 0x0, 0x0, 0x0, 0x0, 0x0, 0x0, []⟩ /- JRNL_EXP_STEP0_HI -/
  , ⟨0x148, 0, 1, 0x0, 0x0, 0x0, 0x0, 0x0, 0x0, 0x0, []⟩ /- JRNL_EXP_STEP1_LO -/
  , ⟨0x14C, 0, 1, 0x0, 0x0, 0x0, 0x0, 0x0, 0x0, 0x0, []⟩ /- JRNL_EXP_STEP1_HI -/ ] ++
  [ ⟨0x150, 0, 1, 0x0, 0xFFFF003F, 0x0, 0x0, 0x0, 0xFFC0, 0x0, []⟩ /- JRNL_TWIN -/
  , ⟨0x154, 0, 1, 0xF4240, 0xFFFFFF, 0x0, 0x0, 0x0, 0xFF000000, 0x0, [⟨0, 24, 1, 16777215⟩]⟩ /- JRNL_TWIN_TMO -/
  , ⟨0x158, 0, 1, 0x0, 0x0, 0x0, 0x0, 0x0, 0xFFFFFFE0, 0x0, []⟩ /- JRNL_TWIN_STAT -/
  , ⟨0x160, 4, 4, 0x0, 0x0, 0x0, 0x0, 0x0, 0x0, 0x0, []⟩ /- JRNL_DIGEST -/
  , ⟨0x170, 4, 4, 0x0, 0x0, 0x0, 0x0, 0x0, 0x0, 0x0, []⟩ /- JRNL_TWIN_DIG -/
  , ⟨0x180, 0, 1, 0x0, 0x0, 0x0, 0x0, 0x0, 0x0, 0x0, []⟩ /- JRNL_RSTEP_LO -/
  , ⟨0x184, 0, 1, 0x0, 0x0, 0x0, 0x0, 0x0, 0x0, 0x0, []⟩ /- JRNL_RSTEP_HI -/
  , ⟨0x190, 0, 1, 0x0, 0x80000FFF, 0x0, 0x0, 0x0, 0x7FFFF000, 0x0, []⟩ /- JRNL_EXP_DST -/
  , ⟨0x194, 0, 1, 0x0, 0xFFFFFFFF, 0x0, 0x0, 0x0, 0x0, 0x0, []⟩ /- JRNL_RX_LO -/
  , ⟨0x198, 0, 1, 0x0, 0xFFFFF, 0x0, 0x0, 0x0, 0xFFF00000, 0x0, []⟩ /- JRNL_RX_HI -/
  , ⟨0x19C, 0, 1, 0x0, 0xFFFFFF, 0x0, 0x0, 0x0, 0xFF000000, 0x0, []⟩ /- JRNL_RX_LEN -/ ]

/-- Registers of the INTEG page from 0x100 upwards, as the owning chapter maps them (R386). -/
def regsInteg : List RegSpec :=
  [ ⟨0x100, 0, 1, 0x1, 0xFFFF0001, 0x0, 0x0, 0x0, 0xFFFE, 0x0, []⟩ /- INTEG_CFG -/
  , ⟨0x104, 0, 1, 0x0, 0x0, 0x0, 0x0, 0x0, 0xFFFFE000, 0x0, []⟩ /- INTEG_STAT -/
  , ⟨0x108, 0, 1, 0x0, 0x0, 0x0, 0x0, 0x0, 0x0, 0x0, []⟩ /- SCRUB_LAP -/
  , ⟨0x10C, 0, 1, 0x0, 0x0, 0x0, 0x0, 0x0, 0x0, 0x0, []⟩ /- SCRUB_AGE -/
  , ⟨0x110, 0, 1, 0x989680, 0xFFFFFFFF, 0x0, 0x0, 0x0, 0x0, 0x0, []⟩ /- SCRUB_AGE_MAX -/
  , ⟨0x114, 0, 1, 0x0, 0x0, 0x0, 0x0, 0x0, 0xFFFF0000, 0x0, []⟩ /- SCRUB_POS -/
  , ⟨0x118, 0, 1, 0x0, 0x0, 0x0, 0x0, 0x0, 0x0, 0x0, []⟩ /- UE_ADDR_LO -/
  , ⟨0x11C, 0, 1, 0x0, 0x0, 0x0, 0x0, 0x0, 0xFFF00000, 0x0, []⟩ /- UE_ADDR_HI -/
  , ⟨0x120, 0, 1, 0x0, 0x0, 0x0, 0x0, 0x0, 0xFFFFFFC0, 0x0, []⟩ /- UE_INFO -/
  , ⟨0x124, 0, 1, 0x0, 0x0, 0x0, 0x0, 0x0, 0x0, 0x0, []⟩ /- CE_ADDR_LO -/
  , ⟨0x128, 0, 1, 0x0, 0x0, 0x0, 0x0, 0x0, 0xFFF00000, 0x0, []⟩ /- CE_ADDR_HI -/
  , ⟨0x12C, 0, 1, 0x0, 0x0, 0x0, 0x0, 0x0, 0x7FFFC000, 0x0, []⟩ /- CE_INFO -/
  , ⟨0x130, 0, 1, 0x0, 0xFFFFFFFF, 0x0, 0x0, 0x0, 0x0, 0x0, []⟩ /- INJ_ADDR_LO -/
  , ⟨0x134, 0, 1, 0x0, 0xFFFFF, 0x0, 0x0, 0x0, 0xFFF00000, 0x0, []⟩ /- INJ_ADDR_HI -/
  , ⟨0x138, 0, 1, 0x0, 0x7, 0x0, 0x0, 0x0, 0xFFFFFFF0, 0x0, []⟩ /- INJ_CTRL -/
  , ⟨0x13C, 0, 1, 0x0, 0x0, 0x0, 0x0, 0x0, 0x7FFFFFF0, 0x0, []⟩ /- PAR_INFO -/ ]

/-- Registers of the PWR page from 0x100 upwards, as the owning chapter maps them (R478). -/
def regsPwr : List RegSpec :=
  [ ⟨0x100, 0, 1, 0x0, 0x0, 0x0, 0x0, 0x0, 0xFFFF0000, 0x0, []⟩ /- PWR_STATE -/
  , ⟨0x104, 0, 1, 0x0, 0x0, 0x0, 0x0, 0x0, 0xFC00FC00, 0x0, []⟩ /- PWR_VCORE -/
  , ⟨0x108, 0, 1, 0x0, 0xF, 0x0, 0x0, 0x0, 0xFFFFFFF0, 0x0, []⟩ /- PWR_SENS_SEL -/
  , ⟨0x10C, 0, 1, 0x0, 0x0, 0x0, 0x0, 0x0, 0xFFFF0000, 0x0, []⟩ /- PWR_SENS -/
  , ⟨0x110, 0, 1, 0x11402, 0x1FF07, 0x0, 0x0, 0x0, 0xFFFE00F8, 0x0, [⟨0, 3, 1, 4⟩, ⟨8, 8, 5, 255⟩]⟩ /- PWR_DROOP_CFG -/
  , ⟨0x114, 0, 1, 0x0, 0x0, 0x0, 0x0, 0x0, 0x7FFFF800, 0x0, []⟩ /- PWR_DROOP_STAT -/ ]

/-- Registers of the SVC page from 0x100 upwards, as the owning chapter maps them (R496). -/
def regsSvc : List RegSpec :=
  [ ⟨0x100, 0, 1, 0x0, 0x0, 0x0, 0x0, 0x3FFF, 0xFFFFC000, 0x0, []⟩ /- SVC_REQ -/
  , ⟨0x104, 0, 1, 0x0, 0x0, 0x0, 0x0, 0x0, 0xFFFF8000, 0x0, []⟩ /- SVC_STAT -/
  , ⟨0x108, 0, 1, 0x0, 0x0, 0x0, 0x0, 0x0, 0xFFFE0000, 0x0, []⟩ /- SVC_RESULT -/
  , ⟨0x10C, 0, 1, 0x0, 0x0, 0x0, 0x0, 0x0, 0xFFFF0000, 0x0, []⟩ /- SVC_DETAIL -/ ]

/-- Registers of the MX page from 0x100 upwards, as the owning chapter maps them (R171). -/
def regsMx : List RegSpec :=
  [ ⟨0x100, 0, 1, 0x0, 0x0, 0x0, 0x0, 0x0, 0xFFFFE888, 0x0, []⟩ /- MX_STATE -/
  , ⟨0x104, 0, 1, 0x0, 0x7F, 0x0, 0x0, 0x0, 0xFFFFFF80, 0x0, []⟩ /- MX_ROLE -/
  , ⟨0x108, 0, 1, 0x404040, 0x0, 0x0, 0x0, 0x0, 0xFF808080, 0x0, []⟩ /- MX_RATE -/
  , ⟨0x10C, 0, 1, 0x0, 0x0, 0x0, 0x0, 0x0, 0xFFFFFFF0, 0x0, []⟩ /- MX_ROWS -/
  , ⟨0x110, 4, 4, 0x0, 0x0, 0x0, 0x0, 0x0, 0x7FFFFF00, 0x0, []⟩ /- MX_ROWMAP -/
  , ⟨0x120, 0, 1, 0x0, 0x0, 0x0, 0x0, 0x0, 0xFF000000, 0x0, []⟩ /- MX_TASK -/
  , ⟨0x124, 0, 1, 0x0, 0x0, 0x0, 0x0, 0x0, 0xFFFFFFF0, 0x0, []⟩ /- MX_BANKS -/
  , ⟨0x128, 0, 1, 0x0, 0x0, 0x0, 0x0, 0x0, 0xFFFFFFC0, 0x0, []⟩ /- MX_SHADOW -/ ]

/-- Registers of the VX page from 0x100 upwards, as the owning chapter maps them (R206). -/
def regsVx : List RegSpec :=
  [ ⟨0x100, 0, 1, 0x0, 0x0, 0x0, 0x0, 0x0, 0x0, 0x0, []⟩ /- VX_STATE -/
  , ⟨0x104, 0, 1, 0x0, 0x0, 0x0, 0x0, 0x0, 0xFE000000, 0x0, []⟩ /- VX_FAULT -/
  , ⟨0x108, 0, 1, 0x0, 0x0, 0x0, 0x0, 0x0, 0xFFFF0000, 0x0, []⟩ /- VX_FAULT_CODE -/
  , ⟨0x10C, 0, 1, 0x0, 0x0, 0x0, 0x0, 0x0, 0xFFFE0000, 0x0, []⟩ /- VX_PROG -/ ]

/-- Registers of the RE page from 0x100 upwards, as the owning chapter maps them (R208). -/
def regsRe : List RegSpec :=
  [ ⟨0x100, 0, 1, 0x0, 0x0, 0x0, 0x0, 0x0, 0xFFC00000, 0x0, []⟩ /- RE_STATE -/
  , ⟨0x104, 0, 1, 0x0, 0x0, 0x0, 0x0, 0x0, 0xFF000000, 0x0, []⟩ /- RE_ROW -/
  , ⟨0x108, 0, 1, 0x0, 0x0, 0x0, 0x0, 0x0, 0xFFFF0000, 0x0, []⟩ /- RE_FAULT_CODE -/ ]

/-- Registers of the SHELF page from 0x100 upwards, as the owning chapter maps them (R209). -/
def regsShelf : List RegSpec :=
  [ ⟨0x100, 0, 1, 0x0, 0xFFFFFFFF, 0x0, 0x0, 0x0, 0x0, 0x0, []⟩ /- SHELF_SPILL_LO -/
  , ⟨0x104, 0, 1, 0x0, 0xFFFFF, 0x0, 0x0, 0x0, 0xFFF00000, 0x0, []⟩ /- SHELF_SPILL_HI -/
  , ⟨0x108, 0, 1, 0x0, 0xFFFFFF, 0x0, 0x0, 0x0, 0xFF000000, 0x0, []⟩ /- SHELF_SPILL_LEN -/
  , ⟨0x10C, 0, 1, 0x0, 0x0, 0x0, 0x0, 0x0, 0xFFC00000, 0x0, []⟩ /- SHELF_USED -/
  , ⟨0x110, 0, 1, 0x0, 0x0, 0x0, 0x0, 0x0, 0x0, 0x0, []⟩ /- SHELF_SPILLED -/
  , ⟨0x114, 0, 1, 0x0, 0xFFFF, 0x0, 0x0, 0x0, 0xFFFF0000, 0x0, []⟩ /- SHELF_Q_SEL -/
  , ⟨0x118, 0, 1, 0x0, 0x0, 0x0, 0x0, 0x0, 0xFF800000, 0x0, []⟩ /- SHELF_Q -/
  , ⟨0x11C, 0, 1, 0x0, 0x0, 0x0, 0x0, 0x0, 0xFF000000, 0x0, []⟩ /- SHELF_Q_ROWS -/
  , ⟨0x120, 0, 1, 0x0, 0xFFFF, 0x0, 0x0, 0x0, 0xFFFF0000, 0x0, []⟩ /- SHELF_PEEK_T -/
  , ⟨0x124, 0, 1, 0x0, 0xFFFFFF, 0x0, 0x0, 0x0, 0xFF000000, 0x0, []⟩ /- SHELF_PEEK_ROW -/
  , ⟨0x128, 0, 1, 0x0, 0x0, 0x0, 0x0, 0x0, 0x0, 0x0, []⟩ /- SHELF_PEEK_LO -/
  , ⟨0x12C, 0, 1, 0x0, 0x0, 0x0, 0x0, 0x0, 0x0, 0x0, []⟩ /- SHELF_PEEK_HI -/ ]

/-- Registers of the SR page from 0x100 upwards, as the owning chapter maps them (R232). -/
def regsSr : List RegSpec :=
  [ ⟨0x100, 0, 1, 0x3030, 0x0, 0x0, 0x0, 0x0, 0xFFFF0000, 0x0, []⟩ /- SR_INFO -/ ]

/-- Registers of the LOFT page from 0x100 upwards, as the owning chapter maps them (R236). -/
def regsLoft : List RegSpec :=
  [ ⟨0x100, 0, 1, 0x1, 0x1, 0x0, 0x0, 0x0, 0xFFFFFFFE, 0x0, []⟩ /- LOFT_CFG -/
  , ⟨0x104, 0, 1, 0x0, 0x0, 0x0, 0x0, 0x1, 0xFFFFFFFE, 0x0, []⟩ /- LOFT_FLUSH -/
  , ⟨0x108, 0, 1, 0x0, 0x0, 0x0, 0x0, 0x0, 0xFFFC0000, 0x0, []⟩ /- LOFT_OCC -/
  , ⟨0x10C, 0, 1, 0x0, 0x0, 0x0, 0x0, 0x0, 0xFFFC0000, 0x0, []⟩ /- LOFT_OCC_SS -/ ]

/-- Registers of the TRUNK page from 0x100 upwards, as the owning chapter maps them (R237). -/
def regsTrunk : List RegSpec :=
  [ ⟨0x100, 0, 1, 0x0, 0x0, 0x0, 0x0, 0x0, 0xFFFFFF80, 0x0, []⟩ /- TRUNK_STAT -/ ]

/-- Registers of the SC page from 0x100 upwards, as the owning chapter maps them (R233). -/
def regsSc : List RegSpec :=
  [ ⟨0x100, 0, 1, 0x258020, 0x0, 0x0, 0x0, 0x0, 0xFF000000, 0x0, []⟩ /- SC_INFO -/
  , ⟨0x104, 0, 1, 0x0, 0x0, 0x0, 0x0, 0x0, 0xFFFFFC00, 0x0, []⟩ /- SC_STAT -/
  , ⟨0x108, 0, 1, 0x0, 0xFFFFFFFF, 0x0, 0x0, 0x0, 0x0, 0x0, []⟩ /- SC_MAP_LO -/
  , ⟨0x10C, 0, 1, 0x0, 0xFFFFF, 0x0, 0x0, 0x0, 0xFFF00000, 0x0, []⟩ /- SC_MAP_HI -/
  , ⟨0x110, 0, 1, 0x0, 0x0, 0x0, 0x0, 0x0, 0xFFFFF800, 0x0, []⟩ /- SC_MAP_RES -/ ]

/-- Registers of the MV page from 0x100 upwards, as the owning chapter maps them (R238). -/
def regsMv : List RegSpec :=
  [ ⟨0x100, 0, 1, 0x0, 0x0, 0x0, 0x0, 0x0, 0xFFE00000, 0x0, []⟩ /- MV_STATE -/
  , ⟨0x104, 0, 1, 0x0, 0x0, 0x0, 0x0, 0x0, 0xFF000000, 0x0, []⟩ /- MV_ROW -/
  , ⟨0x108, 0, 1, 0x0, 0x0, 0x0, 0x0, 0x0, 0xFFFF0000, 0x0, []⟩ /- MV_FAULT_CODE -/
  , ⟨0x10C, 0, 1, 0x0, 0x0, 0x0, 0x0, 0x0, 0x0, 0x0, []⟩ /- MV_FAULT_ADDR_LO -/
  , ⟨0x110, 0, 1, 0x0, 0x0, 0x0, 0x0, 0x0, 0xFFF00000, 0x0, []⟩ /- MV_FAULT_ADDR_HI -/ ]

/-- Registers of the LP page from 0x100 upwards, as the owning chapter maps them (R317). -/
def regsLp : List RegSpec :=
  [ ⟨0x100, 0, 1, 0x4, 0x5, 0x0, 0x0, 0x2, 0xFFFFFFF8, 0x0, []⟩ /- LP_CTRL -/
  , ⟨0x104, 0, 1, 0x3E880, 0xFFFFFF, 0x0, 0x0, 0x0, 0xFF000000, 0x0, [⟨4, 4, 1, 15⟩, ⟨8, 16, 100, 65535⟩]⟩ /- LP_CFG -/
  , ⟨0x108, 0, 1, 0x422, 0xFFF, 0x0, 0x0, 0x0, 0xFFFFF000, 0x0, [⟨0, 4, 1, 15⟩, ⟨4, 4, 1, 15⟩, ⟨8, 4, 1, 15⟩]⟩ /- LP_ARB -/
  , ⟨0x10C, 0, 1, 0x0, 0x10FFF, 0x0, 0x0, 0x0, 0xFFFEF000, 0x0, []⟩ /- LP_EXPECT -/
  , ⟨0x110, 0, 1, 0x0, 0x0, 0x0, 0x0, 0x0, 0xFF00F0F8, 0x0, []⟩ /- LP_STATE -/
  , ⟨0x114, 0, 1, 0x0, 0x0, 0x0, 0x0, 0x0, 0x0, 0x0, []⟩ /- LP_PEER -/
  , ⟨0x118, 0, 1, 0x0, 0x0, 0x0, 0x0, 0x0, 0xFFFF0000, 0x0, []⟩ /- LP_PEER_GEN -/
  , ⟨0x11C, 0, 1, 0x0, 0x0, 0x0, 0x0, 0x0, 0xFFFF0000, 0x0, []⟩ /- LP_LAT -/
  , ⟨0x120, 0, 1, 0x0, 0x0, 0x0, 0x0, 0x0, 0xFFE0FF00, 0x0, []⟩ /- LP_REPLAY -/
  , ⟨0x124, 0, 1, 0x0, 0x0, 0x0, 0x0, 0x0, 0xFFFF0000, 0x0, []⟩ /- LP_RXSEQ -/
  , ⟨0x200, 0, 1, 0x0, 0xFFFFFFF, 0x0, 0x0, 0x0, 0xF0000000, 0x0, []⟩ /- LS_SLICE -/
  , ⟨0x204, 0, 1, 0x8, 0xF, 0x0, 0x0, 0x0, 0xFFFFFFF0, 0x0, [⟨0, 4, 1, 15⟩]⟩ /- LS_CFG -/
  , ⟨0x208, 0, 1, 0x0, 0xFFFF0000, 0x0, 0x0, 0x0, 0x0, 0x0, []⟩ /- LS_PGEN -/
  , ⟨0x20C, 0, 1, 0x0, 0x1FFF, 0x0, 0x0, 0x0, 0xFFFFE000, 0x0, []⟩ /- RT_SEL -/
  , ⟨0x210, 0, 1, 0x0, 0xFFFFFFFF, 0x0, 0x0, 0x0, 0x0, 0x0, []⟩ /- RT_ENTRY -/
  , ⟨0x214, 0, 1, 0x0, 0x0, 0x0, 0x0, 0x3, 0xFFFFFFF8, 0x0, []⟩ /- RT_CTRL -/
  , ⟨0x218, 0, 1, 0x0, 0x0, 0x0, 0x0, 0x0, 0x0, 0x0, []⟩ /- RT_DIGEST_LO -/
  , ⟨0x21C, 0, 1, 0x0, 0x0, 0x0, 0x0, 0x0, 0x0, 0x0, []⟩ /- RT_DIGEST_HI -/ ]

/-- Registers of the SW page from 0x100 upwards, as the owning chapter maps them (R405). -/
def regsSw : List RegSpec :=
  [ ⟨0x100, 0, 1, 0x2, 0x2, 0x0, 0x0, 0x1, 0xFFFFFFFC, 0x0, []⟩ /- SW_CTRL -/
  , ⟨0x104, 0, 1, 0x0, 0x0, 0x0, 0x0, 0x0, 0xFFF80008, 0x0, []⟩ /- SW_STATE -/
  , ⟨0x108, 0, 1, 0x0, 0x0, 0x0, 0x0, 0x0, 0x0, 0x0, []⟩ /- SW_EPOCH -/
  , ⟨0x10C, 0, 1, 0x0, 0x0, 0x0, 0x0, 0x0, 0x0, 0x0, []⟩ /- SW_WIDTH -/
  , ⟨0x110, 0, 1, 0x0, 0x0, 0x0, 0x0, 0x0, 0x0, 0x0, []⟩ /- SW_RXWIDTH -/
  , ⟨0x114, 0, 1, 0x0, 0x0, 0x0, 0x0, 0x0, 0xFFFF0000, 0x0, []⟩ /- SW_LAT -/
  , ⟨0x118, 0, 1, 0x0, 0xF, 0x0, 0x0, 0x0, 0xFFFFFFF0, 0x0, []⟩ /- SW_REPAIR_SEL -/
  , ⟨0x11C, 0, 1, 0x0, 0x0, 0x0, 0x0, 0x0, 0x80000000, 0x0, []⟩ /- SW_REPAIR -/
  , ⟨0x120, 0, 1, 0x640100, 0x3FFFFFF, 0x0, 0x0, 0x0, 0xFC000000, 0x0, [⟨0, 16, 1, 65535⟩, ⟨16, 10, 10, 1000⟩]⟩ /- SW_ERR_CFG -/ ]

/-- Registers of the HT page from 0x100 upwards, as the owning chapter maps them (R408). -/
def regsHt : List RegSpec :=
  [ ⟨0x100, 0, 1, 0x0, 0x0, 0x0, 0x0, 0x0, 0xFFFFF888, 0x0, []⟩ /- HT_STATE -/
  , ⟨0x104, 0, 1, 0x0, 0x0, 0x0, 0x0, 0x0, 0xFFFFFF00, 0x0, []⟩ /- HT_REPAIR -/
  , ⟨0x108, 0, 1, 0x0, 0x0, 0x0, 0x0, 0x0, 0xFFFF0000, 0x0, []⟩ /- HT_RETRY -/ ]

/-- Registers of the HTS page from 0x100 upwards, as the owning chapter maps them (R408). -/
def regsHts : List RegSpec :=
  [ ⟨0x100, 0, 1, 0x0, 0x0, 0x0, 0x0, 0x0, 0xFFFFF888, 0x0, []⟩ /- HT_STATE -/
  , ⟨0x104, 0, 1, 0x0, 0x0, 0x0, 0x0, 0x0, 0xFFFFFF00, 0x0, []⟩ /- HT_REPAIR -/
  , ⟨0x108, 0, 1, 0x0, 0x0, 0x0, 0x0, 0x0, 0xFFFF0000, 0x0, []⟩ /- HT_RETRY -/
  , ⟨0x110, 0, 1, 0x0, 0x2, 0x0, 0x0, 0x5, 0xFFFFFFF8, 0x0, []⟩ /- HTS_CTRL -/
  , ⟨0x114, 0, 1, 0x0, 0x0, 0x0, 0x0, 0x0, 0xFFFFFF00, 0x0, []⟩ /- HTS_DIE -/ ]

/-- Registers of the HOST page from 0x100 upwards, as the owning chapter maps them (R434). -/
def regsHost : List RegSpec :=
  [ ⟨0x100, 0, 1, 0x101, 0x0, 0x0, 0x0, 0x0, 0xFFFF0000, 0x0, []⟩ /- HOST_VER -/
  , ⟨0x104, 0, 1, 0x0, 0xFFFF, 0x0, 0x0, 0x0, 0xFFFE0000, 0x0, []⟩ /- HOST_NEG -/
  , ⟨0x108, 0, 1, 0x0, 0x0, 0x0, 0x0, 0x0, 0xFFFFFE00, 0x0, []⟩ /- HOST_LINK -/
  , ⟨0x110, 4, 4, 0x0, 0xF, 0x0, 0x0, 0x0, 0xFFFFFFF0, 0x0, []⟩ /- HOST_B2MAP -/
  , ⟨0x120, 0, 1, 0x0, 0x0, 0x0, 0x0, 0x0, 0x0, 0x0, []⟩ /- HOST_B2ERR_LO -/
  , ⟨0x124, 0, 1, 0x0, 0x0, 0x0, 0x0, 0x0, 0xFFF00000, 0x0, []⟩ /- HOST_B2ERR_HI -/
  , ⟨0x128, 0, 1, 0x0, 0x0, 0x0, 0x0, 0x0, 0x7FFE0000, 0x0, []⟩ /- HOST_B2ERR_CODE -/
  , ⟨0x130, 0, 1, 0x0, 0xFF, 0x0, 0x0, 0x0, 0xFFFFFF00, 0x0, []⟩ /- HOST_TL_SEL -/
  , ⟨0x134, 0, 1, 0x0, 0x807FFFFF, 0x0, 0x0, 0x0, 0x7F800000, 0x0, []⟩ /- HOST_TL_ENTRY -/ ]

/-- Registers of the SEC page from 0x100 upwards, as the owning chapter maps them (R461). -/
def regsSec : List RegSpec :=
  [ ⟨0x100, 0, 1, 0x0, 0x0, 0x0, 0x0, 0x0, 0x0, 0x0, []⟩ /- SEC_DEVID_LO -/
  , ⟨0x104, 0, 1, 0x0, 0x0, 0x0, 0x0, 0x0, 0x0, 0x0, []⟩ /- SEC_DEVID_HI -/
  , ⟨0x108, 0, 1, 0x0, 0x0, 0x0, 0x0, 0x0, 0xFFFFC0C0, 0x0, []⟩ /- SEC_SVN -/
  , ⟨0x10C, 0, 1, 0x0, 0x0, 0x0, 0x0, 0x3F, 0xFFFFFFC0, 0x0, []⟩ /- SEC_FLOOR_REQ -/
  , ⟨0x110, 0, 1, 0x0, 0x0, 0x0, 0x0, 0x1, 0xFFFC, 0x0, []⟩ /- SEC_ATT_CTRL -/
  , ⟨0x114, 0, 1, 0x0, 0xFFFFFFFF, 0x0, 0x0, 0x0, 0x0, 0x0, []⟩ /- SEC_ATT_ADDR_LO -/
  , ⟨0x118, 0, 1, 0x0, 0xFFFFFFFF, 0x0, 0x0, 0x0, 0x0, 0x0, []⟩ /- SEC_ATT_ADDR_HI -/
  , ⟨0x120, 4, 8, 0x0, 0xFFFFFFFF, 0x0, 0x0, 0x0, 0x0, 0x0, []⟩ /- SEC_NONCE -/
  , ⟨0x140, 0, 1, 0x100000, 0x0, 0x0, 0x0, 0x0, 0xFFE00000, 0x0, []⟩ /- SEC_LMS_LEFT -/
  , ⟨0x144, 0, 1, 0x1000, 0x1FFFFF, 0x0, 0x0, 0x0, 0xFFE00000, 0x0, []⟩ /- SEC_LMS_LOW -/ ]

/-- Registers of the CFG page from 0x100 upwards, as the owning chapter maps them (R460). -/
def regsCfg : List RegSpec :=
  [ ⟨0x100, 0, 1, 0x0, 0x0, 0x0, 0x0, 0x7, 0xFFFFFFF8, 0x0, []⟩ /- CFG_CMD -/
  , ⟨0x104, 0, 1, 0x0, 0x0, 0x0, 0x0, 0x0, 0xFFF8, 0x0, []⟩ /- CFG_STAT -/
  , ⟨0x108, 0, 1, 0x0, 0xFFFFFFFF, 0x0, 0x0, 0x0, 0x0, 0x0, []⟩ /- CFG_SRC_LO -/
  , ⟨0x10C, 0, 1, 0x0, 0xFFFFFFFF, 0x0, 0x0, 0x0, 0x0, 0x0, []⟩ /- CFG_SRC_HI -/
  , ⟨0x110, 0, 1, 0x0, 0xFFFFFF, 0x0, 0x0, 0x0, 0xFF000000, 0x0, [⟨0, 24, 8192, 15728640⟩]⟩ /- CFG_LEN -/
  , ⟨0x114, 0, 1, 0x0, 0x0, 0x0, 0x0, 0x0, 0x0, 0x0, []⟩ /- CFG_SEQ_A -/
  , ⟨0x118, 0, 1, 0x0, 0x0, 0x0, 0x0, 0x0, 0x0, 0x0, []⟩ /- CFG_SEQ_B -/
  , ⟨0x11C, 0, 1, 0x0, 0xFFFFFFFF, 0x0, 0x0, 0x0, 0x0, 0x0, []⟩ /- CFG_CAL_SEL -/
  , ⟨0x120, 0, 1, 0x0, 0x0, 0x0, 0x0, 0x0, 0x0, 0x0, []⟩ /- CFG_CAL_FAC -/
  , ⟨0x124, 0, 1, 0x0, 0x0, 0x0, 0x0, 0x0, 0x0, 0x0, []⟩ /- CFG_CAL_BND -/
  , ⟨0x128, 0, 1, 0x0, 0x0, 0x0, 0x0, 0x0, 0x0, 0x0, []⟩ /- CFG_CAL_USE -/ ]

/-- Registers of the BOOT page from 0x100 upwards, as the owning chapter maps them (R459). -/
def regsBoot : List RegSpec :=
  [ ⟨0x100, 0, 1, 0x1, 0x0, 0x0, 0x0, 0x0, 0xFFC0, 0x0, []⟩ /- BOOT_STAT -/
  , ⟨0x104, 0, 1, 0x0, 0x0, 0x0, 0x0, 0x0, 0x0, 0x0, []⟩ /- BOOT_CODE -/
  , ⟨0x108, 0, 1, 0x0, 0x0, 0x0, 0x0, 0x0, 0x0, 0x0, []⟩ /- BOOT_SEQ -/
  , ⟨0x10C, 0, 1, 0x0, 0x0, 0x0, 0x0, 0x0, 0x7FFFC000, 0x0, []⟩ /- BOOT_VAL_IDX -/
  , ⟨0x110, 0, 1, 0x0, 0x0, 0x0, 0x0, 0x0, 0xFFFFF000, 0x0, []⟩ /- BOOT_DIES -/
  , ⟨0x114, 0, 1, 0x0, 0x0, 0x0, 0x0, 0x0, 0x0, 0x0, []⟩ /- BOOT_TIME -/
  , ⟨0x118, 0, 1, 0x0, 0x0, 0x0, 0x1, 0x2, 0xFFFFFFFC, 0x0, []⟩ /- BOOT_CTRL -/ ]

/-- Registers of the MGMT page from 0x100 upwards, as the owning chapter maps them (R516). -/
def regsMgmt : List RegSpec :=
  [ ⟨0x100, 0, 1, 0x1, 0x3, 0x0, 0x0, 0x0, 0xFFFFFFFC, 0x0, []⟩ /- MGMT_CFG -/
  , ⟨0x104, 0, 1, 0x0, 0x0, 0x0, 0x0, 0x0, 0xFFFFFF80, 0x0, []⟩ /- MGMT_ADDR -/
  , ⟨0x108, 0, 1, 0x0, 0x0, 0x0, 0x0, 0x0, 0x7FFE0000, 0x0, []⟩ /- MGMT_LAST -/
  , ⟨0x10C, 0, 1, 0x1F, 0x1F, 0x0, 0x0, 0x0, 0xFFFFFFE0, 0x0, []⟩ /- MGMT_ALERT_SEL -/
  , ⟨0x110, 0, 1, 0x0, 0x0, 0xF, 0x0, 0x0, 0xFFFFFFF0, 0x0, []⟩ /- MGMT_VR -/ ]

/-- Registers of the TRAY page from 0x100 upwards, as the owning chapter maps them (R482). -/
def regsTray : List RegSpec :=
  [ ⟨0x100, 0, 1, 0x0, 0x0, 0x0, 0x0, 0x0, 0xFFFFFFFC, 0x0, []⟩ /- TRAY_IN -/
  , ⟨0x104, 0, 1, 0x0, 0x0, 0x0, 0x0, 0x0, 0xFFFFFFFC, 0x0, []⟩ /- TRAY_STOP -/
  , ⟨0x108, 0, 1, 0x0, 0x0, 0x0, 0x0, 0x1, 0xFFFFFFFE, 0x0, []⟩ /- TRAY_CTRL -/
  , ⟨0x10C, 0, 1, 0x0, 0x0, 0x0, 0x0, 0x0, 0x7FFFFFC0, 0x0, []⟩ /- TRAY_TRIP -/ ]

/-- Registers of the PCAP page from 0x100 upwards, as the owning chapter maps them (R480). -/
def regsPcap : List RegSpec :=
  [ ⟨0x100, 0, 1, 0x0, 0xFFF, 0x0, 0x0, 0x0, 0xFFFFF000, 0x0, [⟨0, 12, 1200, 3200⟩]⟩ /- PCAP_CAP -/
  , ⟨0x104, 0, 1, 0x100A00A, 0x7FFFFFF, 0x0, 0x0, 0x0, 0xF8000000, 0x0, [⟨0, 10, 5, 1000⟩, ⟨10, 10, 10, 500⟩, ⟨20, 7, 1, 64⟩]⟩ /- PCAP_CTL -/
  , ⟨0x108, 0, 1, 0x0, 0xFFFFFF, 0x0, 0x0, 0x0, 0xFF000000, 0x0, []⟩ /- PCAP_LTR -/
  , ⟨0x10C, 0, 1, 0x64, 0xFFFF, 0x0, 0x0, 0x0, 0xFFFF0000, 0x0, [⟨0, 16, 10, 65535⟩]⟩ /- PCAP_IDLE -/
  , ⟨0x110, 0, 1, 0x200, 0x0, 0x0, 0x0, 0x0, 0xFFFFE000, 0x0, []⟩ /- PCAP_STATE -/
  , ⟨0x114, 0, 1, 0x0, 0x0, 0x0, 0x0, 0x0, 0xFFFF0000, 0x0, []⟩ /- PCAP_POWER -/
  , ⟨0x118, 0, 1, 0x5F69, 0xFFFF, 0x0, 0x0, 0x0, 0xFFFF0000, 0xFFFF, [⟨0, 8, 85, 110⟩, ⟨8, 8, 80, 95⟩]⟩ /- PCAP_THERM -/ ]

/-- Registers of the SSVC page from 0x100 upwards, as the owning chapter maps them (R497). -/
def regsSsvc : List RegSpec :=
  [ ⟨0x100, 0, 1, 0x0, 0x0, 0x0, 0x0, 0xF, 0xFFFFFFF0, 0x0, []⟩ /- CS_CMD -/
  , ⟨0x104, 0, 1, 0x0, 0x0, 0x0, 0x0, 0x0, 0xFFFE, 0x0, []⟩ /- CS_STAT -/
  , ⟨0x108, 0, 1, 0x0, 0x0, 0x0, 0x0, 0x0, 0xFFFFFF00, 0x0, []⟩ /- CS_SRC -/
  , ⟨0x10C, 0, 1, 0x0, 0x0, 0x0, 0x0, 0x1, 0xFFFFFFFE, 0x0, []⟩ /- RMA_CMD -/
  , ⟨0x110, 0, 1, 0x0, 0x0, 0x0, 0x0, 0x0, 0xFFFFFFFC, 0x0, []⟩ /- RMA_STAT -/ ]

/-- Registers of the QUEUE page from 0x100 upwards, as the owning chapter maps them (R437). -/
def regsQueue : List RegSpec :=
  [ ⟨0x100, 0, 1, 0x0, 0x7FFFFF00, 0x0, 0x0, 0x0, 0x800000F0, 0x0, [⟨8, 17, 16, 65536⟩]⟩ /- Q_CFG -/
  , ⟨0x104, 0, 1, 0x0, 0x11, 0x0, 0x0, 0xE, 0xFFFFFFE0, 0x0, []⟩ /- Q_CTRL -/
  , ⟨0x108, 0, 1, 0x0, 0xFFFFFFFF, 0x0, 0x0, 0x0, 0x0, 0x0, []⟩ /- Q_BASE_LO -/
  , ⟨0x10C, 0, 1, 0x0, 0xFFFFFFFF, 0x0, 0x0, 0x0, 0x0, 0x0, []⟩ /- Q_BASE_HI -/
  , ⟨0x110, 0, 1, 0x0, 0xFFFFFFFF, 0x0, 0x0, 0x0, 0x0, 0x0, []⟩ /- Q_SHADOW_LO -/
  , ⟨0x114, 0, 1, 0x0, 0xFFFFFFFF, 0x0, 0x0, 0x0, 0x0, 0x0, []⟩ /- Q_SHADOW_HI -/
  , ⟨0x118, 0, 1, 0x0, 0xFFFFFFFF, 0x0, 0x0, 0x0, 0x0, 0x0, []⟩ /- Q_DBASE_LO -/
  , ⟨0x11C, 0, 1, 0x0, 0xFFFFFFFF, 0x0, 0x0, 0x0, 0x0, 0x0, []⟩ /- Q_DBASE_HI -/
  , ⟨0x120, 0, 1, 0x0, 0xFFFFFFFF, 0x0, 0x0, 0x0, 0x0, 0x0, []⟩ /- Q_PROD_LO -/
  , ⟨0x124, 0, 1, 0x0, 0xFFFFFFFF, 0x0, 0x0, 0x0, 0x0, 0x0, []⟩ /- Q_PROD_HI -/
  , ⟨0x128, 0, 1, 0x0, 0xFFFFFFFF, 0x0, 0x0, 0x0, 0x0, 0x0, []⟩ /- Q_RD_LO -/
  , ⟨0x12C, 0, 1, 0x0, 0xFFFFFFFF, 0x0, 0x0, 0x0, 0x0, 0x0, []⟩ /- Q_RD_HI -/
  , ⟨0x130, 0, 1, 0x0, 0xFFFFFFFF, 0x0, 0x0, 0x0, 0x0, 0x0, []⟩ /- Q_MARK_LO -/
  , ⟨0x134, 0, 1, 0x0, 0xFFFFFFFF, 0x0, 0x0, 0x0, 0x0, 0x0, []⟩ /- Q_MARK_HI -/
  , ⟨0x138, 0, 1, 0x0, 0xFFFFFFFF, 0x0, 0x0, 0x0, 0x0, 0x0, []⟩ /- Q_REL_LO -/
  , ⟨0x13C, 0, 1, 0x0, 0xFFFFFFFF, 0x0, 0x0, 0x0, 0x0, 0x0, []⟩ /- Q_REL_HI -/
  , ⟨0x140, 0, 1, 0x0, 0x0, 0x1, 0x0, 0x0, 0x0, 0x0, []⟩ /- Q_STAT -/
  , ⟨0x144, 0, 1, 0x40, 0xFFFFFFFF, 0x0, 0x0, 0x0, 0x0, 0x0, [⟨6, 16, 1, 65535⟩]⟩ /- Q_IRQ -/
  , ⟨0x148, 0, 1, 0x0, 0x0, 0x0, 0x0, 0xFFFF, 0xFFFF0000, 0x0, []⟩ /- Q_DOORBELL -/
  , ⟨0x150, 4, 4, 0x0, 0x0, 0x0, 0x0, 0x0, 0x0, 0x0, []⟩ /- Q_POP -/ ]

/-- The block registers of a page kind. -/
def blockRegs : PageKind → List RegSpec
  | .topo => regsTopo
  | .pkg => regsPkg
  | .dir => regsDir
  | .time => regsTime
  | .tick => regsTick
  | .disp => regsDisp
  | .cc => regsCc
  | .watch => regsWatch
  | .upd => regsUpd
  | .ce => regsCe
  | .jrnl => regsJrnl
  | .integ => regsInteg
  | .pwr => regsPwr
  | .svc => regsSvc
  | .mx => regsMx
  | .vx => regsVx
  | .re => regsRe
  | .shelf => regsShelf
  | .sr => regsSr
  | .loft => regsLoft
  | .trunk => regsTrunk
  | .sc => regsSc
  | .mv => regsMv
  | .lp => regsLp
  | .sw => regsSw
  | .ht => regsHt
  | .hts => regsHts
  | .host => regsHost
  | .sec => regsSec
  | .cfg => regsCfg
  | .boot => regsBoot
  | .mgmt => regsMgmt
  | .tray => regsTray
  | .pcap => regsPcap
  | .ssvc => regsSsvc
  | .queue => regsQueue

/-- The pages of a die's register space: page number, kind and instance, in ascending order (R48). The instance of a link
page is added to the die's LP_BASE. -/
def diePages : List (Nat × PageKind × Nat) :=
  [ (0x00, .dir, 0), (0x01, .topo, 0), (0x02, .time, 0), (0x03, .tick, 0), (0x04, .disp, 0), (0x05, .cc, 0)
  , (0x06, .watch, 0), (0x07, .upd, 0), (0x08, .ce, 0), (0x09, .jrnl, 0), (0x0A, .integ, 0), (0x0B, .pwr, 0)
  , (0x0C, .svc, 0) ] ++
  [ (0x10, .mx, 0), (0x11, .mx, 1), (0x12, .mx, 2), (0x13, .mx, 3), (0x14, .mx, 4), (0x15, .mx, 5), (0x16, .mx, 6)
  , (0x18, .vx, 0), (0x19, .vx, 1), (0x1A, .re, 0), (0x1B, .shelf, 0), (0x20, .sr, 0), (0x21, .loft, 0)
  , (0x22, .trunk, 0), (0x24, .sc, 0), (0x25, .sc, 1), (0x26, .sc, 2) ] ++
  [ (0x30, .mv, 0), (0x31, .mv, 1), (0x32, .mv, 2), (0x33, .mv, 3), (0x34, .mv, 4), (0x35, .mv, 5), (0x36, .mv, 6)
  , (0x37, .mv, 7), (0x38, .mv, 8), (0x39, .mv, 9), (0x3A, .mv, 10), (0x3B, .mv, 11), (0x3C, .mv, 12)
  , (0x3D, .mv, 13), (0x3E, .mv, 14), (0x3F, .mv, 15) ] ++
  [ (0x40, .lp, 0), (0x41, .lp, 1), (0x42, .lp, 2), (0x43, .lp, 3), (0x48, .sw, 0), (0x49, .sw, 1), (0x4A, .ht, 0) ]

/-- The pages of the steward's register space (R49). -/
def stewardPages : List (Nat × PageKind × Nat) :=
  [ (0x00, .dir, 0), (0x01, .pkg, 0), (0x02, .time, 0), (0x03, .host, 0), (0x04, .sec, 0), (0x05, .cfg, 0)
  , (0x06, .boot, 0), (0x07, .mgmt, 0), (0x08, .tray, 0), (0x09, .pcap, 0), (0x0A, .ssvc, 0), (0x0C, .hts, 0)
  , (0x0D, .hts, 1), (0x0E, .hts, 2), (0x0F, .hts, 3) ] ++
  (List.range 32).map fun q => (0x20 + q, .queue, q)

/-- The pages of a home: die 0 to 3, or 4 for the steward; no other home has any. -/
def pagesOf (home : Nat) : List (Nat × PageKind × Nat) :=
  if home < 4 then diePages else if home = 4 then stewardPages else []

/-- The home that a register key belongs to. -/
def homeOf (a : Nat) : Nat := a / 0x1000000

/-- The key of the first byte of the page that holds `a`. -/
def pageBase (a : Nat) : Nat := a / 0x1000 * 0x1000

/-- Kind and instance of the page that holds key `a`, when the page index lists one. -/
def pageAt (a : Nat) : Option (PageKind × Nat) :=
  ((pagesOf (homeOf a)).find? fun e => e.1 = a % 0x1000000 / 0x1000).map (·.2)

/-- The header's register at an offset below 0x100 (R36, R37). CTRL bit 8 of an MX page is ALLOW_GAP (R172). -/
def headerSpec (k : PageKind) (off : Nat) : Option RegSpec :=
  let evs := 2 ^ k.caps.2.1 - 1 + 0xC0000000
  let rs := 0xFFFFFFFF
  match off with
  | 0x000 => some ⟨off, 0, 1, 0, 0, 0, 0, 0, 0xFFE00000, 0, []⟩
  | 0x004 => some ⟨off, 0, 1, 0x100, 0, 0, 0, 0, 0xFFFF0000, 0, []⟩
  | 0x008 => some ⟨off, 0, 1, 0, 0, 0, 0, 0, 0xC000, 0, []⟩
  | 0x00C => if k = .mx then some ⟨off, 0, 1, 0, 0x103, 0, 0, 0x4, 0xFFFFFEF8, 0, []⟩
             else some ⟨off, 0, 1, 0, 0x3, 0, 0, 0x4, 0xFFFFFFF8, 0, []⟩
  | 0x010 => some ⟨off, 0, 1, 0, 0, 0, 0, 0, 0xFFFFFFF0, 0, []⟩
  | 0x014 => some ⟨off, 0, 1, 0, 0, 0x80000000, 0, 0, 0x20000000, 0, []⟩
  | 0x018 => some ⟨off, 0, 1, 0, 0, evs, 0, 0, rs - evs, 0, []⟩
  | 0x01C => some ⟨off, 0, 1, 0, evs, 0, 0, 0, rs - evs, 0, []⟩
  | 0x020 => some ⟨off, 0, 1, 0, 0, 0, 0, evs, rs - evs, 0, []⟩
  | 0x024 => some ⟨off, 0, 1, 0, 0x1, 0, 0, 0, 0xFFFFFFF8, 0, []⟩
  | 0x028 => some ⟨off, 0, 1, 0, 0x1FF, 0, 0, 0, 0xFFFFFE00, 0, []⟩
  | 0x02C => some ⟨off, 0, 1, 0, 0, 0, 0, 0, 0, 0, []⟩
  | 0x030 => some ⟨off, 0, 1, 0, 0, 0, 0, 0x80000000, 0x3FFF0000, 0, []⟩
  | _ => none

/-- An offset at which no register is defined: a register whose fields are all reserved (R42). -/
def undefinedSpec (off : Nat) : RegSpec := ⟨off, 0, 1, 0, 0, 0, 0, 0, 0xFFFFFFFF, 0, []⟩

/-- Whether `off` is one of the registers of `r`. -/
def RegSpec.covers (r : RegSpec) (off : Nat) : Bool :=
  if r.stride = 0 then off = r.off
  else decide (r.off ≤ off) && (off - r.off) % r.stride == 0 && decide ((off - r.off) / r.stride < r.count)

/-- The register at offset `off` of a page of kind `k`. QUEUE16 to QUEUE31 have no block registers but Q_CFG, which reads 0
(R418). DIR_ENTRY registers are read only (R50). -/
def specAt (k : PageKind) (inst off : Nat) : RegSpec :=
  if off < 0x100 then (headerSpec k off).getD (undefinedSpec off)
  else if k = .queue && decide (16 ≤ inst) then undefinedSpec off
  else ((blockRegs k).find? fun r => r.covers off).getD (undefinedSpec off)

/-- A link page of a die addresses the die's one set of registers from 0x200 upwards: its first page holds it (R317). -/
def canon (a : Nat) : Nat :=
  match pageAt a with
  | some (.lp, k) => if 0x200 ≤ a % 0x1000 then a - k * 0x1000 else a
  | _ => a

/-- The value a register holds at power-on and after a cold die reset (R10). MX_ROLE differs by array (R171), MX_STATE is
computed from the array number (R172), and Q_CFG.KIND is fixed by the queue (R418). -/
def regReset (a : Nat) : W :=
  match pageAt a with
  | none => 0
  | some (k, i) =>
    let off := a % 0x1000
    let v := (specAt k i off).reset
    BitVec.ofNat 32 <|
      match k with
      | .mx => if off = 0x104 && decide (2 ≤ i) && decide (i ≤ 5) then 0x77
               else if off = 0x100 then (if i = 6 then 0x771 else 0x700 + 0x10 * i) else v
      | .queue =>
        if off = 0x100 && decide (i < 16) then
          0x1000 + (if i = 0 then 1 else if i = 1 then 2 else if i = 2 then 3 else if i = 3 then 4 else if i < 8 then 5 else 6)
        else v
      | .pcap => if off = 0x100 then 0xC80 else v
      | _ => v

/-! ### Page offsets inside a register space (R48, R49) -/
/-- R48. -/ def pgDIR (d : DieId) : Nat := d.val * 0x1000000 + 0x0
/-- R48. -/ def pgTOPO (d : DieId) : Nat := d.val * 0x1000000 + 0x1000
/-- R48. -/ def pgTIME (d : DieId) : Nat := d.val * 0x1000000 + 0x2000
/-- R48. -/ def pgTICK (d : DieId) : Nat := d.val * 0x1000000 + 0x3000
/-- R48. -/ def pgDISP (d : DieId) : Nat := d.val * 0x1000000 + 0x4000
/-- R48. -/ def pgCC (d : DieId) : Nat := d.val * 0x1000000 + 0x5000
/-- R48. -/ def pgWATCH (d : DieId) : Nat := d.val * 0x1000000 + 0x6000
/-- R48. -/ def pgUPD (d : DieId) : Nat := d.val * 0x1000000 + 0x7000
/-- R48. -/ def pgCE (d : DieId) : Nat := d.val * 0x1000000 + 0x8000
/-- R48. -/ def pgJRNL (d : DieId) : Nat := d.val * 0x1000000 + 0x9000
/-- R48. -/ def pgINTEG (d : DieId) : Nat := d.val * 0x1000000 + 0xA000
/-- R48. -/ def pgPWR (d : DieId) : Nat := d.val * 0x1000000 + 0xB000
/-- R48. -/ def pgSVC (d : DieId) : Nat := d.val * 0x1000000 + 0xC000
/-- R48. -/ def pgMX (d : DieId) : Nat := d.val * 0x1000000 + 0x10000
/-- R48. -/ def pgVX (d : DieId) : Nat := d.val * 0x1000000 + 0x18000
/-- R48. -/ def pgRE (d : DieId) : Nat := d.val * 0x1000000 + 0x1A000
/-- R48. -/ def pgSHELF (d : DieId) : Nat := d.val * 0x1000000 + 0x1B000
/-- R48. -/ def pgSR (d : DieId) : Nat := d.val * 0x1000000 + 0x20000
/-- R48. -/ def pgLOFT (d : DieId) : Nat := d.val * 0x1000000 + 0x21000
/-- R48. -/ def pgTRUNK (d : DieId) : Nat := d.val * 0x1000000 + 0x22000
/-- R48. -/ def pgSC (d : DieId) : Nat := d.val * 0x1000000 + 0x24000
/-- R48. -/ def pgMV (d : DieId) : Nat := d.val * 0x1000000 + 0x30000
/-- R48. -/ def pgLP (d : DieId) : Nat := d.val * 0x1000000 + 0x40000
/-- R48. -/ def pgSW (d : DieId) : Nat := d.val * 0x1000000 + 0x48000
/-- R48. -/ def pgHT (d : DieId) : Nat := d.val * 0x1000000 + 0x4A000
/-- R49. -/ def pgSDIR : Nat := 0x4000000
/-- R49. -/ def pgPKG : Nat := 0x4001000
/-- R49. -/ def pgSTIME : Nat := 0x4002000
/-- R49. -/ def pgHOST : Nat := 0x4003000
/-- R49. -/ def pgSEC : Nat := 0x4004000
/-- R49. -/ def pgCFG : Nat := 0x4005000
/-- R49. -/ def pgBOOT : Nat := 0x4006000
/-- R49. -/ def pgMGMT : Nat := 0x4007000
/-- R49. -/ def pgTRAY : Nat := 0x4008000
/-- R49. -/ def pgPCAP : Nat := 0x4009000
/-- R49. -/ def pgSSVC : Nat := 0x400A000
/-- R49. -/ def pgHTS : Nat := 0x400C000
/-- R49. -/ def pgQUEUE : Nat := 0x4020000

/-! ### Header registers and fields (R36, R37) -/
/-- R37. -/ def CTRL_FREEZE : Fld := ⟨0xC, 0, 1⟩
/-- R37. -/ def CTRL_SNAP : Fld := ⟨0xC, 1, 1⟩
/-- R37. -/ def CTRL_ALLOW_GAP : Fld := ⟨0xC, 8, 1⟩
/-- R37. -/ def STAT_READY : Fld := ⟨0x10, 0, 1⟩
/-- R37. -/ def LAST_ERR_CODE : Fld := ⟨0x14, 0, 16⟩
/-- R37. -/ def LAST_ERR_V : Fld := ⟨0x14, 0, 32⟩
/-- R37. -/ def LAST_ERR_VALID : Fld := ⟨0x14, 31, 1⟩
/-- R37. -/ def EVT_STAT_V : Fld := ⟨0x18, 0, 32⟩
/-- R37. -/ def EVT_EN_V : Fld := ⟨0x1C, 0, 32⟩
/-- R37. -/ def FENCE_REQ : Fld := ⟨0x24, 0, 1⟩
/-- R37. -/ def FENCE_FENCED : Fld := ⟨0x24, 1, 1⟩
/-- R37. -/ def FENCE_DRAINING : Fld := ⟨0x24, 2, 1⟩

/-! ### TOPO page (chapter 01) -/
/-- R29. -/ def TOPO_ID_POS : Fld := ⟨0x100, 0, 2⟩
/-- R29. -/ def TOPO_ID_ROT : Fld := ⟨0x100, 2, 2⟩
/-- R29. -/ def TOPO_ID_LINK_SIDE : Fld := ⟨0x100, 4, 2⟩
/-- R29. -/ def TOPO_ID_STACK_SIDE : Fld := ⟨0x100, 6, 2⟩
/-- R29. -/ def TOPO_ID_LP_BASE : Fld := ⟨0x100, 8, 4⟩
/-- R29. -/ def TOPO_ID_CW_DIE : Fld := ⟨0x100, 12, 2⟩
/-- R29. -/ def TOPO_ID_CCW_DIE : Fld := ⟨0x100, 14, 2⟩
/-- R29. -/ def TOPO_ID_DIAG_DIE : Fld := ⟨0x100, 16, 2⟩
/-- R29. -/ def TOPO_STRAP_SAMPLE0 : Fld := ⟨0x104, 0, 2⟩
/-- R29. -/ def TOPO_STRAP_SAMPLE1 : Fld := ⟨0x104, 2, 2⟩
/-- R29. -/ def TOPO_STRAP_SAMPLE2 : Fld := ⟨0x104, 4, 2⟩
/-- R29. -/ def TOPO_STRAP_STABLE : Fld := ⟨0x104, 6, 1⟩
/-- R29. -/ def TOPO_ROUTE_DIAG_VIA : Fld := ⟨0x108, 0, 1⟩
/-- R29. -/ def TOPO_ROUTE_DIAG_AUTO : Fld := ⟨0x108, 1, 1⟩
/-- R29. -/ def TOPO_ROUTE_DIAG_ACTIVE : Fld := ⟨0x108, 2, 1⟩
/-- R29. -/ def TOPO_DIES_REACH : Fld := ⟨0x10C, 0, 4⟩
/-- R29. -/ def TOPO_DIES_LOST : Fld := ⟨0x10C, 4, 4⟩
/-! ### PKG page (chapter 01) -/
/-- R34. -/ def PKG_STRAPS_HT_POS : Fld := ⟨0x100, 0, 8⟩
/-- R34. -/ def PKG_STRAPS_HT_VALID : Fld := ⟨0x100, 8, 4⟩
/-- R34. -/ def PKG_STRAPS_POS_FAULT : Fld := ⟨0x100, 12, 1⟩
/-- R34. -/ def PKG_RELEASE_RELEASED : Fld := ⟨0x104, 0, 4⟩
/-- R34. -/ def PKG_RELEASE_ABSENT : Fld := ⟨0x104, 4, 4⟩
/-! ### TIME page (chapter 02) -/
/-- R57. -/ def TS_LO_V : Fld := ⟨0x100, 0, 32⟩
/-- R57. -/ def TS_HI_V : Fld := ⟨0x104, 0, 32⟩
/-- R57. -/ def TS_STAT_SYNCED : Fld := ⟨0x108, 0, 1⟩
/-! ### TICK page (chapter 03) -/
/-- R90. -/ def TICK_CTRL_EN : Fld := ⟨0x100, 0, 1⟩
/-- R90. -/ def TICK_CTRL_RUN : Fld := ⟨0x100, 1, 1⟩
/-- R90. -/ def TICK_CTRL_RESUME : Fld := ⟨0x100, 2, 1⟩
/-- R90. -/ def TICK_CTRL_STOP : Fld := ⟨0x100, 3, 1⟩
/-- R90. -/ def TICK_CTRL_STOP_PENDING : Fld := ⟨0x100, 4, 1⟩
/-- R90. -/ def TICK_CFG_IS_MASTER : Fld := ⟨0x104, 0, 1⟩
/-- R90. -/ def TICK_CFG_TICK_DIE : Fld := ⟨0x104, 1, 2⟩
/-- R90. -/ def TICK_CFG_PIN_MODE : Fld := ⟨0x104, 3, 1⟩
/-- R90. -/ def TICK_CFG_TICK_OUT_EN : Fld := ⟨0x104, 4, 1⟩
/-- R90. -/ def TICK_CFG_WDOG_MULT : Fld := ⟨0x104, 8, 10⟩
/-- R90. -/ def TICK_CFG_RETRY_MAX : Fld := ⟨0x104, 18, 4⟩
/-- R90. -/ def TICK_PARENT_MASTER_ID : Fld := ⟨0x108, 0, 12⟩
/-- R90. -/ def TICK_PARENT_PARENT_PORT : Fld := ⟨0x108, 16, 4⟩
/-- R90. -/ def TICK_CHILDREN_CHILD_PORTS : Fld := ⟨0x10C, 0, 16⟩
/-- R90. -/ def TICK_MIN_PERIOD_V : Fld := ⟨0x110, 0, 32⟩
/-- R90. -/ def TICK_DEADLINE_V : Fld := ⟨0x114, 0, 32⟩
/-- R90. -/ def TICK_LEAD_V : Fld := ⟨0x118, 0, 16⟩
/-- R90. -/ def TICK_RAMP_V : Fld := ⟨0x11C, 0, 16⟩
/-- R90. -/ def TICK_LAG_THRESH_V : Fld := ⟨0x120, 0, 16⟩
/-- R90. -/ def TICK_NUM_LO_V : Fld := ⟨0x128, 0, 32⟩
/-- R90. -/ def TICK_NUM_HI_V : Fld := ⟨0x12C, 0, 32⟩
/-- R90. -/ def TICK_STEP_LO_V : Fld := ⟨0x130, 0, 32⟩
/-- R90. -/ def TICK_STEP_HI_V : Fld := ⟨0x134, 0, 32⟩
/-- R90. -/ def TICK_LAST_FRAME : Fld := ⟨0x138, 0, 12⟩
/-- R90. -/ def TICK_LAST_TYPE : Fld := ⟨0x138, 12, 3⟩
/-- R90. -/ def TICK_LAST_FLAGS : Fld := ⟨0x138, 15, 6⟩
/-- R90. -/ def TICK_LAGGARD_LAGGARD : Fld := ⟨0x13C, 0, 12⟩
/-- R90. -/ def TICK_LAGGARD_SELF : Fld := ⟨0x13C, 12, 1⟩
/-- R90. -/ def TICK_LAGGARD_NONE : Fld := ⟨0x13C, 13, 1⟩
/-- R90. -/ def TICK_LAGGARD_RUN : Fld := ⟨0x13C, 16, 16⟩
/-- R90. -/ def TICK_STATE_MSTATE : Fld := ⟨0x140, 0, 2⟩
/-- R90. -/ def TICK_STATE_HOLD_CAUSE : Fld := ⟨0x140, 2, 4⟩
/-- R90. -/ def TICK_STATE_ABANDONS : Fld := ⟨0x140, 6, 4⟩
/-- R90. -/ def TICK_STATE_AWAIT : Fld := ⟨0x140, 10, 1⟩
/-- R90. -/ def TICK_SLACK_V : Fld := ⟨0x144, 0, 32⟩
/-- R90. -/ def TICK_ACC_ACC : Fld := ⟨0x148, 0, 16⟩
/-- R90. -/ def TICK_ACC_LATE : Fld := ⟨0x148, 16, 1⟩
/-- R90. -/ def TICK_SET_COUNT_V : Fld := ⟨0x14C, 0, 13⟩
/-- R90. -/ def PH_SEL_INDEX : Fld := ⟨0x150, 0, 4⟩
/-- R90. -/ def PH_SEL_SET : Fld := ⟨0x150, 8, 1⟩
/-- R90. -/ def PH_LO_V : Fld := ⟨0x154, 0, 32⟩
/-- R90. -/ def PH_HI_V : Fld := ⟨0x158, 0, 32⟩
/-- R90. -/ def TICK_SET_V : Fld := ⟨0x200, 0, 32⟩
/-! ### DISP page (chapter 04) -/
/-- R120. -/ def DISP_VER_MINOR_MAX : Fld := ⟨0x100, 0, 8⟩
/-- R120. -/ def DISP_VER_MAJOR : Fld := ⟨0x100, 8, 8⟩
/-- R120. -/ def DISP_CMD_OP : Fld := ⟨0x104, 0, 3⟩
/-- R120. -/ def DISP_CMD_SLOT : Fld := ⟨0x104, 4, 1⟩
/-- R120. -/ def DISP_IMG_LO_V : Fld := ⟨0x108, 0, 32⟩
/-- R120. -/ def DISP_IMG_HI_V : Fld := ⟨0x10C, 0, 20⟩
/-- R120. -/ def DISP_IMG_LEN_V : Fld := ⟨0x110, 0, 15⟩
/-- R120. -/ def DISP_ACT_STEP_LO_V : Fld := ⟨0x118, 0, 32⟩
/-- R120. -/ def DISP_ACT_STEP_HI_V : Fld := ⟨0x11C, 0, 32⟩
/-- R120. -/ def DISP_SLOT_A_STATE : Fld := ⟨0x120, 0, 3⟩
/-- R120. -/ def DISP_SLOT_A_MINOR : Fld := ⟨0x120, 8, 8⟩
/-- R120. -/ def DISP_SLOT_A_MAJOR : Fld := ⟨0x120, 16, 8⟩
/-- R120. -/ def DISP_SLOT_B_STATE : Fld := ⟨0x124, 0, 3⟩
/-- R120. -/ def DISP_SLOT_B_MINOR : Fld := ⟨0x124, 8, 8⟩
/-- R120. -/ def DISP_SLOT_B_MAJOR : Fld := ⟨0x124, 16, 8⟩
/-- R120. -/ def DISP_SEQ_A_V : Fld := ⟨0x128, 0, 32⟩
/-- R120. -/ def DISP_SEQ_B_V : Fld := ⟨0x12C, 0, 32⟩
/-- R120. -/ def DISP_VAL_ERR_CODE : Fld := ⟨0x130, 0, 16⟩
/-- R120. -/ def DISP_VAL_ERR_SECTION : Fld := ⟨0x130, 16, 3⟩
/-- R120. -/ def DISP_VAL_ERR_SLOT : Fld := ⟨0x130, 19, 1⟩
/-- R120. -/ def DISP_VAL_IDX_V : Fld := ⟨0x134, 0, 23⟩
/-- R120. -/ def DISP_ACTIVE_SLOT : Fld := ⟨0x138, 0, 1⟩
/-- R120. -/ def DISP_ACTIVE_VALID : Fld := ⟨0x138, 1, 1⟩
/-- R120. -/ def DISP_ACTIVE_MISMATCH : Fld := ⟨0x138, 2, 1⟩
/-- R120. -/ def DISP_ACT_AT_LO_V : Fld := ⟨0x140, 0, 32⟩
/-- R120. -/ def DISP_ACT_AT_HI_V : Fld := ⟨0x144, 0, 32⟩
/-- R120. -/ def DISP_FRAME_FRAME : Fld := ⟨0x148, 0, 12⟩
/-- R120. -/ def DISP_FRAME_CATCHUP : Fld := ⟨0x148, 12, 1⟩
/-- R120. -/ def DISP_FRAME_FAILED : Fld := ⟨0x148, 13, 1⟩
/-- R120. -/ def DISP_PENDING_V : Fld := ⟨0x14C, 0, 19⟩
/-- R120. -/ def DISP_HEAD_SEL_V : Fld := ⟨0x150, 0, 5⟩
/-- R120. -/ def DISP_HEAD_TASK : Fld := ⟨0x154, 0, 18⟩
/-- R120. -/ def DISP_HEAD_NONE : Fld := ⟨0x154, 18, 1⟩
/-- R120. -/ def DISP_HEAD_READY : Fld := ⟨0x154, 19, 1⟩
/-- R120. -/ def DISP_FAULT_TASK : Fld := ⟨0x158, 0, 18⟩
/-- R120. -/ def DISP_FAULT_UNIT : Fld := ⟨0x158, 18, 5⟩
/-- R120. -/ def DISP_FAULT_VALID : Fld := ⟨0x158, 23, 1⟩
/-- R120. -/ def DISP_FAULT_CODE_V : Fld := ⟨0x15C, 0, 16⟩
/-- R120. -/ def DISP_DIGEST_V : Fld := ⟨0x160, 0, 32⟩
/-! ### CC page (chapter 04) -/
/-- R122. -/ def SCAL_LO_V : Fld := ⟨0x200, 0, 32⟩
/-- R122. -/ def SCAL_HI_V : Fld := ⟨0x204, 0, 32⟩
/-- R122. -/ def SBANK_LO_V : Fld := ⟨0x400, 0, 32⟩
/-- R122. -/ def SBANK_HI_V : Fld := ⟨0x404, 0, 32⟩
/-! ### WATCH page (chapter 09) -/
/-- R263. -/ def WATCH_CFG_COUNT : Fld := ⟨0x100, 0, 13⟩
/-- R263. -/ def WATCH_CFG_SHADOW_SHIFT : Fld := ⟨0x100, 16, 4⟩
/-- R263. -/ def WATCH_CFG_SHADOW_EN : Fld := ⟨0x100, 20, 1⟩
/-- R263. -/ def WATCH_DORM_DORM_STEPS : Fld := ⟨0x104, 0, 16⟩
/-- R263. -/ def WATCH_TOKENS_REG : Fld := ⟨0x108, 0, 6⟩
/-- R263. -/ def WATCH_TOKENS_VALID : Fld := ⟨0x108, 7, 1⟩
/-- R263. -/ def WATCH_LADDER_VALID : Fld := ⟨0x10C, 0, 1⟩
/-- R263. -/ def WATCH_LADDER_FORGET : Fld := ⟨0x10C, 1, 1⟩
/-- R263. -/ def WATCH_LADDER_SIDE_LAST : Fld := ⟨0x10C, 2, 1⟩
/-- R263. -/ def WATCH_LADDER_NO_SAMPLES : Fld := ⟨0x10C, 3, 1⟩
/-- R263. -/ def WATCH_DIGEST_LO_V : Fld := ⟨0x110, 0, 32⟩
/-- R263. -/ def WATCH_DIGEST_HI_V : Fld := ⟨0x114, 0, 32⟩
/-- R263. -/ def WATCH_SDIGEST_LO_V : Fld := ⟨0x118, 0, 32⟩
/-- R263. -/ def WATCH_SDIGEST_HI_V : Fld := ⟨0x11C, 0, 32⟩
/-- R263. -/ def WATCH_SEL_ENTRY : Fld := ⟨0x120, 0, 12⟩
/-- R263. -/ def WATCH_SEL_BANK : Fld := ⟨0x120, 12, 1⟩
/-- R263. -/ def WATCH_DECL0_FLOOR : Fld := ⟨0x124, 0, 2⟩
/-- R263. -/ def WATCH_DECL0_INIT : Fld := ⟨0x124, 2, 2⟩
/-- R263. -/ def WATCH_DECL0_CEIL : Fld := ⟨0x124, 4, 2⟩
/-- R263. -/ def WATCH_DECL0_Q8KIND : Fld := ⟨0x124, 6, 1⟩
/-- R263. -/ def WATCH_DECL0_DEMOTE : Fld := ⟨0x124, 7, 1⟩
/-- R263. -/ def WATCH_DECL0_NF_UP : Fld := ⟨0x124, 8, 1⟩
/-- R263. -/ def WATCH_DECL0_LADDER : Fld := ⟨0x124, 9, 1⟩
/-- R263. -/ def WATCH_DECL0_DORM_EN : Fld := ⟨0x124, 10, 1⟩
/-- R263. -/ def WATCH_DECL0_DIV_SH : Fld := ⟨0x124, 11, 5⟩
/-- R263. -/ def WATCH_DECL0_UP_PERSIST : Fld := ⟨0x124, 16, 16⟩
/-- R263. -/ def WATCH_DECL1_DN_PERSIST : Fld := ⟨0x128, 0, 16⟩
/-- R263. -/ def WATCH_DECL2_UP_DIV : Fld := ⟨0x12C, 0, 16⟩
/-- R263. -/ def WATCH_DECL2_DN_DIV : Fld := ⟨0x12C, 16, 16⟩
/-- R263. -/ def WATCH_DECL3_UP_SAT : Fld := ⟨0x130, 0, 16⟩
/-- R263. -/ def WATCH_DECL3_DN_SAT : Fld := ⟨0x130, 16, 16⟩
/-- R263. -/ def WATCH_DECL4_UP_ZERO : Fld := ⟨0x134, 0, 16⟩
/-- R263. -/ def WATCH_DECL4_DN_ZERO : Fld := ⟨0x134, 16, 16⟩
/-- R263. -/ def WATCH_ST0_RUNG : Fld := ⟨0x138, 0, 2⟩
/-- R263. -/ def WATCH_ST0_UP_RUN : Fld := ⟨0x138, 16, 16⟩
/-- R263. -/ def WATCH_ST1_DN_RUN : Fld := ⟨0x13C, 0, 16⟩
/-- R263. -/ def WATCH_ST1_DORM_RUN : Fld := ⟨0x13C, 16, 16⟩
/-- R263. -/ def WATCH_CNT_LO_V : Fld := ⟨0x140, 0, 32⟩
/-- R263. -/ def WATCH_CNT_HI_V : Fld := ⟨0x144, 0, 32⟩
/-- R263. -/ def WATCH_TOK_LO_V : Fld := ⟨0x178, 0, 32⟩
/-- R263. -/ def WATCH_TOK_HI_V : Fld := ⟨0x17C, 0, 32⟩
/-- R263. -/ def SENT_CFG_EN : Fld := ⟨0x180, 0, 1⟩
/-- R263. -/ def SENT_CFG_SCALAR : Fld := ⟨0x180, 1, 1⟩
/-- R263. -/ def SENT_CFG_MEAN : Fld := ⟨0x180, 2, 1⟩
/-- R263. -/ def SENT_CFG_TENSOR : Fld := ⟨0x180, 3, 1⟩
/-- R263. -/ def SENT_CFG_REG : Fld := ⟨0x180, 4, 6⟩
/-- R263. -/ def SENT_CFG_ENTRY : Fld := ⟨0x180, 12, 12⟩
/-- R263. -/ def SENT_CFG_ALPHA_SH : Fld := ⟨0x180, 24, 4⟩
/-- R263. -/ def SENT_K_K16 : Fld := ⟨0x184, 0, 16⟩
/-- R263. -/ def SENT_K_WARM : Fld := ⟨0x184, 16, 16⟩
/-- R263. -/ def SENT_MEAN_MU : Fld := ⟨0x188, 0, 32⟩
/-- R263. -/ def SENT_VAR_VAR : Fld := ⟨0x18C, 0, 32⟩
/-- R263. -/ def SENT_SEEN_SEEN : Fld := ⟨0x200, 0, 16⟩
/-- R263. -/ def SENT_SEEN_NF : Fld := ⟨0x200, 16, 1⟩
/-- R263. -/ def SENT_SEEN_SPIKE : Fld := ⟨0x200, 17, 1⟩
/-- R263. -/ def SENT_LAST_V : Fld := ⟨0x220, 0, 32⟩
/-- R263. -/ def WATCH_DORM_LAST_ENTRY : Fld := ⟨0x240, 0, 12⟩
/-- R263. -/ def WATCH_DORM_LAST_VALID : Fld := ⟨0x240, 31, 1⟩
/-! ### UPD page (chapter 10) -/
/-- R287. -/ def UPD_SEED_LO_V : Fld := ⟨0x100, 0, 32⟩
/-- R287. -/ def UPD_SEED_HI_V : Fld := ⟨0x104, 0, 32⟩
/-- R287. -/ def UPD_T0_LO_V : Fld := ⟨0x108, 0, 32⟩
/-- R287. -/ def UPD_T0_HI_V : Fld := ⟨0x10C, 0, 32⟩
/-- R287. -/ def UPD_VCTL_VALID : Fld := ⟨0x110, 0, 1⟩
/-- R287. -/ def UPD_VCTL_INIT : Fld := ⟨0x110, 1, 1⟩
/-- R287. -/ def UPD_VCTL_FORGET : Fld := ⟨0x110, 2, 1⟩
/-- R287. -/ def UPD_VCTL_ENTRIES : Fld := ⟨0x110, 4, 17⟩
/-- R287. -/ def UPD_VSEL_V : Fld := ⟨0x114, 0, 16⟩
/-- R287. -/ def UPD_VSTAT_CUR : Fld := ⟨0x118, 0, 1⟩
/-- R287. -/ def UPD_VSTAT_PENDING : Fld := ⟨0x118, 1, 1⟩
/-- R287. -/ def UPD_VSTAT_IS_WEIGHT : Fld := ⟨0x118, 2, 1⟩
/-- R287. -/ def UPD_VVER_LO_V : Fld := ⟨0x120, 0, 32⟩
/-- R287. -/ def UPD_VVER_HI_V : Fld := ⟨0x124, 0, 32⟩
/-- R287. -/ def UPD_LAST_VALID : Fld := ⟨0x128, 0, 1⟩
/-- R287. -/ def UPD_LAST_COMMIT : Fld := ⟨0x128, 1, 1⟩
/-- R287. -/ def UPD_COUNTS_FLIPPED : Fld := ⟨0x12C, 0, 17⟩
/-- R287. -/ def UPD_COUNTS_PENDING : Fld := ⟨0x12C, 17, 15⟩
/-! ### CE page (chapter 12) -/
/-- R348. -/ def CE_CFG_GSIZE : Fld := ⟨0x100, 0, 4⟩
/-- R348. -/ def CE_CFG_CHK_EN : Fld := ⟨0x100, 4, 1⟩
/-- R348. -/ def CE_CFG_CHK_SHIFT : Fld := ⟨0x100, 5, 5⟩
/-- R348. -/ def CE_CFG_CHK_TOL : Fld := ⟨0x100, 10, 5⟩
/-- R348. -/ def CE_GSELF_V : Fld := ⟨0x104, 0, 3⟩
/-- R348. -/ def CE_ACK_NS_V : Fld := ⟨0x108, 0, 24⟩
/-- R348. -/ def CE_GROUP_V : Fld := ⟨0x110, 0, 12⟩
/-- R348. -/ def CE_TPARENT_MEMBER : Fld := ⟨0x130, 0, 12⟩
/-- R348. -/ def CE_TPARENT_VALID : Fld := ⟨0x130, 31, 1⟩
/-- R348. -/ def CE_TCHILD_MEMBER : Fld := ⟨0x134, 0, 12⟩
/-- R348. -/ def CE_TCHILD_VALID : Fld := ⟨0x134, 31, 1⟩
/-- R348. -/ def CE_EPOCH_V : Fld := ⟨0x160, 0, 16⟩
/-- R348. -/ def CE_RESHARD_ARM : Fld := ⟨0x164, 0, 1⟩
/-- R348. -/ def CE_RESHARD_DISARM : Fld := ⟨0x164, 1, 1⟩
/-- R348. -/ def CE_RESHARD_ARMED : Fld := ⟨0x164, 2, 1⟩
/-- R348. -/ def CE_RESHARD_EPOCH : Fld := ⟨0x164, 16, 16⟩
/-- R348. -/ def CE_STATE_OUTSTANDING : Fld := ⟨0x168, 0, 1⟩
/-- R348. -/ def CE_STATE_LSTATE : Fld := ⟨0x168, 1, 2⟩
/-- R348. -/ def CE_STATE_EXCL_FRAME : Fld := ⟨0x168, 4, 12⟩
/-- R348. -/ def CE_STATE_E_COUNT : Fld := ⟨0x168, 16, 13⟩
/-- R348. -/ def CE_SIDE_HELD : Fld := ⟨0x16C, 0, 1⟩
/-- R348. -/ def CE_SIDE_MISMATCH : Fld := ⟨0x16C, 1, 1⟩
/-- R348. -/ def CE_FAULT_TASK : Fld := ⟨0x170, 0, 18⟩
/-- R348. -/ def CE_FAULT_VALID : Fld := ⟨0x170, 23, 1⟩
/-- R348. -/ def CE_FAULT_CODE_V : Fld := ⟨0x174, 0, 16⟩
/-- R348. -/ def CE_DIS_BUCKET : Fld := ⟨0x178, 0, 12⟩
/-- R348. -/ def CE_DIS_BLOCK : Fld := ⟨0x178, 12, 14⟩
/-- R348. -/ def CE_DIS_VALID : Fld := ⟨0x178, 31, 1⟩
/-- R348. -/ def CE_EXCL_V : Fld := ⟨0x200, 0, 32⟩
/-! ### JRNL page (chapter 13) -/
/-- R372. -/ def JRNL_CFG_EN : Fld := ⟨0x100, 0, 1⟩
/-- R372. -/ def JRNL_CFG_HOLD_FULL : Fld := ⟨0x100, 1, 1⟩
/-- R372. -/ def JRNL_RING_LO_V : Fld := ⟨0x104, 0, 32⟩
/-- R372. -/ def JRNL_RING_HI_V : Fld := ⟨0x108, 0, 20⟩
/-- R372. -/ def JRNL_RING_LEN_V : Fld := ⟨0x10C, 0, 24⟩
/-- R372. -/ def JRNL_WR_LO_V : Fld := ⟨0x110, 0, 32⟩
/-- R372. -/ def JRNL_WR_HI_V : Fld := ⟨0x114, 0, 32⟩
/-- R372. -/ def JRNL_REL_LO_V : Fld := ⟨0x118, 0, 32⟩
/-- R372. -/ def JRNL_REL_HI_V : Fld := ⟨0x11C, 0, 32⟩
/-- R372. -/ def JRNL_RPL_LO_V : Fld := ⟨0x120, 0, 32⟩
/-- R372. -/ def JRNL_RPL_HI_V : Fld := ⟨0x124, 0, 20⟩
/-- R372. -/ def JRNL_RPL_LEN_V : Fld := ⟨0x128, 0, 24⟩
/-- R372. -/ def JRNL_RPL_CTRL_MODE : Fld := ⟨0x12C, 0, 1⟩
/-- R372. -/ def JRNL_RPL_CTRL_DIFFER : Fld := ⟨0x12C, 1, 1⟩
/-- R372. -/ def JRNL_RPL_CTRL_MISS : Fld := ⟨0x12C, 2, 1⟩
/-- R372. -/ def JRNL_EXP_LO_V : Fld := ⟨0x130, 0, 32⟩
/-- R372. -/ def JRNL_EXP_HI_V : Fld := ⟨0x134, 0, 20⟩
/-- R372. -/ def JRNL_EXP_CFG_COUNT : Fld := ⟨0x138, 0, 13⟩
/-- R372. -/ def JRNL_EXP_CFG_EN : Fld := ⟨0x138, 13, 1⟩
/-- R372. -/ def JRNL_EXP_STAT_NEWEST : Fld := ⟨0x13C, 0, 1⟩
/-- R372. -/ def JRNL_EXP_STAT_VALID0 : Fld := ⟨0x13C, 1, 1⟩
/-- R372. -/ def JRNL_EXP_STAT_VALID1 : Fld := ⟨0x13C, 2, 1⟩
/-- R372. -/ def JRNL_EXP_STAT_HOLD0 : Fld := ⟨0x13C, 3, 1⟩
/-- R372. -/ def JRNL_EXP_STAT_HOLD1 : Fld := ⟨0x13C, 4, 1⟩
/-- R372. -/ def JRNL_EXP_STAT_BUSY : Fld := ⟨0x13C, 5, 1⟩
/-- R372. -/ def JRNL_EXP_STAT_TARGET : Fld := ⟨0x13C, 6, 1⟩
/-- R372. -/ def JRNL_EXP_STAT_BAD : Fld := ⟨0x13C, 7, 13⟩
/-- R372. -/ def JRNL_EXP_STEP0_LO_V : Fld := ⟨0x140, 0, 32⟩
/-- R372. -/ def JRNL_EXP_STEP0_HI_V : Fld := ⟨0x144, 0, 32⟩
/-- R372. -/ def JRNL_EXP_STEP1_LO_V : Fld := ⟨0x148, 0, 32⟩
/-- R372. -/ def JRNL_EXP_STEP1_HI_V : Fld := ⟨0x14C, 0, 32⟩
/-- R372. -/ def JRNL_TWIN_EN : Fld := ⟨0x150, 0, 1⟩
/-- R372. -/ def JRNL_TWIN_HOLD : Fld := ⟨0x150, 1, 1⟩
/-- R372. -/ def JRNL_TWIN_PORT : Fld := ⟨0x150, 2, 4⟩
/-- R372. -/ def JRNL_TWIN_SLICE : Fld := ⟨0x150, 16, 16⟩
/-- R372. -/ def JRNL_TWIN_TMO_V : Fld := ⟨0x154, 0, 24⟩
/-- R372. -/ def JRNL_TWIN_STAT_STATE : Fld := ⟨0x158, 0, 2⟩
/-- R372. -/ def JRNL_TWIN_STAT_CAUSE : Fld := ⟨0x158, 2, 2⟩
/-- R372. -/ def JRNL_TWIN_STAT_PEER_OK : Fld := ⟨0x158, 4, 1⟩
/-- R372. -/ def JRNL_DIGEST_V : Fld := ⟨0x160, 0, 32⟩
/-- R372. -/ def JRNL_TWIN_DIG_V : Fld := ⟨0x170, 0, 32⟩
/-- R372. -/ def JRNL_RSTEP_LO_V : Fld := ⟨0x180, 0, 32⟩
/-- R372. -/ def JRNL_RSTEP_HI_V : Fld := ⟨0x184, 0, 32⟩
/-- R372. -/ def JRNL_EXP_DST_MEMBER : Fld := ⟨0x190, 0, 12⟩
/-- R372. -/ def JRNL_EXP_DST_EN : Fld := ⟨0x190, 31, 1⟩
/-- R372. -/ def JRNL_RX_LO_V : Fld := ⟨0x194, 0, 32⟩
/-- R372. -/ def JRNL_RX_HI_V : Fld := ⟨0x198, 0, 20⟩
/-- R372. -/ def JRNL_RX_LEN_V : Fld := ⟨0x19C, 0, 24⟩
/-! ### INTEG page (chapter 14) -/
/-- R387. -/ def INTEG_CFG_SCRUB_EN : Fld := ⟨0x100, 0, 1⟩
/-- R387. -/ def INTEG_CFG_CE_THRESH : Fld := ⟨0x100, 16, 16⟩
/-- R387. -/ def INTEG_STAT_FILL_DONE : Fld := ⟨0x104, 0, 1⟩
/-- R387. -/ def INTEG_STAT_CHK_FAIL : Fld := ⟨0x104, 1, 1⟩
/-- R387. -/ def INTEG_STAT_CHK_UNIT : Fld := ⟨0x104, 2, 6⟩
/-- R387. -/ def INTEG_STAT_CHK_CHAN : Fld := ⟨0x104, 8, 5⟩
/-- R387. -/ def SCRUB_LAP_V : Fld := ⟨0x108, 0, 32⟩
/-- R387. -/ def SCRUB_AGE_V : Fld := ⟨0x10C, 0, 32⟩
/-- R387. -/ def SCRUB_AGE_MAX_V : Fld := ⟨0x110, 0, 32⟩
/-- R387. -/ def SCRUB_POS_V : Fld := ⟨0x114, 0, 16⟩
/-- R387. -/ def UE_ADDR_LO_V : Fld := ⟨0x118, 0, 32⟩
/-- R387. -/ def UE_ADDR_HI_V : Fld := ⟨0x11C, 0, 20⟩
/-- R387. -/ def UE_INFO_VALID : Fld := ⟨0x120, 0, 1⟩
/-- R387. -/ def UE_INFO_MEM : Fld := ⟨0x120, 1, 1⟩
/-- R387. -/ def UE_INFO_REQ : Fld := ⟨0x120, 2, 3⟩
/-- R387. -/ def UE_INFO_PARTIAL : Fld := ⟨0x120, 5, 1⟩
/-- R387. -/ def CE_ADDR_LO_V : Fld := ⟨0x124, 0, 32⟩
/-- R387. -/ def CE_ADDR_HI_V : Fld := ⟨0x128, 0, 20⟩
/-- R387. -/ def CE_INFO_SYM0 : Fld := ⟨0x12C, 0, 6⟩
/-- R387. -/ def CE_INFO_SYM1 : Fld := ⟨0x12C, 6, 6⟩
/-- R387. -/ def CE_INFO_MEM : Fld := ⟨0x12C, 12, 1⟩
/-- R387. -/ def CE_INFO_SCRUB : Fld := ⟨0x12C, 13, 1⟩
/-- R387. -/ def CE_INFO_VALID : Fld := ⟨0x12C, 31, 1⟩
/-- R387. -/ def INJ_ADDR_LO_V : Fld := ⟨0x130, 0, 32⟩
/-- R387. -/ def INJ_ADDR_HI_V : Fld := ⟨0x134, 0, 20⟩
/-- R387. -/ def INJ_CTRL_SYMS : Fld := ⟨0x138, 0, 2⟩
/-- R387. -/ def INJ_CTRL_ARM : Fld := ⟨0x138, 2, 1⟩
/-- R387. -/ def INJ_CTRL_DONE : Fld := ⟨0x138, 3, 1⟩
/-- R387. -/ def PAR_INFO_TABLE : Fld := ⟨0x13C, 0, 4⟩
/-- R387. -/ def PAR_INFO_VALID : Fld := ⟨0x13C, 31, 1⟩
/-! ### PWR page (chapter 18) -/
/-- R478. -/ def PWR_STATE_PSTATE : Fld := ⟨0x100, 0, 3⟩
/-- R478. -/ def PWR_STATE_STOPPED : Fld := ⟨0x100, 3, 1⟩
/-- R478. -/ def PWR_STATE_VF_POINT : Fld := ⟨0x100, 4, 4⟩
/-- R478. -/ def PWR_STATE_HOT : Fld := ⟨0x100, 8, 8⟩
/-- R478. -/ def PWR_VCORE_SET : Fld := ⟨0x104, 0, 10⟩
/-- R478. -/ def PWR_VCORE_SENSE : Fld := ⟨0x104, 16, 10⟩
/-- R478. -/ def PWR_SENS_SEL_V : Fld := ⟨0x108, 0, 4⟩
/-- R478. -/ def PWR_SENS_TEMP : Fld := ⟨0x10C, 0, 16⟩
/-- R478. -/ def PWR_DROOP_CFG_DEPTH : Fld := ⟨0x110, 0, 3⟩
/-- R478. -/ def PWR_DROOP_CFG_HOLD_NS : Fld := ⟨0x110, 8, 8⟩
/-- R478. -/ def PWR_DROOP_CFG_EN : Fld := ⟨0x110, 16, 1⟩
/-- R478. -/ def PWR_DROOP_STAT_ACTIVE : Fld := ⟨0x114, 0, 8⟩
/-- R478. -/ def PWR_DROOP_STAT_LAST : Fld := ⟨0x114, 8, 3⟩
/-- R478. -/ def PWR_DROOP_STAT_VALID : Fld := ⟨0x114, 31, 1⟩
/-! ### SVC page (chapter 19) -/
/-- R496. -/ def SVC_REQ_PAGE_NUM : Fld := ⟨0x100, 0, 12⟩
/-- R496. -/ def SVC_REQ_OP : Fld := ⟨0x100, 12, 2⟩
/-- R496. -/ def SVC_STAT_BUSY : Fld := ⟨0x104, 0, 1⟩
/-- R496. -/ def SVC_STAT_OP : Fld := ⟨0x104, 1, 2⟩
/-- R496. -/ def SVC_STAT_PAGE_NUM : Fld := ⟨0x104, 3, 12⟩
/-- R496. -/ def SVC_RESULT_CODE : Fld := ⟨0x108, 0, 16⟩
/-- R496. -/ def SVC_RESULT_VALID : Fld := ⟨0x108, 16, 1⟩
/-- R496. -/ def SVC_DETAIL_V : Fld := ⟨0x10C, 0, 16⟩
/-! ### MX page (chapter 06) -/
/-- R172. -/ def MX_STATE_STATE : Fld := ⟨0x100, 0, 3⟩
/-- R172. -/ def MX_STATE_RANK : Fld := ⟨0x100, 4, 3⟩
/-- R172. -/ def MX_STATE_FOR_MX : Fld := ⟨0x100, 8, 3⟩
/-- R172. -/ def MX_STATE_ROLE_NOW : Fld := ⟨0x100, 12, 1⟩
/-- R172. -/ def MX_ROLE_AFT : Fld := ⟨0x104, 0, 7⟩
/-- R172. -/ def MX_RATE_RAMP : Fld := ⟨0x108, 0, 7⟩
/-- R172. -/ def MX_RATE_CAP : Fld := ⟨0x108, 8, 7⟩
/-- R172. -/ def MX_RATE_NOW : Fld := ⟨0x108, 16, 7⟩
/-- R172. -/ def MX_ROWS_USED : Fld := ⟨0x10C, 0, 3⟩
/-- R172. -/ def MX_ROWS_EXHAUSTED : Fld := ⟨0x10C, 3, 1⟩
/-- R172. -/ def MX_ROWMAP_ROW : Fld := ⟨0x110, 0, 8⟩
/-- R172. -/ def MX_ROWMAP_VALID : Fld := ⟨0x110, 31, 1⟩
/-- R172. -/ def MX_TASK_TASK : Fld := ⟨0x120, 0, 18⟩
/-- R172. -/ def MX_TASK_BUSY : Fld := ⟨0x120, 18, 1⟩
/-- R172. -/ def MX_TASK_PASS : Fld := ⟨0x120, 19, 5⟩
/-- R172. -/ def MX_BANKS_BANK0 : Fld := ⟨0x124, 0, 2⟩
/-- R172. -/ def MX_BANKS_BANK1 : Fld := ⟨0x124, 2, 2⟩
/-- R172. -/ def MX_SHADOW_PASSES : Fld := ⟨0x128, 0, 4⟩
/-- R172. -/ def MX_SHADOW_WAIT : Fld := ⟨0x128, 4, 1⟩
/-- R172. -/ def MX_SHADOW_SAMPLING : Fld := ⟨0x128, 5, 1⟩
/-! ### VX page (chapter 07) -/
/-- R206. -/ def VX_STATE_TASK : Fld := ⟨0x100, 0, 18⟩
/-- R206. -/ def VX_STATE_BUSY : Fld := ⟨0x100, 18, 1⟩
/-- R206. -/ def VX_STATE_PC : Fld := ⟨0x100, 19, 13⟩
/-- R206. -/ def VX_FAULT_PC : Fld := ⟨0x104, 0, 13⟩
/-- R206. -/ def VX_FAULT_LANE : Fld := ⟨0x104, 13, 10⟩
/-- R206. -/ def VX_FAULT_LANE_VALID : Fld := ⟨0x104, 23, 1⟩
/-- R206. -/ def VX_FAULT_VALID : Fld := ⟨0x104, 24, 1⟩
/-- R206. -/ def VX_FAULT_CODE_V : Fld := ⟨0x108, 0, 16⟩
/-- R206. -/ def VX_PROG_LEN : Fld := ⟨0x10C, 0, 17⟩
/-! ### RE page (chapter 07) -/
/-- R208. -/ def RE_STATE_TASK : Fld := ⟨0x100, 0, 18⟩
/-- R208. -/ def RE_STATE_BUSY : Fld := ⟨0x100, 18, 1⟩
/-- R208. -/ def RE_STATE_OP : Fld := ⟨0x100, 19, 3⟩
/-- R208. -/ def RE_ROW_DONE : Fld := ⟨0x104, 0, 24⟩
/-- R208. -/ def RE_FAULT_CODE_V : Fld := ⟨0x108, 0, 16⟩
/-! ### SHELF page (chapter 07) -/
/-- R209. -/ def SHELF_SPILL_LO_V : Fld := ⟨0x100, 0, 32⟩
/-- R209. -/ def SHELF_SPILL_HI_V : Fld := ⟨0x104, 0, 20⟩
/-- R209. -/ def SHELF_SPILL_LEN_V : Fld := ⟨0x108, 0, 24⟩
/-- R209. -/ def SHELF_USED_V : Fld := ⟨0x10C, 0, 22⟩
/-- R209. -/ def SHELF_SPILLED_V : Fld := ⟨0x110, 0, 32⟩
/-- R209. -/ def SHELF_Q_SEL_V : Fld := ⟨0x114, 0, 16⟩
/-- R209. -/ def SHELF_Q_FIRST : Fld := ⟨0x118, 0, 22⟩
/-- R209. -/ def SHELF_Q_VALID : Fld := ⟨0x118, 22, 1⟩
/-- R209. -/ def SHELF_Q_ROWS_V : Fld := ⟨0x11C, 0, 24⟩
/-- R209. -/ def SHELF_PEEK_T_V : Fld := ⟨0x120, 0, 16⟩
/-- R209. -/ def SHELF_PEEK_ROW_V : Fld := ⟨0x124, 0, 24⟩
/-- R209. -/ def SHELF_PEEK_LO_V : Fld := ⟨0x128, 0, 32⟩
/-- R209. -/ def SHELF_PEEK_HI_V : Fld := ⟨0x12C, 0, 32⟩
/-! ### SR page (chapter 08) -/
/-- R232. -/ def SR_INFO_BANKS : Fld := ⟨0x100, 0, 8⟩
/-- R232. -/ def SR_INFO_SIZE : Fld := ⟨0x100, 8, 8⟩
/-! ### LOFT page (chapter 08) -/
/-- R236. -/ def LOFT_CFG_ENABLE : Fld := ⟨0x100, 0, 1⟩
/-- R236. -/ def LOFT_FLUSH_ALL : Fld := ⟨0x104, 0, 1⟩
/-- R236. -/ def LOFT_OCC_V : Fld := ⟨0x108, 0, 18⟩
/-- R236. -/ def LOFT_OCC_SS_V : Fld := ⟨0x10C, 0, 18⟩
/-! ### TRUNK page (chapter 08) -/
/-- R237. -/ def TRUNK_STAT_V : Fld := ⟨0x100, 0, 7⟩
/-! ### SC page (chapter 08) -/
/-- R234. -/ def SC_INFO_CHANNELS : Fld := ⟨0x100, 0, 8⟩
/-- R234. -/ def SC_INFO_RATE : Fld := ⟨0x100, 8, 16⟩
/-- R234. -/ def SC_STAT_MODE : Fld := ⟨0x104, 0, 2⟩
/-- R234. -/ def SC_STAT_TEMP : Fld := ⟨0x104, 2, 8⟩
/-- R234. -/ def SC_MAP_LO_V : Fld := ⟨0x108, 0, 32⟩
/-- R234. -/ def SC_MAP_HI_V : Fld := ⟨0x10C, 0, 20⟩
/-- R234. -/ def SC_MAP_RES_CHAN : Fld := ⟨0x110, 0, 5⟩
/-- R234. -/ def SC_MAP_RES_PC : Fld := ⟨0x110, 5, 1⟩
/-- R234. -/ def SC_MAP_RES_BG : Fld := ⟨0x110, 6, 2⟩
/-- R234. -/ def SC_MAP_RES_BANK : Fld := ⟨0x110, 8, 2⟩
/-- R234. -/ def SC_MAP_RES_VALID : Fld := ⟨0x110, 10, 1⟩
/-! ### MV page (chapter 08) -/
/-- R238. -/ def MV_STATE_TASK : Fld := ⟨0x100, 0, 18⟩
/-- R238. -/ def MV_STATE_BUSY : Fld := ⟨0x100, 18, 1⟩
/-- R238. -/ def MV_STATE_OP : Fld := ⟨0x100, 19, 2⟩
/-- R238. -/ def MV_ROW_V : Fld := ⟨0x104, 0, 24⟩
/-- R238. -/ def MV_FAULT_CODE_V : Fld := ⟨0x108, 0, 16⟩
/-- R238. -/ def MV_FAULT_ADDR_LO_V : Fld := ⟨0x10C, 0, 32⟩
/-- R238. -/ def MV_FAULT_ADDR_HI_V : Fld := ⟨0x110, 0, 20⟩
/-! ### LP page (chapter 11) -/
/-- R318. -/ def LP_CTRL_ENABLE : Fld := ⟨0x100, 0, 1⟩
/-- R318. -/ def LP_CTRL_RETRAIN : Fld := ⟨0x100, 1, 1⟩
/-- R318. -/ def LP_CTRL_AUTO_RETRAIN : Fld := ⟨0x100, 2, 1⟩
/-- R318. -/ def LP_CFG_PMD : Fld := ⟨0x104, 0, 2⟩
/-- R318. -/ def LP_CFG_ROLE : Fld := ⟨0x104, 2, 2⟩
/-- R318. -/ def LP_CFG_REPLAY_MAX : Fld := ⟨0x104, 4, 4⟩
/-- R318. -/ def LP_CFG_DEAD_NS : Fld := ⟨0x104, 8, 16⟩
/-- R318. -/ def LP_ARB_W1 : Fld := ⟨0x108, 0, 4⟩
/-- R318. -/ def LP_ARB_W2 : Fld := ⟨0x108, 4, 4⟩
/-- R318. -/ def LP_ARB_W3 : Fld := ⟨0x108, 8, 4⟩
/-- R318. -/ def LP_EXPECT_PEER : Fld := ⟨0x10C, 0, 12⟩
/-- R318. -/ def LP_EXPECT_CHECK : Fld := ⟨0x10C, 16, 1⟩
/-- R318. -/ def LP_STATE_STATE : Fld := ⟨0x110, 0, 3⟩
/-- R318. -/ def LP_STATE_CAUSE : Fld := ⟨0x110, 8, 4⟩
/-- R318. -/ def LP_STATE_MINOR : Fld := ⟨0x110, 16, 8⟩
/-- R318. -/ def LP_PEER_MEMBER : Fld := ⟨0x114, 0, 12⟩
/-- R318. -/ def LP_PEER_PORT : Fld := ⟨0x114, 12, 4⟩
/-- R318. -/ def LP_PEER_SLICE : Fld := ⟨0x114, 16, 16⟩
/-- R318. -/ def LP_PEER_GEN_V : Fld := ⟨0x118, 0, 16⟩
/-- R318. -/ def LP_LAT_V : Fld := ⟨0x11C, 0, 16⟩
/-- R318. -/ def LP_REPLAY_HELD : Fld := ⟨0x120, 0, 8⟩
/-- R318. -/ def LP_REPLAY_ALT : Fld := ⟨0x120, 16, 4⟩
/-- R318. -/ def LP_REPLAY_ALT_VALID : Fld := ⟨0x120, 20, 1⟩
/-- R318. -/ def LP_RXSEQ_V : Fld := ⟨0x124, 0, 16⟩
/-- R318. -/ def LS_SLICE_SLICE_ID : Fld := ⟨0x200, 0, 16⟩
/-- R318. -/ def LS_SLICE_MEMBER : Fld := ⟨0x200, 16, 12⟩
/-- R318. -/ def LS_CFG_HOP_MAX : Fld := ⟨0x204, 0, 4⟩
/-- R318. -/ def LS_PGEN_CUR : Fld := ⟨0x208, 0, 16⟩
/-- R318. -/ def LS_PGEN_NEXT : Fld := ⟨0x208, 16, 16⟩
/-- R318. -/ def RT_SEL_MEMBER : Fld := ⟨0x20C, 0, 12⟩
/-- R318. -/ def RT_SEL_BANK : Fld := ⟨0x20C, 12, 1⟩
/-- R318. -/ def RT_ENTRY_PORTS : Fld := ⟨0x210, 0, 16⟩
/-- R318. -/ def RT_ENTRY_ALT : Fld := ⟨0x210, 16, 16⟩
/-- R318. -/ def RT_CTRL_SWAP : Fld := ⟨0x214, 0, 1⟩
/-- R318. -/ def RT_CTRL_COPY : Fld := ⟨0x214, 1, 1⟩
/-- R318. -/ def RT_CTRL_PENDING : Fld := ⟨0x214, 2, 1⟩
/-- R318. -/ def RT_DIGEST_LO_V : Fld := ⟨0x218, 0, 32⟩
/-- R318. -/ def RT_DIGEST_HI_V : Fld := ⟨0x21C, 0, 32⟩
/-! ### SW page (chapter 15) -/
/-- R406. -/ def SW_CTRL_RETRAIN : Fld := ⟨0x100, 0, 1⟩
/-- R406. -/ def SW_CTRL_AUTO : Fld := ⟨0x100, 1, 1⟩
/-- R406. -/ def SW_STATE_STATE : Fld := ⟨0x104, 0, 3⟩
/-- R406. -/ def SW_STATE_CAUSE : Fld := ⟨0x104, 4, 4⟩
/-- R406. -/ def SW_STATE_TRIES : Fld := ⟨0x104, 8, 4⟩
/-- R406. -/ def SW_STATE_PEER : Fld := ⟨0x104, 12, 2⟩
/-- R406. -/ def SW_STATE_FLIGHTS : Fld := ⟨0x104, 14, 5⟩
/-- R406. -/ def SW_EPOCH_OWN : Fld := ⟨0x108, 0, 16⟩
/-- R406. -/ def SW_EPOCH_PEER : Fld := ⟨0x108, 16, 16⟩
/-- R406. -/ def SW_WIDTH_AW : Fld := ⟨0x10C, 0, 32⟩
/-- R406. -/ def SW_RXWIDTH_RXW : Fld := ⟨0x110, 0, 32⟩
/-- R406. -/ def SW_LAT_V : Fld := ⟨0x114, 0, 16⟩
/-- R406. -/ def SW_REPAIR_SEL_V : Fld := ⟨0x118, 0, 4⟩
/-- R406. -/ def SW_REPAIR_W0 : Fld := ⟨0x11C, 0, 6⟩
/-- R406. -/ def SW_REPAIR_W1 : Fld := ⟨0x11C, 6, 6⟩
/-- R406. -/ def SW_REPAIR_W2 : Fld := ⟨0x11C, 12, 6⟩
/-- R406. -/ def SW_REPAIR_W3 : Fld := ⟨0x11C, 18, 6⟩
/-- R406. -/ def SW_REPAIR_VALID : Fld := ⟨0x11C, 24, 4⟩
/-- R406. -/ def SW_REPAIR_CODE : Fld := ⟨0x11C, 28, 2⟩
/-- R406. -/ def SW_REPAIR_MORE : Fld := ⟨0x11C, 30, 1⟩
/-- R406. -/ def SW_ERR_CFG_RETRY_MAX : Fld := ⟨0x120, 0, 16⟩
/-- R406. -/ def SW_ERR_CFG_HOLD_US : Fld := ⟨0x120, 16, 10⟩
/-! ### HT page (chapter 15) -/
/-- R408. -/ def HT_STATE_MOD0 : Fld := ⟨0x100, 0, 3⟩
/-- R408. -/ def HT_STATE_MOD1 : Fld := ⟨0x100, 4, 3⟩
/-- R408. -/ def HT_STATE_DETOUR : Fld := ⟨0x100, 8, 1⟩
/-- R408. -/ def HT_STATE_VIA : Fld := ⟨0x100, 9, 2⟩
/-- R408. -/ def HT_REPAIR_MOD0 : Fld := ⟨0x104, 0, 4⟩
/-- R408. -/ def HT_REPAIR_MOD1 : Fld := ⟨0x104, 4, 4⟩
/-- R408. -/ def HT_RETRY_V : Fld := ⟨0x108, 0, 16⟩
/-! ### HTS page (chapter 15) -/
/-- R408. -/ def HTS_CTRL_RESET : Fld := ⟨0x110, 0, 1⟩
/-- R408. -/ def HTS_CTRL_KIND : Fld := ⟨0x110, 1, 1⟩
/-- R408. -/ def HTS_CTRL_REJOIN : Fld := ⟨0x110, 2, 1⟩
/-- R408. -/ def HTS_DIE_STATE : Fld := ⟨0x114, 0, 3⟩
/-- R408. -/ def HTS_DIE_WARM : Fld := ⟨0x114, 3, 1⟩
/-- R408. -/ def HTS_DIE_LOSS_CAUSE : Fld := ⟨0x114, 4, 4⟩
/-! ### HOST page (chapter 16) -/
/-- R435. -/ def HOST_VER_MINOR_MAX : Fld := ⟨0x100, 0, 8⟩
/-- R435. -/ def HOST_VER_MAJOR : Fld := ⟨0x100, 8, 8⟩
/-- R435. -/ def HOST_NEG_MINOR : Fld := ⟨0x104, 0, 8⟩
/-- R435. -/ def HOST_NEG_MAJOR : Fld := ⟨0x104, 8, 8⟩
/-- R435. -/ def HOST_NEG_NEGOTIATED : Fld := ⟨0x104, 16, 1⟩
/-- R435. -/ def HOST_LINK_RATE : Fld := ⟨0x108, 0, 3⟩
/-- R435. -/ def HOST_LINK_WIDTH : Fld := ⟨0x108, 3, 5⟩
/-- R435. -/ def HOST_LINK_FLIT : Fld := ⟨0x108, 8, 1⟩
/-- R435. -/ def HOST_B2MAP_V : Fld := ⟨0x110, 0, 4⟩
/-- R435. -/ def HOST_B2ERR_LO_V : Fld := ⟨0x120, 0, 32⟩
/-- R435. -/ def HOST_B2ERR_HI_V : Fld := ⟨0x124, 0, 20⟩
/-- R435. -/ def HOST_B2ERR_CODE_CODE : Fld := ⟨0x128, 0, 16⟩
/-- R435. -/ def HOST_B2ERR_CODE_WRITE : Fld := ⟨0x128, 16, 1⟩
/-- R435. -/ def HOST_B2ERR_CODE_VALID : Fld := ⟨0x128, 31, 1⟩
/-- R435. -/ def HOST_TL_SEL_V : Fld := ⟨0x130, 0, 8⟩
/-- R435. -/ def HOST_TL_ENTRY_HOME : Fld := ⟨0x134, 0, 3⟩
/-- R435. -/ def HOST_TL_ENTRY_PAGE_NUM : Fld := ⟨0x134, 3, 12⟩
/-- R435. -/ def HOST_TL_ENTRY_INDEX : Fld := ⟨0x134, 15, 8⟩
/-- R435. -/ def HOST_TL_ENTRY_VALID : Fld := ⟨0x134, 31, 1⟩
/-! ### SEC page (chapter 17) -/
/-- R461. -/ def SEC_DEVID_LO_V : Fld := ⟨0x100, 0, 32⟩
/-- R461. -/ def SEC_DEVID_HI_V : Fld := ⟨0x104, 0, 32⟩
/-- R461. -/ def SEC_SVN_SVN : Fld := ⟨0x108, 0, 6⟩
/-- R461. -/ def SEC_SVN_FLOOR : Fld := ⟨0x108, 8, 6⟩
/-- R461. -/ def SEC_FLOOR_REQ_V : Fld := ⟨0x10C, 0, 6⟩
/-- R461. -/ def SEC_ATT_CTRL_GO : Fld := ⟨0x110, 0, 1⟩
/-- R461. -/ def SEC_ATT_CTRL_BUSY : Fld := ⟨0x110, 1, 1⟩
/-- R461. -/ def SEC_ATT_CTRL_CODE : Fld := ⟨0x110, 16, 16⟩
/-- R461. -/ def SEC_ATT_ADDR_LO_V : Fld := ⟨0x114, 0, 32⟩
/-- R461. -/ def SEC_ATT_ADDR_HI_V : Fld := ⟨0x118, 0, 32⟩
/-- R461. -/ def SEC_NONCE_V : Fld := ⟨0x120, 0, 32⟩
/-- R461. -/ def SEC_LMS_LEFT_V : Fld := ⟨0x140, 0, 21⟩
/-- R461. -/ def SEC_LMS_LOW_V : Fld := ⟨0x144, 0, 21⟩
/-! ### CFG page (chapter 17) -/
/-- R460. -/ def CFG_CMD_OP : Fld := ⟨0x100, 0, 2⟩
/-- R460. -/ def CFG_CMD_SLOT : Fld := ⟨0x100, 2, 1⟩
/-- R460. -/ def CFG_STAT_BUSY : Fld := ⟨0x104, 0, 1⟩
/-- R460. -/ def CFG_STAT_VALID_A : Fld := ⟨0x104, 1, 1⟩
/-- R460. -/ def CFG_STAT_VALID_B : Fld := ⟨0x104, 2, 1⟩
/-- R460. -/ def CFG_STAT_CODE : Fld := ⟨0x104, 16, 16⟩
/-- R460. -/ def CFG_SRC_LO_V : Fld := ⟨0x108, 0, 32⟩
/-- R460. -/ def CFG_SRC_HI_V : Fld := ⟨0x10C, 0, 32⟩
/-- R460. -/ def CFG_LEN_V : Fld := ⟨0x110, 0, 24⟩
/-- R460. -/ def CFG_SEQ_A_V : Fld := ⟨0x114, 0, 32⟩
/-- R460. -/ def CFG_SEQ_B_V : Fld := ⟨0x118, 0, 32⟩
/-- R460. -/ def CFG_CAL_SEL_ID : Fld := ⟨0x11C, 0, 16⟩
/-- R460. -/ def CFG_CAL_SEL_INDEX : Fld := ⟨0x11C, 16, 16⟩
/-- R460. -/ def CFG_CAL_FAC_V : Fld := ⟨0x120, 0, 32⟩
/-- R460. -/ def CFG_CAL_BND_MIN_ADJ : Fld := ⟨0x124, 0, 16⟩
/-- R460. -/ def CFG_CAL_BND_MAX_ADJ : Fld := ⟨0x124, 16, 16⟩
/-- R460. -/ def CFG_CAL_USE_V : Fld := ⟨0x128, 0, 32⟩
/-! ### BOOT page (chapter 17) -/
/-- R459. -/ def BOOT_STAT_STAGE : Fld := ⟨0x100, 0, 3⟩
/-- R459. -/ def BOOT_STAT_SLOT : Fld := ⟨0x100, 3, 1⟩
/-- R459. -/ def BOOT_STAT_SEALED : Fld := ⟨0x100, 4, 1⟩
/-- R459. -/ def BOOT_STAT_WIRE_TEST : Fld := ⟨0x100, 5, 1⟩
/-- R459. -/ def BOOT_STAT_CODE : Fld := ⟨0x100, 16, 16⟩
/-- R459. -/ def BOOT_CODE_CODE_A : Fld := ⟨0x104, 0, 16⟩
/-- R459. -/ def BOOT_CODE_CODE_B : Fld := ⟨0x104, 16, 16⟩
/-- R459. -/ def BOOT_SEQ_V : Fld := ⟨0x108, 0, 32⟩
/-- R459. -/ def BOOT_VAL_IDX_ENTRY : Fld := ⟨0x10C, 0, 13⟩
/-- R459. -/ def BOOT_VAL_IDX_SLOT : Fld := ⟨0x10C, 13, 1⟩
/-- R459. -/ def BOOT_VAL_IDX_VALID : Fld := ⟨0x10C, 31, 1⟩
/-- R459. -/ def BOOT_DIES_CHECKER : Fld := ⟨0x110, 0, 4⟩
/-- R459. -/ def BOOT_DIES_WIRE : Fld := ⟨0x110, 4, 4⟩
/-- R459. -/ def BOOT_DIES_EDGE : Fld := ⟨0x110, 8, 4⟩
/-- R459. -/ def BOOT_TIME_V : Fld := ⟨0x114, 0, 32⟩
/-- R459. -/ def BOOT_CTRL_SEAL : Fld := ⟨0x118, 0, 1⟩
/-- R459. -/ def BOOT_CTRL_REBOOT : Fld := ⟨0x118, 1, 1⟩
/-! ### MGMT page (chapter 20) -/
/-- R516. -/ def MGMT_CFG_EN : Fld := ⟨0x100, 0, 1⟩
/-- R516. -/ def MGMT_CFG_PEC_REQ : Fld := ⟨0x100, 1, 1⟩
/-- R516. -/ def MGMT_ADDR_V : Fld := ⟨0x104, 0, 7⟩
/-- R516. -/ def MGMT_LAST_CODE : Fld := ⟨0x108, 0, 16⟩
/-- R516. -/ def MGMT_LAST_WRITE : Fld := ⟨0x108, 16, 1⟩
/-- R516. -/ def MGMT_LAST_VALID : Fld := ⟨0x108, 31, 1⟩
/-- R516. -/ def MGMT_ALERT_SEL_TRAY : Fld := ⟨0x10C, 0, 1⟩
/-- R516. -/ def MGMT_ALERT_SEL_PCAP : Fld := ⟨0x10C, 1, 1⟩
/-- R516. -/ def MGMT_ALERT_SEL_BOOT : Fld := ⟨0x10C, 2, 1⟩
/-- R516. -/ def MGMT_ALERT_SEL_HTS : Fld := ⟨0x10C, 3, 1⟩
/-- R516. -/ def MGMT_ALERT_SEL_VR : Fld := ⟨0x10C, 4, 1⟩
/-- R516. -/ def MGMT_VR_FAULT : Fld := ⟨0x110, 0, 4⟩
/-! ### TRAY page (chapter 18) -/
/-- R482. -/ def TRAY_IN_COOLANT_OK : Fld := ⟨0x100, 0, 1⟩
/-- R482. -/ def TRAY_IN_BRAKE : Fld := ⟨0x100, 1, 1⟩
/-- R482. -/ def TRAY_STOP_STOPPED : Fld := ⟨0x104, 0, 1⟩
/-- R482. -/ def TRAY_STOP_OK_STABLE : Fld := ⟨0x104, 1, 1⟩
/-- R482. -/ def TRAY_CTRL_RESTART : Fld := ⟨0x108, 0, 1⟩
/-- R482. -/ def TRAY_TRIP_DIE : Fld := ⟨0x10C, 0, 2⟩
/-- R482. -/ def TRAY_TRIP_SENSOR : Fld := ⟨0x10C, 2, 4⟩
/-- R482. -/ def TRAY_TRIP_VALID : Fld := ⟨0x10C, 31, 1⟩
/-! ### PCAP page (chapter 18) -/
/-- R480. -/ def PCAP_CAP_V : Fld := ⟨0x100, 0, 12⟩
/-- R480. -/ def PCAP_CTL_INTERVAL_US : Fld := ⟨0x104, 0, 10⟩
/-- R480. -/ def PCAP_CTL_HYST_W : Fld := ⟨0x104, 10, 10⟩
/-- R480. -/ def PCAP_CTL_BRAKE_RATE : Fld := ⟨0x104, 20, 7⟩
/-- R480. -/ def PCAP_LTR_V : Fld := ⟨0x108, 0, 24⟩
/-- R480. -/ def PCAP_IDLE_V : Fld := ⟨0x10C, 0, 16⟩
/-- R480. -/ def PCAP_STATE_PSTATE : Fld := ⟨0x110, 0, 3⟩
/-- R480. -/ def PCAP_STATE_RATE : Fld := ⟨0x110, 3, 7⟩
/-- R480. -/ def PCAP_STATE_BRAKED : Fld := ⟨0x110, 10, 1⟩
/-- R480. -/ def PCAP_STATE_LIMIT : Fld := ⟨0x110, 11, 2⟩
/-- R480. -/ def PCAP_POWER_V : Fld := ⟨0x114, 0, 16⟩
/-- R480. -/ def PCAP_THERM_THERM_LIMIT : Fld := ⟨0x118, 0, 8⟩
/-- R480. -/ def PCAP_THERM_STACK_LIMIT : Fld := ⟨0x118, 8, 8⟩
/-! ### SSVC page (chapter 19) -/
/-- R497. -/ def CS_CMD_LOAD : Fld := ⟨0x100, 0, 1⟩
/-- R497. -/ def CS_CMD_DIE : Fld := ⟨0x100, 1, 2⟩
/-- R497. -/ def CS_CMD_SLOT : Fld := ⟨0x100, 3, 1⟩
/-- R497. -/ def CS_STAT_BUSY : Fld := ⟨0x104, 0, 1⟩
/-- R497. -/ def CS_STAT_CODE : Fld := ⟨0x104, 16, 16⟩
/-- R497. -/ def CS_SRC_SLOT : Fld := ⟨0x108, 0, 4⟩
/-- R497. -/ def CS_SRC_OTHER : Fld := ⟨0x108, 4, 4⟩
/-- R497. -/ def RMA_CMD_PREP : Fld := ⟨0x10C, 0, 1⟩
/-- R497. -/ def RMA_STAT_BUSY : Fld := ⟨0x110, 0, 1⟩
/-- R497. -/ def RMA_STAT_DONE : Fld := ⟨0x110, 1, 1⟩
/-! ### QUEUE page (chapter 16) -/
/-- R438. -/ def Q_CFG_KIND : Fld := ⟨0x100, 0, 4⟩
/-- R438. -/ def Q_CFG_SIZE : Fld := ⟨0x100, 8, 17⟩
/-- R438. -/ def Q_CFG_HOME : Fld := ⟨0x100, 25, 2⟩
/-- R438. -/ def Q_CFG_SLOT : Fld := ⟨0x100, 27, 4⟩
/-- R438. -/ def Q_CTRL_EN : Fld := ⟨0x104, 0, 1⟩
/-- R438. -/ def Q_CTRL_MARK : Fld := ⟨0x104, 1, 1⟩
/-- R438. -/ def Q_CTRL_REWIND : Fld := ⟨0x104, 2, 1⟩
/-- R438. -/ def Q_CTRL_TRUNCATE : Fld := ⟨0x104, 3, 1⟩
/-- R438. -/ def Q_CTRL_MIRROR : Fld := ⟨0x104, 4, 1⟩
/-- R438. -/ def Q_BASE_LO_V : Fld := ⟨0x108, 0, 32⟩
/-- R438. -/ def Q_BASE_HI_V : Fld := ⟨0x10C, 0, 32⟩
/-- R438. -/ def Q_SHADOW_LO_V : Fld := ⟨0x110, 0, 32⟩
/-- R438. -/ def Q_SHADOW_HI_V : Fld := ⟨0x114, 0, 32⟩
/-- R438. -/ def Q_DBASE_LO_V : Fld := ⟨0x118, 0, 32⟩
/-- R438. -/ def Q_DBASE_HI_V : Fld := ⟨0x11C, 0, 32⟩
/-- R438. -/ def Q_PROD_LO_V : Fld := ⟨0x120, 0, 32⟩
/-- R438. -/ def Q_PROD_HI_V : Fld := ⟨0x124, 0, 32⟩
/-- R438. -/ def Q_RD_LO_V : Fld := ⟨0x128, 0, 32⟩
/-- R438. -/ def Q_RD_HI_V : Fld := ⟨0x12C, 0, 32⟩
/-- R438. -/ def Q_MARK_LO_V : Fld := ⟨0x130, 0, 32⟩
/-- R438. -/ def Q_MARK_HI_V : Fld := ⟨0x134, 0, 32⟩
/-- R438. -/ def Q_REL_LO_V : Fld := ⟨0x138, 0, 32⟩
/-- R438. -/ def Q_REL_HI_V : Fld := ⟨0x13C, 0, 32⟩
/-- R438. -/ def Q_STAT_UNDERRUN : Fld := ⟨0x140, 0, 1⟩
/-- R438. -/ def Q_STAT_FULL : Fld := ⟨0x140, 1, 1⟩
/-- R438. -/ def Q_STAT_GAP_PENDING : Fld := ⟨0x140, 2, 1⟩
/-- R438. -/ def Q_STAT_DROPS : Fld := ⟨0x140, 3, 29⟩
/-- R438. -/ def Q_IRQ_VECTOR : Fld := ⟨0x144, 0, 5⟩
/-- R438. -/ def Q_IRQ_EN : Fld := ⟨0x144, 5, 1⟩
/-- R438. -/ def Q_IRQ_THRESH : Fld := ⟨0x144, 6, 16⟩
/-- R438. -/ def Q_IRQ_DELAY : Fld := ⟨0x144, 22, 10⟩
/-- R438. -/ def Q_DOORBELL_V : Fld := ⟨0x148, 0, 16⟩
/-- R438. -/ def Q_POP_V : Fld := ⟨0x150, 0, 32⟩

end Sys2Proof.Machine
end

