-- ==== Sys2Proof/Machine/Sparse.lean ====
section
/-!
DEFINITION. Sparse.lean: a sparse map as a list of key and value pairs in one canonical form: keys strictly rising, and no
entry equal to what an unlisted key reads as. Package memory, host memory, the flash, the register file and the other
large arrays of the X4 are such maps; equal contents are then equal lists. The default of a key is a function of the key
(a register's reset value depends on its address).
-/
namespace Sys2Proof.Machine

/-- A sparse map from addresses or indices to values. -/
abbrev SMap (α : Type) := List (Nat × α)

/-- The value at key `k`: the listed one, else the default. -/
def sget {α : Type} (z : Nat → α) : SMap α → Nat → α
  | [], k => z k
  | (j, v) :: m, k => if j = k then v else sget z m k

/-- The list without key `k`. -/
def serase {α : Type} : SMap α → Nat → SMap α
  | [], _ => []
  | (j, v) :: m, k => if j = k then serase m k else (j, v) :: serase m k

/-- Places a pair before the first larger key. -/
def sinsert {α : Type} : SMap α → Nat → α → SMap α
  | [], k, x => [(k, x)]
  | (j, v) :: m, k, x => if k < j then (k, x) :: (j, v) :: m else (j, v) :: sinsert m k x

/-- Sets key `k` to `x`; setting the default removes the entry. -/
def sset {α : Type} [DecidableEq α] (z : Nat → α) (m : SMap α) (k : Nat) (x : α) : SMap α :=
  if x = z k then serase m k else sinsert (serase m k) k x

/-- Sets a run of keys from `k` upwards. -/
def ssetList {α : Type} [DecidableEq α] (z : Nat → α) (m : SMap α) (k : Nat) : List α → SMap α
  | [] => m
  | x :: xs => ssetList z (sset z m k x) (k + 1) xs

/-- The values of `n` keys from `k` upwards. -/
def sgetList {α : Type} (z : Nat → α) (m : SMap α) (k : Nat) : Nat → List α
  | 0 => []
  | n + 1 => sget z m k :: sgetList z m (k + 1) n

/-- Keeps the entries whose key satisfies `p`; the others read as their default again. -/
def skeep {α : Type} (p : Nat → Bool) (m : SMap α) : SMap α := m.filter fun e => p e.1

/-- Keys strictly rising from `lo`, and no entry at its default. -/
def swfFrom {α : Type} [DecidableEq α] (z : Nat → α) : Nat → SMap α → Bool
  | _, [] => true
  | lo, (j, v) :: m => decide (lo ≤ j) && decide (v ≠ z j) && swfFrom z (j + 1) m

/-- The canonical form of a sparse map. -/
def swf {α : Type} [DecidableEq α] (z : Nat → α) (m : SMap α) : Bool := swfFrom z 0 m

end Sys2Proof.Machine
end

