-- ==== Sys2Proof/Machine/State.lean ====
section
/-!
DEFINITION. State.lean: the state of the X4 package as plain data, the reasons a step can stop, and the state after reset.
Registers are one sparse map keyed by BAR0 offset whose unlisted entries read the reset values of the register tables
(RegMap.lean); what the spec gives the machine besides registers has a field of its own here.
-/
namespace Sys2Proof.Machine

/-- Why the block stops. The spec answers every failing access and every failing task with an error code, which is a next
state here, so no command raises a fault: `neverRaised` is the one reason and nothing uses it (safe). -/
inductive Fault where
  | neverRaised
  deriving DecidableEq, Repr

/-- Why a command has no outcome. `notModelled` names a command without a meaning (safe: nothing is claimed of it). -/
inductive Refusal where
  | notModelled (mnemonic : String)
  deriving DecidableEq, Repr

/-- A tally (R53): a 48-bit count and its sticky saturated flag. -/
structure Tally where
  count : BitVec 48
  sat : Bool
  deriving DecidableEq, Repr

/-! ### The dispatcher and the tick -/

/-- Where a task of the current frame stands (R109 to R115). `draining` waits for the acknowledgement of remote
decrements; `ended` holds the code the task ended with, 0 for OK. -/
inductive TaskSt where
  | idle
  | executing
  | draining
  | ended (code : Nat)
  deriving DecidableEq, Repr

/-- What a graph slot latches besides its registers (R105): the image range, the activation step and the digest. -/
structure Slot where
  base : Nat
  len : Nat
  actStep : Nat
  digest0 : D
  digest1 : D
  deriving DecidableEq, Repr

/-- A frame opened while a die still finishes an earlier one (R113): the tick that opened it, whether it has failed and a cause that is no
task fault (R62, R251, R330), whether the die runs none of its tasks (R62, R107), and its sentinel bits so far (R257). -/
structure LateFrame where
  tick : Tick
  failed : Bool
  cause : Nat
  off : Bool
  nf : Nat
  spike : Nat
  deriving DecidableEq, Repr

/-- What a frame the die has left contributes to the package's report of it (R61, R62, R113, R116): the tick that opened it, whether it failed,
its lowest-ID fault, its cause, whether its tasks ran, and its sentinel bits. -/
structure EndedFrame where
  tick : Tick
  failed : Bool
  fault : Option (Nat × Nat)
  cause : Nat
  off : Bool
  nf : Nat
  spike : Nat
  deriving DecidableEq, Repr

/-- The dispatcher of a die (R105 to R116). -/
structure Disp where
  slotA : Slot
  slotB : Slot
  /-- State of each task since the last step start tick. -/
  tstat : SMap TaskSt
  /-- Decrements each task's count has taken since the last step start tick. -/
  decs : SMap Nat
  /-- Remote decrements a draining task has not yet had acknowledged (R111). -/
  owed : SMap Nat
  /-- The scalar output each executing task will write (R117). -/
  sout : SMap D
  /-- Number of the last step start tick, and its STEP. -/
  att : Nat
  attStep : Nat
  /-- Whether a frame is open on the die, the tick that opened the frame in course, the frames opened while it finishes earlier ones, and
  the frames of the step it has left (R113). -/
  frameOpen : Bool
  cur : Option Tick
  later : List LateFrame
  past : List EndedFrame
  /-- Faulted tasks of the frame with their codes, and a cause of the frame's failure that is no task fault (R116). -/
  faults : List (Nat × Nat)
  failCause : Nat
  /-- Tasks that a fault has doomed for the rest of the step (R114). -/
  doomed : List Nat
  /-- Tasks that issued on a bank another task held, in order of issue (R155). -/
  bankWait : List Nat
  deriving DecidableEq, Repr

/-- A tick received and not yet taken as an edge: the tick with this die's ACC added, and its arrival time (R75). -/
structure RxTick where
  t : Tick
  arrival : Nat
  deriving DecidableEq, Repr

/-- What a die keeps of the beat (R66 to R85). -/
structure TickDie where
  rx : List RxTick
  last : Option Tick
  edgeAt : Nat
  doneAt : Option Nat
  /-- TICK_LOST holds the die from later frames (R66); `freeWait` is the unlimited wait of R67. -/
  lost : Bool
  freeWait : Bool
  /-- A TICK_IN edge has come for the oldest received tick (R77). -/
  pinEdge : Bool
  /-- Phase timers: the running set and the last closed set (R85). -/
  phRun : Vector Nat 12
  phLast : Vector Nat 12
  /-- Number of the tick that opened the last frame whose report with CONTRIB_SENT has gone (R61); tick die only. -/
  csent : Option Nat
  /-- Ticks on their way to the die over an edge that trains again, with the die they come from (R396). -/
  held : List (DieId × Tick)
  deriving DecidableEq, Repr

/-- The state of the tick master (R79). -/
inductive MState where
  | off
  | running
  | held
  deriving DecidableEq, Repr

/-- The tick master of the slice, when this package holds the role (R59 to R81). -/
structure Master where
  st : MState
  /-- The last tick emitted: its number, step, frame and type, and when it was emitted. -/
  tick : Nat
  step : Nat
  frame : Nat
  type : Nat
  openAt : Nat
  /-- Members of the slice at the opening tick (R521). -/
  members : List Nat
  /-- Done-reports on record for the frame in order of arrival, and the members whose CONTRIB_SENT is held. -/
  reports : List Report
  contrib : List Nat
  excluded : List Nat
  /-- The minimum period since the opening tick has passed. -/
  minPassed : Bool
  /-- A report of the step, or of the interlude frame, that forbids a commit is on record (R70, R72). -/
  bad : Bool
  /-- The abandons in a row, and the frame held back. -/
  abandons : Nat
  heldFrame : Nat
  heldStep : Nat
  stopPending : Bool
  /-- A resume tick waits for the minimum period (R79). -/
  resumeWait : Bool
  deriving DecidableEq, Repr

/-- The done state of one die for the package's report (R78). -/
structure DoneSt where
  done : Bool
  failed : Bool
  contribSent : Bool
  deriving DecidableEq, Repr

/-! ### Links and stairway -/

/-- What identifies a message of the collective engine (R337): OP, ATT, FRAME, BUCKET, source member and die, OFFSET. -/
structure CeSeen where
  op : Nat
  att : Nat
  frame : Nat
  bucket : Nat
  src : Nat
  die : Nat
  offset : Nat
  deriving DecidableEq, Repr

/-- What a flit is part of: an export stream of a die (R366), a message of the collective engine, or another message. -/
inductive FlitUse where
  | other
  | stream (die : Nat)
  | ce (m : CeSeen)
  deriving DecidableEq, Repr

/-- A flit (R292): its 256-byte payload and the fields of its trailer, the CRC apart. -/
structure Flit where
  payload : List Byte
  seq : Nat
  ack : Nat
  cls : Nat
  null : Bool
  nak : Bool
  first : Bool
  last : Bool
  hops : Nat
  kind : Nat
  cred : List Nat
  slice : Nat
  dst : Nat
  src : Nat
  flow : Nat
  epoch : Nat
  pgen : Nat
  oseq : Nat
  fo : Bool
  orig : Nat
  /-- What the flit is part of, which the sender knows; it is not on the wire (R308, R328). -/
  use : FlitUse
  deriving DecidableEq, Repr

/-- A flit kept for replay, and the time of its first transmission (R299, R300). -/
structure Kept where
  flit : Flit
  sentAt : Nat
  deriving DecidableEq, Repr

/-- A message received whole and not yet judged (R312): the port whose receive buffer still holds it, and the port it crossed (R309). -/
structure Arrived where
  msg : LinkMsg
  buf : Option PortId
  crossed : PortId
  deriving DecidableEq, Repr

/-- A link port (R292 to R309), besides its registers. -/
structure Port where
  txSeq : Nat
  /-- Flits that wait to leave, per class, oldest first (R295, R298). -/
  txq : Vector (List Flit) 4
  /-- The class the weighted round robin of R298 serves, and the flits its turn has left. -/
  arbCls : Nat
  arbLeft : Nat
  replay : List Kept
  /-- First SEQ not yet received in order, and whether the port discards until it arrives. -/
  rxNext : Nat
  seeking : Bool
  nakCount : Nat
  nakSeq : Nat
  /-- Credits held per class, and receive-buffer entries freed per class since the last return (R297). -/
  credits : Vector Nat 4
  freed : Vector Nat 4
  /-- The flits of the message being received per class (R295), oldest first. -/
  reasm : Vector (List Flit) 4
  /-- Messages received whole and not yet judged (R312), oldest first. -/
  inbox : List Arrived
  /-- Latencies of the returned probes (R304), and times of uncorrectable codewords of the last 1 ms (R305). -/
  probes : List Nat
  unc : List Nat
  deriving DecidableEq, Repr

/-- A unit that waits to leave on a stairway side (R390, R392): its FIRST and LAST marks, the line address by which it is spread, and its
256 bytes. -/
structure SwItem where
  cls : Nat
  first : Bool
  last : Bool
  addr : Nat
  data : List Byte
  deriving DecidableEq, Repr

/-- A unit sent and not yet acknowledged (R395, R396), with its sequence number on its flight. -/
structure SwHeld where
  seq : Nat
  item : SwItem
  deriving DecidableEq, Repr

/-- One side of a stairway edge (R390 to R397), besides its registers. -/
structure Side where
  /-- Next sequence number expected per flight, and whether the flight discards until it comes (R395). -/
  rxSeq : Vector Nat 16
  seeking : Vector Bool 16
  /-- Failing receive wires per flight: 0 to 67 data and spare wires, 68 the clock, 69 the track wire (R391). -/
  fails : Vector (List Nat) 16
  /-- The peer's width words at the epoch in course, and the agreed word once it is formed (R393, R394). -/
  peerRxw : Option W
  peerAw : Option W
  aw : Option W
  /-- Units that wait to leave, per lane class, oldest first, and the class whose turn it is with the units its turn has left (R392). -/
  txq : Vector (List SwItem) 4
  arbCls : Nat
  arbLeft : Nat
  /-- Next sequence number to send per flight, and the units sent and not yet acknowledged, oldest first (R395, R396). -/
  txSeq : Vector Nat 16
  held : Vector (List SwHeld) 16
  /-- Whether the message being received on each class goes on over the die's other side (R25). -/
  onward : Vector Bool 4
  deriving DecidableEq, Repr

/-! ### Engines -/

/-- A vector engine (R174): the executing task, the index of the next instruction, its registers, the open loops
(first instruction of the body, passes that remain) innermost first, its scalar inputs and its scalar output. Lane l of
V register r is at key 1024 r + l of `v`, and bit l of mask register r at key 1024 r + l of `m`. -/
structure Vx where
  task : Option Nat
  pc : Nat
  v : SMap W
  m : SMap Bool
  a : Vector W 8
  loops : List (Nat × Nat)
  sin : List (Option D)
  sout : D
  /-- Tasks the VX has started, which tells one execution of a task from another, and the code of a held word of the task that the trunk
  could not write (R230, R378). -/
  serial : Nat
  trunkErr : Nat
  deriving DecidableEq, Repr

/-- A shadow sample the spare works on (R162, R163): the sampled task, its watch entry, per sampled row the pairs of bank value and X32
recomputation, the array sampled, the passes copied and not yet computed with the bytes its copies hold, and the copies that still wait for
room, in order: their bytes, and whether they are a pass's. -/
structure Shadow where
  task : Nat
  entry : Nat
  rows : List (List (W × W))
  mx : Nat
  passes : Nat
  held : Nat
  wait : List (Nat × Bool)
  deriving DecidableEq, Repr

/-- A line of the loft (R226): its 256 bytes, its way, its tag, step-stable or frame-scoped, and whether it holds a parity error (R384):
no command of the table flips a bit of a line, and a read of one that holds such a bit is served from the home (R228). -/
structure LoftLine where
  data : List Byte
  way : Nat
  stepStable : Bool
  upset : Bool
  deriving DecidableEq, Repr

/-- A line request a die has sent and not had answered (R25, R228): the address, the tag a fill takes, whether it may fill,
whether an event has invalidated it meanwhile, and the intermediate dies of the route it started on (R26, R27). -/
structure LineReq where
  addr : Nat
  stepStable : Bool
  uncached : Bool
  killed : Bool
  via : List DieId
  deriving DecidableEq, Repr

/-- A partial code word in a combining buffer of the trunk (R230): the device address of the word, the VX that last wrote
it and the task's place in that VX's `serial`, and per byte the new value where one was written. -/
structure TrunkWord where
  addr : Nat
  vx : Nat
  serial : Nat
  bytes : List (Option Byte)
  deriving DecidableEq, Repr

/-- A side record or reduced side bucket (R249): `counts` is keyed by 8 × entry + count. -/
structure SideRec where
  step : Nat
  tokens : Nat
  count : Nat
  mismatch : Bool
  decl : D
  counts : SMap Nat
  deriving DecidableEq, Repr

/-- The numeric watch of a die (R240 to R261), besides its registers. `tab` holds DECL0 to DECL4, ST0 and ST1 of entry e at
8e to 8e + 6. -/
structure Watch where
  tab : SMap W
  acc : SMap Nat
  /-- Running counts that the next step start tick discards (R244). -/
  late : SMap Nat
  bucket : Option SideRec
  red : SideRec
  /-- WATCH_DIGEST as validation recorded it for slots A and B (R243). -/
  digA : D
  digB : D
  /-- The observation of each scalar sentinel at the opening edge of the commit frame (R257). -/
  obs : Vector (Option W) 8
  nfBits : Nat
  spikeBits : Nat
  deriving DecidableEq, Repr

/-- An entry of the version table (R268). -/
structure VEntry where
  cur : Bool
  pending : Bool
  reshard : Bool
  /-- The version, and the highest version carried by the moves of a re-shard frame (R346). -/
  version : Nat
  moved : Nat
  deriving DecidableEq, Repr

/-! ### The collective engine -/

/-- A message sent and not acknowledged (R328, R337): its OP, the task that sent it, its destination member, and whether its last sending
has not reached the link peer: a port dropped it (R308), or there was no route. -/
structure CeOut where
  op : Nat
  task : Nat
  dst : Nat
  msg : CeMsg
  lost : Bool
  deriving DecidableEq, Repr

/-- The checksum of a block from a contributor's CHECK message (R335). -/
structure CeCheck where
  bucket : Nat
  pos : Nat
  block : Nat
  cs : W
  deriving DecidableEq, Repr

/-- A version and digest that a RECORD gather keeps (R340). -/
structure GatherRec where
  key : Nat
  pos : Nat
  version : Nat
  digest : D
  deriving DecidableEq, Repr

/-- What has been received of a transfer that takes several messages: its OP, its key (a task or a bucket), the source
member and die, the bytes where they are kept, how many bytes or elements have come, and whether the one at offset 0 has. -/
structure CePart where
  op : Nat
  key : Nat
  src : Nat
  die : Nat
  bytes : SMap Byte
  n : Nat
  head : Bool
  deriving DecidableEq, Repr

/-- The collective engine of a die (R320 to R349), besides its registers. -/
structure Ce where
  out : List CeOut
  seen : List CeSeen
  checks : List CeCheck
  records : List GatherRec
  /-- Members of E, ascending (R329). -/
  excl : List Nat
  parts : List CePart
  /-- Shards a GATHER has written, as (task, position), and faults that wait for a task to issue (R338, R339). -/
  shards : List (Nat × Nat)
  waiting : List (Nat × Nat)
  /-- TREE tasks that have sent their sum up or formed the result (R332). -/
  treeUp : List Nat
  treeDone : List Nat
  /-- Side records by die, member and tree child (R333), whether the package record is formed, whether the record of the
  SIDE task's frame may go on, and whether the group's record has gone up. -/
  dieSides : List (Nat × SideRec)
  memberSides : List (Nat × SideRec)
  childSides : List (Nat × SideRec)
  pkgSent : Bool
  sideGo : Bool
  upSent : Bool
  /-- The epoch latched when a re-shard was armed (R344, R346). -/
  armEpoch : Nat
  deriving DecidableEq, Repr

/-! ### Host queues -/

/-- What a queue keeps besides its registers (R420, R424). -/
structure QueueSt where
  drops : Nat
  irqSent : Bool
  deriving DecidableEq, Repr

/-- What the package sends or drives, as the rules name it; `State.out` lists it, newest first. -/
inductive Out where
  /-- A tick forwarded or emitted on a package port by a die (R74). -/
  | tick (d : DieId) (port : Nat) (t : Tick)
  /-- A tick passed over the stairway to another die (R74). -/
  | tickToDie (d : DieId) (t : Tick)
  /-- The package's report to the master (R61). -/
  | report (r : Report)
  /-- A collective-engine message of the given OP to a member (R341). -/
  | ce (d : DieId) (op : Nat) (dstMember : Nat) (m : CeMsg)
  /-- A whole link message on a port (R295, R312). -/
  | link (port : PortId) (m : LinkMsg)
  /-- A flit on a port (R292): its 288 bytes. -/
  | flit (port : PortId) (bytes : List Byte)
  /-- A hello (R302) or a returned or new probe (R304). -/
  | hello (port : PortId) (h : Hello)
  | probe (port : PortId) (t1 t2 t3 : Nat)
  /-- An advert on the stairway sideband (R393), and a reset notice (R394). -/
  | advert (d : DieId) (e : SideId) (a : Advert)
  | resetNotice (d : DieId) (e : SideId)
  /-- A unit sent or resent on a flight of a stairway side (R390). -/
  | swUnit (d : DieId) (e : SideId) (flight : Nat) (u : SwUnit)
  /-- A resend request of a stairway flight from a sequence number (R395). -/
  | swNak (d : DieId) (e : SideId) (flight : Nat) (seq : Nat)
  /-- A notice over the stairway that a die's frame failed (R114). -/
  | frameFail (d : DieId)
  /-- A die's done state to the tick die (R78). -/
  | doneState (d : DieId) (failed : Bool)
  /-- A remote decrement sent, and its acknowledgement (R109, R111). -/
  | decrement (src dst : DieId) (srcTask task tag : Nat)
  | decrementAck (dst src : DieId) (srcTask : Nat)
  /-- A line request or remote write sent or forwarded over a stairway, and its response (R25). -/
  | lineRequest (dest : DieId) (src : DieId) (addr : Nat) (k : LineKind)
  | lineResponse (dest : DieId) (addr : Nat) (code : Nat) (data : List Byte)
  /-- Answers on PCIe (R415): a completion with data, Completer Abort, Unsupported Request; and an MSI-X message (R424). -/
  | cplData (data : List Byte)
  | cplAbort
  | cplUnsupported
  | msix (vector : Nat)
  /-- A PEER_DROP report to the steward (R398). -/
  | peerDrop (by_ : DieId) (p : DieId)
  /-- A pin driven to a level (R508, R476, R512), and a pulse of TICK_OUT (R77). -/
  | pin (name : String) (level : Bool)
  | tickOut (d : DieId)
  /-- Bytes returned on SMBus (R510), or a command the target does not acknowledge. -/
  | smb (bytes : List Byte)
  | smbNack
  /-- A die's position report on its hatch (R14). -/
  | posReport (h : DieId) (r : PosReport)
  /-- Bits shifted out of a TAP (R493). -/
  | tdo (tap : Fin 5) (bits : List Bool)
  /-- The twin's digest payload (R368). -/
  | twin (port : PortId) (payload : List Byte)
  /-- Streamed export bytes (R366). -/
  | exportBytes (d : DieId) (dst : Nat) (off : Nat) (bytes : List Byte)
  deriving DecidableEq, Repr

/-! ### Journal, export and twins -/

/-- The journal record in course on a die (R353 to R355): the header fields fixed at the opening edge or collected since,
and the items in the order of their events. -/
structure JRec where
  isOpen : Bool
  outcome : Nat
  step : Nat
  startTick : Nat
  endTick : Nat
  startTs : Nat
  epoch : Nat
  pgen : Nat
  sdigest : D
  rtDigest : D
  flags : Nat
  abandons : Nat
  dieDig : List Byte
  pkgDig : List Byte
  twinDig : List Byte
  eDigest : D
  exclFrame : Nat
  eCount : Nat
  failCode : Nat
  failFrame : Nat
  feedMark : List Nat
  feedEnd : List Nat
  phase : List Nat
  sentLast : List W
  sentNf : Nat
  sentSpike : Nat
  tokens : Nat
  items : List (List Byte)
  itemsDropped : Nat
  deriving DecidableEq, Repr

/-- A twin digest (R368): STEP, PKG_DIGEST and E_DIGEST. -/
structure TwinDig where
  step : Nat
  pkg : List Byte
  e : D
  deriving DecidableEq, Repr

/-- The journal writer, replay, the export copier and the twin unit of a die (R350 to R370), besides their registers. -/
structure Jrnl where
  recd : JRec
  /-- Records dropped since the last record written (R357). -/
  dropped : Nat
  /-- CRC-A and CRC-B of each task of the step that has written bytes of a next slot (R351). -/
  crc : SMap (Option (D × D))
  /-- Replay: offset of the next record of the source, the record in force, and whether a miss holds the step (R359). -/
  cursor : Nat
  record : Option (List Byte)
  missed : Bool
  /-- The next journal record marks a ladder reset (R259). -/
  ladderReset : Bool
  /-- Enabled export entries (R363), the step of the copy that runs (R364), and entries' stream position (R366). -/
  entries : List Nat
  copyStep : Nat
  /-- Whether an export stream runs, the buffer it holds, whether a stream waits for the copy in course to end, and the bytes dropped beyond
  the receive window, which no register shows (R366). -/
  streaming : Bool
  streamBuf : Nat
  streamWait : Bool
  rxDropped : Nat
  /-- This package's last digest and the twin's digests of the two highest steps (R368); tick die only. -/
  own : Option TwinDig
  peer : List TwinDig
  /-- DIE_DIGEST and the STEP it was formed for (R352). -/
  dieDig : Option (Nat × List Byte)
  twinWait : Bool
  /-- The report of the commit frame waits for the comparison or for the copy (R369, R365). -/
  held : Bool
  deriving DecidableEq, Repr

/-- What memory integrity keeps of a die besides its registers (R382 to R384). -/
structure Integ where
  lapCorr : Nat
  next : Nat
  ageBase : Nat
  slowRaised : Bool
  /-- CE_RATE has been raised in the lap (R377). -/
  rateRaised : Bool
  deriving DecidableEq, Repr

/-- One Nirtar die. -/
structure Die where
  disp : Disp
  tick : TickDie
  vx : Vector Vx 2
  /-- The program store of the vector engines, loaded at slot activation (R176). -/
  prog : List D
  /-- Accumulators: element (row, col) of bank b of array m at key ((2 m + b) 256 + row) 256 + col (R154). -/
  acc : SMap W
  shadow : List Shadow
  /-- The array that last held each rank (R166, R172). -/
  lastArray : Vector Nat 6
  /-- Shelf contents: element index of the shelf, a pair of X32 values in one 64-bit word (R202). -/
  shelf : SMap D
  /-- A spilled row has been written since the last step start tick (R211). -/
  spilled : Bool
  /-- Lines of the loft by line address ÷ 256, and the tree state of each set: bit n of a set's entry is node n, 1 when the
  next victim lies on the node's upper side (R226). -/
  loft : SMap (Option LoftLine)
  plru : SMap Nat
  lineReqs : List LineReq
  trunk : List TrunkWord
  watch : Watch
  vtab : SMap VEntry
  ce : Ce
  jrnl : Jrnl
  integ : Integ
  sides : Vector Side 2
  /-- Routing tables (R313): PORTS and ALT of member m of bank b, as RT_ENTRY reads them, at key 4096 b + m, bank 0 the
  active bank. -/
  rt : SMap W
  /-- Pages of units whose last self-test failed (R488). -/
  notReady : List Nat
  deriving DecidableEq, Repr

/-! ### The steward -/

/-- A 64-byte submission entry in execution (R425), and its number. -/
structure Cmd where
  bytes : List Byte
  deriving DecidableEq, Repr

/-- Why the compute dies stand still: they do not; a thermal trip (R476); scan state (R494); the package is held in reset
after a fall of PWRGD (R501). -/
inductive Halt where
  | none
  | trip
  | scan
  | off
  deriving DecidableEq, Repr

/-- A CFG command in course (R452). -/
structure CfgJob where
  op : Nat
  slot : Nat
  src : Nat
  len : Nat
  deriving DecidableEq, Repr

/-- What the service record of R495 holds: registers by BAR0 offset, and a snapshot of every tally. -/
structure ServiceRec where
  regs : List (Nat × W)
  tallies : SMap Tally
  deriving DecidableEq, Repr

/-- The steward, the package pins and the host side, besides their registers. -/
structure Steward where
  /-- The half of its working region that the steward runs from: 0 in die 0's cellar, 1 in die 2's (R21). What it keeps there is its own. -/
  half : Fin 2
  /-- Fuses: device identity, roll-back floor (R451, R453). -/
  deviceId : Nat
  floor : Nat
  /-- The two records of the LMS state area (R455). -/
  lmsA : Option Nat
  lmsB : Option Nat
  /-- The boot log's trip record (R476), a trip whose record is not yet written, and the service records (R495). -/
  trip : Option (Nat × Nat)
  tripPend : Option (Nat × Nat)
  service : List ServiceRec
  /-- The 256 Mbit configuration flash (R443), erased bytes reading 0xFF. -/
  flash : SMap Byte
  /-- What the last power-on reset found. -/
  env : BootEnv
  halt : Halt
  /-- Boot options, user adjustments by 65536 × ID + INDEX, and hashes of the firmware and record in force (R449, R454). -/
  opts : Nat
  cal : SMap W
  fwHash : List Byte
  cfgHash : List Byte
  /-- Position reports received: hatch port and value (R15). -/
  reports : List (Nat × Nat)
  /-- PEER_DROP reports held, as (reporter, die), and dies that have sent a reset notice (R398). -/
  drops : List (Nat × Nat)
  notices : List Nat
  /-- Strap samples taken by each die, oldest first (R14). -/
  straps : Vector (List Nat) 4
  /-- The CFG command in course, the body of the report in preparation (R454), and the die and slot of a control-store load
  (R491). -/
  cfgJob : Option CfgJob
  att : Option (List Byte)
  csJob : Option (Nat × Nat)
  /-- The exit of an idle state is in progress (R464). -/
  waking : Bool
  /-- Sum and number of the power samples of the control interval (R467). -/
  psum : Nat
  pcnt : Nat
  /-- Raw sensor readings in 1/16 degree, by 16 × die + sensor (R469). -/
  raws : SMap Int
  /-- The register address of the management target (R510). -/
  smbAddr : Nat
  /-- Instruction and boundary register of each TAP: the steward, then dies 0 to 3 (R493). -/
  taps : Vector TapInstr 5
  bnd : Vector (List Bool) 5
  /-- The submission entry in execution (R425). -/
  cmd : Option Cmd
  /-- The AER Uncorrectable Error Status bits of a Completer Abort and of an Unsupported Request (R415). -/
  aerAbort : Bool
  aerUnsup : Bool
  /-- The tally list (R429), and the tallies latched at the last tick edge of each die, by list entry. -/
  tlist : SMap W
  tlatch : SMap Tally
  deriving DecidableEq, Repr

/-! ### The package -/

/-- The state of one X4 package and of the host memory it reaches. -/
structure State where
  /-- Commands that wait, first in, first out. -/
  pending : List Instr
  /-- The 1 GHz package reference clock count, the steward's time stamp (R58). -/
  time : Nat
  /-- Registers by BAR0 offset; an unlisted one holds its reset value. -/
  regs : SMap W
  /-- Selector registers and latches held per requester (R36, R45, R46, R421): key = requester × 2^28 + BAR0 offset. -/
  sel : SMap W
  hiLatch : SMap W
  loShadow : SMap (Option W)
  /-- Live and snapshot tallies, and the part of a unit already counted towards the next increment (R53, R55, R173): key =
  page base + index. -/
  tally : SMap Tally
  snap : SMap Tally
  rem : SMap Nat
  /-- Package memory by device address (R20), and the host's memory. -/
  mem : List Host.Cell
  hostMem : SMap Byte
  /-- Corrupted symbols of a code word, by device address ÷ 64 (R374, R385). -/
  errs : SMap Nat
  dies : Vector Die 4
  ports : Vector Port 16
  master : Master
  done : Vector DoneSt 4
  stw : Steward
  queues : Vector QueueSt 32
  /-- What the package has sent or driven, newest first. -/
  out : List Out
  /-- The model's own counter of free values drawn. -/
  fresh : Nat
  deriving DecidableEq, Repr

/-! ### Defaults of unlisted keys -/

/-- Reset values of a watch table entry's words (R262): DECL0 to DECL4, ST0, ST1. -/
def zwatch : Nat → W := fun k =>
  match k % 8 with
  | 0 => 0x00013000
  | 1 => 1
  | 2 | 3 | 4 => 0xFFFFFFFF
  | _ => 0
/-- An unlisted W entry reads 0. -/
def z32 : Nat → W := fun _ => 0
/-- An unlisted byte reads 0: package memory is filled with zero data before use (R380). -/
def zb : Nat → Byte := fun _ => 0
/-- An unlisted flash byte is erased. -/
def zflash : Nat → Byte := fun _ => 0xFF
/-- An unlisted count is 0. -/
def zn : Nat → Nat := fun _ => 0
/-- An unlisted tally is 0 and not saturated (R53). -/
def zt : Nat → Tally := fun _ => ⟨0, false⟩
/-- No shadow is pending (R46). -/
def zo : Nat → Option W := fun _ => none
/-- An unlisted 64-bit word reads 0. -/
def z64 : Nat → D := fun _ => 0
/-- An unlisted mask bit reads 0. -/
def zbool : Nat → Bool := fun _ => false
/-- A task that has written no byte of a next slot (R351). -/
def zcrc : Nat → Option (D × D) := fun _ => none
/-- A task not yet issued. -/
def ztask : Nat → TaskSt := fun _ => .idle
/-- A sensor not yet read. -/
def zi : Nat → Int := fun _ => 0
/-- No line held. -/
def zline : Nat → Option LoftLine := fun _ => none
/-- A version entry after RESET (R268): CUR 0, PENDING 0, version 0. -/
def zv : Nat → VEntry := fun _ => ⟨false, false, false, 0, 0⟩

/-! ### The state after reset -/

/-- A slot that holds no image. -/
def Slot.reset : Slot := ⟨0, 0, 0, 0, 0⟩

/-- The dispatcher after reset. -/
def Disp.reset : Disp := ⟨Slot.reset, Slot.reset, [], [], [], [], 0, 0, false, none, [], [], [], 0, [], []⟩

/-- The beat of a die after reset. -/
def TickDie.reset : TickDie :=
  ⟨[], none, 0, none, false, false, false, Vector.replicate 12 0, Vector.replicate 12 0, none, []⟩

/-- A vector engine after reset. -/
def Vx.reset : Vx := ⟨none, 0, [], [], Vector.replicate 8 0, [], [], 0, 0, 0⟩

/-- An empty side record. -/
def SideRec.reset : SideRec := ⟨0, 0, 0, false, 0, []⟩

/-- The watch of a die after reset. -/
def Watch.reset : Watch := ⟨[], [], [], none, SideRec.reset, 0, 0, Vector.replicate 8 none, 0, 0⟩

/-- The collective engine of a die after reset. -/
def Ce.reset : Ce := ⟨[], [], [], [], [], [], [], [], [], [], [], [], [], false, false, false, 0⟩

/-- No journal record. -/
def JRec.reset : JRec :=
  { isOpen := false, outcome := 0, step := 0, startTick := 0, endTick := 0, startTs := 0, epoch := 0, pgen := 0
    sdigest := 0, rtDigest := 0, flags := 0, abandons := 0, dieDig := [], pkgDig := [], twinDig := [], eDigest := 0
    exclFrame := 0xFFFF, eCount := 0, failCode := 0, failFrame := 0, feedMark := [], feedEnd := [], phase := []
    sentLast := [], sentNf := 0, sentSpike := 0, tokens := 0, items := [], itemsDropped := 0 }

/-- The journal of a die after reset. -/
def Jrnl.reset : Jrnl :=
  { recd := JRec.reset, dropped := 0, crc := [], cursor := 0, record := none, missed := false, ladderReset := false
    entries := [], copyStep := 0, streaming := false, streamBuf := 0, streamWait := false, rxDropped := 0, own := none, peer := [], dieDig := none, twinWait := false
    held := false }

/-- A stairway side after reset. -/
def Side.reset : Side :=
  { rxSeq := Vector.replicate 16 0, seeking := Vector.replicate 16 false, fails := Vector.replicate 16 []
    peerRxw := none, peerAw := none, aw := none, txq := Vector.replicate 4 [], arbCls := 1, arbLeft := 0
    txSeq := Vector.replicate 16 0, held := Vector.replicate 16 [], onward := Vector.replicate 4 false }

/-- A die after reset. -/
def Die.reset : Die :=
  { disp := Disp.reset, tick := TickDie.reset, vx := Vector.replicate 2 Vx.reset, prog := [], acc := [], shadow := []
    lastArray := #v[0, 1, 2, 3, 4, 5]
    shelf := [], spilled := false, loft := [], plru := [], lineReqs := [], trunk := [], watch := Watch.reset, vtab := [], ce := Ce.reset
    jrnl := Jrnl.reset, integ := ⟨0, 0, 0, false, false⟩, sides := Vector.replicate 2 Side.reset, rt := [], notReady := [] }

/-- A link port after reset. -/
def Port.reset : Port :=
  ⟨0, Vector.replicate 4 [], 1, 0, [], 0, false, 0, 0, Vector.replicate 4 0, Vector.replicate 4 0, Vector.replicate 4 [], [], [], []⟩

/-- The tick master after reset. -/
def Master.reset : Master :=
  { st := .off, tick := 0, step := 0, frame := 0, type := 0, openAt := 0, members := [], reports := [], contrib := []
    excluded := [], minPassed := false, bad := false, abandons := 0
    heldFrame := 0, heldStep := 0, stopPending := false, resumeWait := false }

/-- A power-on reset whose tests find nothing. -/
def BootEnv.reset : BootEnv := ⟨false, false, 0, [], [], [], [], []⟩

/-- The steward after reset. -/
def Steward.reset : Steward :=
  { half := 0, deviceId := 0, floor := 0, lmsA := none, lmsB := none, trip := none, tripPend := none, service := [], flash := []
    env := BootEnv.reset, halt := .none, opts := 0, cal := [], fwHash := [], cfgHash := [], reports := [], drops := []
    notices := [], straps := Vector.replicate 4 [], cfgJob := none, att := none, csJob := none, waking := false
    psum := 0, pcnt := 0, raws := [], smbAddr := 0, taps := Vector.replicate 5 .idcode, bnd := Vector.replicate 5 []
    cmd := none, aerAbort := false, aerUnsup := false, tlist := [], tlatch := [] }

/-- The package right after power-on reset, before the boot ROM has run: every register at its Reset value (R10). -/
def State.reset : State :=
  { pending := [], time := 0, regs := [], sel := [], hiLatch := [], loShadow := [], tally := [], snap := [], rem := []
    mem := [], hostMem := [], errs := [], dies := Vector.replicate 4 Die.reset, ports := Vector.replicate 16 Port.reset
    master := Master.reset, done := Vector.replicate 4 ⟨false, false, false⟩, stw := Steward.reset
    queues := Vector.replicate 32 ⟨0, false⟩, out := [], fresh := 0 }

end Sys2Proof.Machine
end

