-- ==== Sys2Proof/Machine/Ops.lean ====
section
/-!
DEFINITION. Ops.lean: the named operations over registers, register fields, dies and bytes; the error codes of R51; the
address map and the checks of a memory access (R20 to R24, R518).
-/
namespace Sys2Proof.Machine

/-! ### Numbers as little-endian bytes -/

/-- The value of little-endian bytes. -/
def leNat : List Byte → Nat
  | [] => 0
  | b :: bs => b.toNat + 256 * leNat bs

/-- `n` little-endian bytes of a value. -/
def leBytes : Nat → Nat → List Byte
  | 0, _ => []
  | n + 1, v => BitVec.ofNat 8 v :: leBytes n (v / 256)

/-- Bit `i` of a natural number. -/
def bit (v i : Nat) : Bool := v / 2 ^ i % 2 == 1

/-- 1 for true. -/
def b2n (b : Bool) : Nat := if b then 1 else 0

/-- Bits `lo + w - 1` to `lo`. -/
def bits (v lo w : Nat) : Nat := v / 2 ^ lo % 2 ^ w

/-- Quotient rounded up. -/
def cdiv (a b : Nat) : Nat := (a + b - 1) / b

/-! ### Error codes (R51) -/
/-- R51. -/ def eOK : Nat := 0x0000
/-- R51. -/ def eBAD_VALUE : Nat := 0x0101
/-- R51. -/ def eBAD_WIDTH : Nat := 0x0102
/-- R51. -/ def eBAD_INDEX : Nat := 0x0103
/-- R51. -/ def eUNMAPPED : Nat := 0x0104
/-- R51. -/ def eBAD_DESCRIPTOR : Nat := 0x0105
/-- R51. -/ def eBAD_ENCODING : Nat := 0x0106
/-- R51. -/ def eBAD_SHAPE : Nat := 0x0107
/-- R51. -/ def eBAD_ALIGNMENT : Nat := 0x0108
/-- R51. -/ def eBAD_OPCODE : Nat := 0x0109
/-- R51. -/ def eGRAPH_CYCLE : Nat := 0x010A
/-- R51. -/ def eWEIGHT_ALIASED : Nat := 0x010B
/-- R51. -/ def eCAL_BOUNDS : Nat := 0x010C
/-- R51. -/ def eLOCKED : Nat := 0x0201
/-- R51. -/ def eNOT_READY : Nat := 0x0202
/-- R51. -/ def eUNIT_BUSY : Nat := 0x0203
/-- R51. -/ def eUNIT_FENCED : Nat := 0x0204
/-- R51. -/ def eSLOT_ACTIVE : Nat := 0x0205
/-- R51. -/ def eSTALE_VERSION : Nat := 0x0206
/-- R51. -/ def eLAYOUT_BUSY : Nat := 0x0207
/-- R51. -/ def eFRAME_FAILED : Nat := 0x0208
/-- R51. -/ def eSTEP_ABANDONED : Nat := 0x0209
/-- R51. -/ def ePOS_CONFLICT : Nat := 0x020A
/-- R51. -/ def ePOS_UNSTABLE : Nat := 0x020B
/-- R51. -/ def eCOOLANT_STOP : Nat := 0x020C
/-- R51. -/ def eQUEUE_FULL : Nat := 0x0301
/-- R51. -/ def eGRAPH_TOO_LARGE : Nat := 0x0302
/-- R51. -/ def eFEED_GAP : Nat := 0x0303
/-- R51. -/ def eNO_SPARE : Nat := 0x0304
/-- R51. -/ def eSPILL_FULL : Nat := 0x0305
/-- R51. -/ def eGRAPH_VERSION : Nat := 0x0401
/-- R51. -/ def eHOST_VERSION : Nat := 0x0402
/-- R51. -/ def eLINK_VERSION : Nat := 0x0403
/-- R51. -/ def eCFG_VERSION : Nat := 0x0404
/-- R51. -/ def eACCESS_DENIED : Nat := 0x0501
/-- R51. -/ def eSIG_ECDSA : Nat := 0x0502
/-- R51. -/ def eSIG_LMS : Nat := 0x0503
/-- R51. -/ def eHASH_MISMATCH : Nat := 0x0504
/-- R51. -/ def eROLLBACK : Nat := 0x0505
/-- R51. -/ def eLMS_EXHAUSTED : Nat := 0x0506
/-- R51. -/ def eUNCORRECTABLE : Nat := 0x0601
/-- R51. -/ def ePARITY : Nat := 0x0602
/-- R51. -/ def eREDUCE_DISAGREE : Nat := 0x0603
/-- R51. -/ def eTWIN_MISMATCH : Nat := 0x0604
/-- R51. -/ def eGATHER_MISMATCH : Nat := 0x0605
/-- R51. -/ def eCHECKER_FAIL : Nat := 0x0606
/-- R51. -/ def eDIE_LOST : Nat := 0x0701
/-- R51. -/ def eDIE_UNREACHABLE : Nat := 0x0702
/-- R51. -/ def eLINK_DOWN : Nat := 0x0703
/-- R51. -/ def eNO_ROUTE : Nat := 0x0704
/-- R51. -/ def eWIDTH_MISMATCH : Nat := 0x0705
/-- R51. -/ def eMEMBER_SILENT : Nat := 0x0706

/-! ### Registers -/

/-- The register at BAR0 offset `a`. -/
def rd (s : State) (a : Nat) : W := sget regReset s.regs a

/-- Sets the register at BAR0 offset `a`. -/
def wr (a : Nat) (v : W) (s : State) : State := { s with regs := sset regReset s.regs a v }

/-- Field `f` of a register value. -/
def fld (v : W) (f : Fld) : Nat := v.toNat / 2 ^ f.lo % 2 ^ f.width

/-- A register value with field `f` replaced. -/
def setFld (v : W) (f : Fld) (n : Nat) : W :=
  BitVec.ofNat 32 (v.toNat - fld v f * 2 ^ f.lo + n % 2 ^ f.width * 2 ^ f.lo)

/-- Field `f` of the page at `p`. -/
def gf (s : State) (p : Nat) (f : Fld) : Nat := fld (rd s (p + f.off)) f

/-- Sets field `f` of the page at `p`. -/
def sf (p : Nat) (f : Fld) (n : Nat) (s : State) : State := wr (p + f.off) (setFld (rd s (p + f.off)) f n) s

/-- A 64-bit register pair, LO at `a` (R45). -/
def rd64 (s : State) (a : Nat) : Nat := (rd s a).toNat + 2 ^ 32 * (rd s (a + 4)).toNat

/-- Sets a 64-bit register pair. -/
def wr64 (a : Nat) (v : Nat) (s : State) : State := wr (a + 4) (BitVec.ofNat 32 (v / 2 ^ 32)) (wr a (BitVec.ofNat 32 v) s)

/-! ### Dies, ports and outputs -/

/-- Changes die `d`. -/
def onDie (d : DieId) (f : Die → Die) (s : State) : State := { s with dies := s.dies.set d (f s.dies[d]) }

/-- Changes port `p`. -/
def onPort (p : PortId) (f : Port → Port) (s : State) : State := { s with ports := s.ports.set p (f s.ports[p]) }

/-- Records something the package sends or drives. -/
def emit (o : Out) (s : State) : State := { s with out := o :: s.out }

/-- Records outputs in order. -/
def emits (os : List Out) (s : State) : State := { s with out := os.reverse ++ s.out }

/-- Draws a fresh index for a free value. -/
def drawFresh (s : State) : Nat × State := (s.fresh, { s with fresh := s.fresh + 1 })

/-- Clockwise, anticlockwise and diagonal neighbours (R12). -/
def cwDie (d : DieId) : DieId := d + 1
/-- R12. -/ def ccwDie (d : DieId) : DieId := d + 3
/-- R12. -/ def diagDie (d : DieId) : DieId := d + 2

/-- The four dies in ascending order. -/
def allDies : List DieId := [0, 1, 2, 3]

/-- Page base of the steward side of hatch port `h`. -/
def pgHTSof (h : DieId) : Nat := pgHTS + h.val * 0x1000

/-- Page base of queue `q`. -/
def pgQ (q : Nat) : Nat := pgQUEUE + q * 0x1000

/-- Page bases of arrays, vector engines, movers, stairway sides and stack controllers of a die. -/
def pgMXof (d : DieId) (m : Nat) : Nat := pgMX d + m * 0x1000
/-- R48. -/ def pgVXof (d : DieId) (v : Nat) : Nat := pgVX d + v * 0x1000
/-- R48. -/ def pgMVof (d : DieId) (n : Nat) : Nat := pgMV d + n * 0x1000
/-- R48. -/ def pgSWof (d : DieId) (e : SideId) : Nat := pgSW d + e.val * 0x1000
/-- R48. -/ def pgSCof (d : DieId) (c : Nat) : Nat := pgSC d + c * 0x1000

/-- The die of package port `p`, and its die-local number (R18). -/
def portDie (p : PortId) : DieId := ⟨(p.val / 4 + 1) % 4, Nat.mod_lt _ (by decide)⟩
/-- R18. -/ def portLocal (p : PortId) : Nat := p.val % 4
/-- R18. -/ def diePort (d : DieId) (k : Fin 4) : PortId := ⟨4 * ((d.val + 3) % 4) + k.val, by omega⟩
/-- R48. -/ def pgLPof (p : PortId) : Nat := pgLP (portDie p) + portLocal p * 0x1000

/-- The steward's view of die `h` is RUNNING (R401); every other view makes accesses to the die return DIE_LOST. -/
def dieLive (s : State) (h : DieId) : Bool := gf s (pgHTSof h) HTS_DIE_STATE == 2

/-- The live dies, ascending. -/
def liveDies (s : State) : List DieId := allDies.filter (dieLive s)

/-- The coolant stop is in force (R473, R474). -/
def stopped (s : State) : Bool := gf s pgTRAY TRAY_STOP_STOPPED == 1

/-- The power state of the package (R462). -/
def pState (s : State) : Nat := gf s pgPCAP PCAP_STATE_PSTATE

/-- The hardware of die `h` has power and a clock, whether or not it is released (R401, R462). -/
def dieUp (s : State) (h : DieId) : Bool :=
  let st := gf s (pgHTSof h) HTS_DIE_STATE
  (st == 1 || st == 2 || st == 4 || st == 5) && (pState s != 4 || s.stw.waking)

/-- A step of the compute dies, which takes place while their clocks run: after a thermal trip, in scan state and while PWRGD
is low it has no effect (R476, R494, R501). -/
def clocked (f : State → State) (s : State) : State := if s.stw.halt = .none then f s else s

/-- A step of the steward, which has no effect while the package is held in reset (R501). -/
def onPower (f : State → State) (s : State) : State := if s.stw.halt = .off then s else f s

/-- A step of the hardware of die `h`. -/
def dieStep (h : DieId) (f : State → State) (s : State) : State := if s.stw.halt = .none ∧ dieUp s h then f s else s

/-- Whether a unit's page shows it fenced (R37). -/
def fenced (s : State) (p : Nat) : Bool := gf s p FENCE_FENCED == 1

/-- The time stamp a home reads: 0 while its counter is not synchronised (R58). -/
def timeStamp (s : State) (home : Nat) : Nat :=
  if home < 4 then (if gf s (home * 0x1000000 + 0x2000) TS_STAT_SYNCED = 1 then s.time % 2 ^ 64 else 0) else s.time % 2 ^ 64

/-! ### The address map (R20 to R24) -/

/-- A region of the device address space. -/
inductive Region where
  | cellar (d : DieId)
  | store (d : DieId)
  | regs (home : Nat)
  deriving DecidableEq, Repr

/-- Base of the cellar and store-room window of a die (R20). -/
def cellarBase (d : DieId) : Nat := d.val * 0x4000000000
/-- R20. -/ def storeBase (d : DieId) : Nat := 0x100000000000 + d.val * 0x40000000
/-- Populated bytes of a cellar and of a store room (R20). -/
def cellarSize : Nat := 0x37E11A0000
/-- R20. -/ def storeSize : Nat := 0xC000000

/-- The region whose populated part holds address `a`. -/
def regionAt (a : Nat) : Option Region :=
  if a < 0x10000000000 then
    if a % 0x4000000000 < cellarSize then some (.cellar ⟨a / 0x4000000000 % 4, Nat.mod_lt _ (by decide)⟩) else none
  else if 0x100000000000 ≤ a ∧ a < 0x100100000000 then
    if a % 0x40000000 < storeSize then some (.store ⟨(a - 0x100000000000) / 0x40000000 % 4, Nat.mod_lt _ (by decide)⟩)
    else none
  else if 0x200000000000 ≤ a then
    if (pageAt (a - 0x200000000000)).isSome then some (.regs ((a - 0x200000000000) / 0x1000000)) else none
  else none

/-- Whether every page that a range of a register space touches is listed (R20); a range elsewhere touches no page. -/
def pagesListed (r : Region) (a n : Nat) : Bool :=
  match r with
  | .regs _ => (List.range ((a + n - 1) / 4096 - a / 4096 + 1)).all fun k => (pageAt ((a / 4096 + k) * 4096 - 0x200000000000)).isSome
  | _ => true

/-- The region that holds every byte of a range, when one does (R24). -/
def regionOf (a n : Nat) : Option Region :=
  match regionAt a, regionAt (a + (n - 1)) with
  | some r, some r' => if r = r' ∧ n ≤ 0x40000000000 ∧ pagesListed r a n then some r else none
  | _, _ => none

/-- The steward's working region (R21). -/
def inSteward (a n : Nat) : Bool :=
  (decide (a < 0x37E11A0000) && decide (0x37611A0000 < a + n)) || (decide (a < 0xB7E11A0000) && decide (0xB7611A0000 < a + n))

/-- Who makes a memory access (R23). -/
inductive MemReq where
  | mover (d : DieId)
  | engine (d : DieId)
  | cc (d : DieId)
  | host
  | steward
  | ce (d : DieId)
  | disp (d : DieId)
  | copier (d : DieId)
  | trunk (d : DieId)
  | scrub (d : DieId)
  deriving DecidableEq, Repr

/-- The die a requester stands on; the host and the steward stand on none. -/
def MemReq.die : MemReq → Option DieId
  | .mover d | .engine d | .cc d | .ce d | .disp d | .copier d | .trunk d | .scrub d => some d
  | .host | .steward => none

/-- What a requester reaches (R23). Register spaces are reached by register accesses only. -/
def MemReq.reaches (w : MemReq) (r : Region) (write : Bool) : Bool :=
  match w, r with
  | .mover _, .cellar _ => true
  | .mover _, .store _ => true
  | .engine d, .store h => d == h
  | .cc _, .cellar _ => true
  | .cc d, .store h => d == h
  | .host, .cellar _ => true
  | .steward, .cellar _ => true
  | .steward, .store _ => true
  | .ce d, .cellar h => d == h
  | .ce d, .store h => d == h
  | .disp d, .cellar h => d == h && !write
  | .copier d, .cellar h => d == h
  | .trunk d, .store h => d == h
  | .scrub d, .cellar h => d == h
  | .scrub d, .store h => d == h
  | _, _ => false

/-- The home die of a region; the steward's register space has none. -/
def Region.home : Region → Option DieId
  | .cellar d => some d
  | .store d => some d
  | .regs 0 => some 0
  | .regs 1 => some 1
  | .regs 2 => some 2
  | .regs 3 => some 3
  | .regs _ => none

/-- A write into the image range of a slot that is not EMPTY (R108). -/
def imageProtected (s : State) (a n : Nat) : Bool :=
  allDies.any fun d =>
    let hit (sl : Slot) (st : Nat) := st != 0 && decide (a < sl.base + sl.len) && decide (sl.base < a + n)
    hit s.dies[d].disp.slotA (gf s (pgDISP d) DISP_SLOT_A_STATE) || hit s.dies[d].disp.slotB (gf s (pgDISP d) DISP_SLOT_B_STATE)

/-! ### Edges and routes of the ring (R26, R27, R397) -/

/-- The die across side `e` of die `d`: SW-CW faces the clockwise neighbour, SW-CCW the anticlockwise one (R13). -/
def across (d : DieId) (e : SideId) : DieId := if e = 0 then cwDie d else ccwDie d

/-- Training state of a side (R406). -/
def swState (s : State) (d : DieId) (e : SideId) : Nat := gf s (pgSWof d e) SW_STATE_STATE

/-- Whether the edge of side `e` of die `d` can carry traffic now or after its retrain: neither side FAILED or fenced. -/
def edgeWorks (s : State) (d : DieId) (e : SideId) : Bool :=
  let d' := across d e
  let e' : SideId := 1 - e
  swState s d e != 6 && swState s d' e' != 6 && !fenced s (pgSWof d e) && !fenced s (pgSWof d' e')

/-- An edge that has failed between two live dies (R397). -/
def edgeCut (s : State) (d : DieId) (e : SideId) : Bool :=
  dieLive s d && dieLive s (across d e) && !edgeWorks s d e

/-- Dies that a die reaches over working edges and live dies, itself included. -/
def reaches (s : State) (d : DieId) : List DieId :=
  let step (l : List DieId) : List DieId :=
    allDies.filter fun h => l.contains h || (dieLive s h &&
      ((l.contains (ccwDie h) && edgeWorks s h 1) || (l.contains (cwDie h) && edgeWorks s h 0)))
  step (step (step [d]))

/-- The intermediate die of a diagonal access from `d`: the route in use (R26, R27). -/
def diagVia (s : State) (d : DieId) : DieId :=
  if gf s (pgTOPO d) TOPO_ROUTE_DIAG_ACTIVE = 1 then ccwDie d else cwDie d

/-- The intermediate dies of the route in use from die `d` to die `h`, in order: none for a neighbour, the other two dies of the ring
when the edge to it has failed with both dies live (R397), and one neighbour for the diagonal die (R26). -/
def routeVia (s : State) (d h : DieId) : List DieId :=
  if h = d then []
  else if h = cwDie d then (if edgeCut s d 0 then [ccwDie d, diagDie d] else [])
  else if h = ccwDie d then (if edgeCut s d 1 then [cwDie d, diagDie d] else [])
  else [diagVia s d]

/-- Checks 4 and 5 of R518 on an access from die `d` to home `h`. DEDUCED: check 4 asks for a route over working edges and live dies,
of which the diagonal die's two neighbours are the rule's own case; a neighbour behind a failed edge has the detour of R397 alone. -/
def routeCheck (s : State) (d h : DieId) : Nat :=
  if h = d then eOK
  else if !(reaches s d).contains h then eDIE_UNREACHABLE
  else if !(routeVia s d h).all (dieLive s) then eDIE_LOST
  else eOK

/-- Checks 1 to 5 of R518 on a memory access: eOK, or the code of the first check that fails. -/
def accessCheck (w : MemReq) (a n : Nat) (write : Bool) (s : State) : Nat :=
  match regionOf a n with
  | none => eUNMAPPED
  | some r =>
    match r.home with
    | none => eACCESS_DENIED
    | some h =>
      if !dieLive s h then eDIE_LOST
      else if !w.reaches r write then eACCESS_DENIED
      else if inSteward a n && !(match w with | .steward => true | .scrub _ => true | _ => false) then eACCESS_DENIED
      else if write && imageProtected s a n then eACCESS_DENIED
      else match w.die with
        | none => eOK
        | some d => routeCheck s d h

/-! ### Bytes -/

/-- `n` bytes of package memory from `a`, as they stand. -/
def peek (s : State) (a n : Nat) : List Byte := sgetList zb s.mem a n

/-- Sets bytes of package memory from `a`. -/
def poke (a : Nat) (bs : List Byte) (s : State) : State := { s with mem := ssetList zb s.mem a bs }

/-- `n` bytes of host memory from `a`. -/
def hostPeek (s : State) (a n : Nat) : List Byte := sgetList zb s.hostMem a n

/-- Sets bytes of host memory from `a`. -/
def hostPoke (a : Nat) (bs : List Byte) (s : State) : State := { s with hostMem := ssetList zb s.hostMem a bs }

/-- The canonical form of package memory. -/
def Memory.wf (m : List Host.Cell) : Bool := swf zb m

/-! ### Lists of steps -/

/-- Applies a step for each element in order. -/
def forEach {α : Type} (f : α → State → State) : List α → State → State
  | [], s => s
  | x :: xs, s => forEach f xs (f x s)

/-- Applies a step for each element in order until one answers a code other than OK. -/
def forUntil {α : Type} (f : α → State → State × Nat) : List α → State → State × Nat
  | [], s => (s, eOK)
  | x :: xs, s =>
    match f x s with
    | (s', 0) => forUntil f xs s'
    | (s', c) => (s', c)

end Sys2Proof.Machine
end

