-- ==== Sys2Proof/Machine/Crc.lean ====
section
/-!
DEFINITION. Crc.lean: the checks and hashes of the X4: the 64-bit CRCs of R350, CRC-32C of R292, the CRC-16 of R390, the
generator of R279 and the sampling hash of R245.
-/
namespace Sys2Proof.Machine

/-- One byte, least significant bit first, through a reflected CRC with reversed polynomial `poly`. -/
def crcStep {n : Nat} (poly : BitVec n) (c : BitVec n) : Nat → BitVec n
  | 0 => c
  | k + 1 => crcStep poly (if c.getLsbD 0 then (c >>> 1) ^^^ poly else c >>> 1) k

/-- A reflected CRC register after a stream of bytes. -/
def crcRun {n : Nat} (poly : BitVec n) : BitVec n → List Byte → BitVec n
  | c, [] => c
  | c, b :: bs => crcRun poly (crcStep poly (c ^^^ b.setWidth n) 8) bs

/-- CRC-A: polynomial 0x42F0_E1EB_A9EA_3693, here bit-reversed for the reflected form (R350). -/
def polyA : D := 0xC96C5795D7870F42
/-- CRC-B: polynomial 0xAD93_D235_94C9_35A9, bit-reversed (R350). -/
def polyB : D := 0x95AC9329AC4BC9B5

/-- CRC-A over a byte stream (R350). -/
def crcA (bs : List Byte) : D := crcRun polyA (BitVec.allOnes 64) bs ^^^ BitVec.allOnes 64
/-- CRC-B over a byte stream (R350). -/
def crcB (bs : List Byte) : D := crcRun polyB (BitVec.allOnes 64) bs ^^^ BitVec.allOnes 64

/-- A CRC of R350 continued from its value over the bytes before. -/
def crcMore (poly c : D) (bs : List Byte) : D := crcRun poly (c ^^^ BitVec.allOnes 64) bs ^^^ BitVec.allOnes 64

/-- CRC-32C: polynomial 0x1EDC_6F41, bit-reversed (R292). -/
def crc32c (bs : List Byte) : W := crcRun (0x82F63B78 : W) (BitVec.allOnes 32) bs ^^^ BitVec.allOnes 32

/-- One byte, most significant bit first, through the CRC-16 of polynomial 0x1021. -/
def crc16Step (c : BitVec 16) : Nat → BitVec 16
  | 0 => c
  | k + 1 => crc16Step (if c.getLsbD 15 then (c <<< 1) ^^^ 0x1021 else c <<< 1) k

/-- CRC-16 with polynomial 0x1021 and initial value 0xFFFF (R390); DEDUCED: bytes enter most significant bit first, since
the rule does not call it reflected. -/
def crc16 (bs : List Byte) : BitVec 16 :=
  bs.foldl (fun c b => crc16Step (c ^^^ ((b.setWidth 16 : BitVec 16) <<< (8 : Nat))) 8) (0xFFFF : BitVec 16)

/-- The mixing steps of R279 and R245: x xor (x >> 33), times a constant, twice, then x xor (x >> 33). -/
def mix64 (x : D) : D :=
  let x := (x ^^^ (x >>> 33)) * 0xFF51AFD7ED558CCD
  let x := (x ^^^ (x >>> 33)) * 0xC4CEB9FE1A85EC53
  x ^^^ (x >>> 33)

/-- The generator of R279. -/
def gen (seed step : D) (tensor index : Nat) : W :=
  let k := seed ^^^ (step * 0x9E3779B97F4A7C15)
  let x := BitVec.ofNat 64 (tensor * 2 ^ 40) ^^^ BitVec.ofNat 64 index
  let x := mix64 (x ^^^ k)
  let x := mix64 (x ^^^ (k + 0x9E3779B97F4A7C15))
  (x >>> 32).setWidth 32

/-- The sampling test of R245: whether the task is sampled, and its first sampled row. -/
def sampleTest (step die task shift m : Nat) : Bool × Nat :=
  let h := (mix64 (BitVec.ofNat 64 (step * 2 ^ 20 + die * 2 ^ 18 + task))).toNat
  let rb := 16 * (h / 2 ^ shift % cdiv m 16)
  (h % 2 ^ shift == 0, min rb (m - 16))

end Sys2Proof.Machine
end

