-- ==== Sys2Proof/Machine/Float.lean ====
section
/-!
DEFINITION. Float.lean: the number formats (R123 to R130), rounding and arithmetic (R134, R135, R182), conversion (R136) and
group encoding (R137 to R141). A value is exact: a sign, a natural mantissa and a power of two.
-/
namespace Sys2Proof.Machine

/-- A value: a NaN, an infinity, or (−1)^s × m × 2^e. -/
inductive FVal where
  | nan
  | inf (s : Bool)
  | fin (s : Bool) (m : Nat) (e : Int)
  deriving DecidableEq, Repr

/-- A binary format: exponent and fraction bits, and the power of two of its smallest subnormal. -/
structure FFmt where
  eb : Nat
  fb : Nat
  qmin : Int
  deriving DecidableEq, Repr

/-- R123. -/ def fX32 : FFmt := ⟨8, 23, -149⟩
/-- R123. -/ def fH16 : FFmt := ⟨5, 10, -24⟩
/-- R123. -/ def fW16 : FFmt := ⟨8, 7, -133⟩
/-- R123, R124. -/ def fW24 : FFmt := ⟨8, 15, -141⟩
/-- R123. -/ def fQ8M3 : FFmt := ⟨4, 3, -9⟩
/-- R123. -/ def fQ8M2 : FFmt := ⟨5, 2, -16⟩
/-- R123, R126. -/ def fQ4 : FFmt := ⟨2, 1, -1⟩

/-- The sign bit, the code of infinity and the canonical NaN of a format that has them (R124). -/
def FFmt.signBit (f : FFmt) : Nat := 2 ^ (f.eb + f.fb)
/-- R123. -/ def FFmt.infCode (f : FFmt) : Nat := (2 ^ f.eb - 1) * 2 ^ f.fb
/-- R124. -/ def FFmt.nanCode (f : FFmt) : Nat := f.infCode + 2 ^ (f.fb - 1)

/-- The magnitude that an exponent and fraction encode (R123). -/
def FFmt.mag (f : FFmt) (s : Bool) (c : Nat) : FVal :=
  let x := c / 2 ^ f.fb
  let m := c % 2 ^ f.fb
  if x = 0 then .fin s m f.qmin else .fin s (2 ^ f.fb + m) (f.qmin + (x - 1 : Nat))

/-- The value of a code of X32, H16, W16 or W24 (R123). -/
def FFmt.decode (f : FFmt) (c : Nat) : FVal :=
  let s := c / f.signBit % 2 == 1
  let r := c % f.signBit
  if r < f.infCode then f.mag s r else if r = f.infCode then .inf s else .nan

/-- `m` × 2^`k` rounded to an integer, ties to even (R134). -/
def rneShift (m : Nat) (k : Int) : Nat :=
  match k with
  | .ofNat k => m * 2 ^ k
  | .negSucc j =>
    let d := 2 ^ (j + 1)
    let q := m / d
    let r := m % d
    if d < 2 * r ∨ (2 * r = d ∧ q % 2 = 1) then q + 1 else q

/-- The code, without sign and without a limit, of m × 2^e rounded to the format's precision (R134). -/
def FFmt.code (f : FFmt) (m : Nat) (e : Int) : Nat :=
  if m = 0 then 0 else
  let q := max ((m.log2 : Int) + e - f.fb) f.qmin
  (q - f.qmin).toNat * 2 ^ f.fb + rneShift m (e - q)

/-- An arithmetic result in a format: overflow gives an infinity (R135). -/
def FFmt.arith (f : FFmt) : FVal → Nat
  | .nan => f.nanCode
  | .inf s => b2n s * f.signBit + f.infCode
  | .fin s m e => b2n s * f.signBit + min (f.code m e) f.infCode

/-- A conversion to a format: overflow saturates, and infinities and NaNs give the canonical NaN (R136). The second part
tells whether it saturated. -/
def FFmt.convert (f : FFmt) : FVal → Nat × Bool
  | .nan => (f.nanCode, false)
  | .inf _ => (f.nanCode, false)
  | .fin s m e =>
    let c := f.code m e
    (b2n s * f.signBit + min c (f.infCode - 1), decide (f.infCode ≤ c))

/-- The value of an X32 encoding. -/
def x32 (w : W) : FVal := fX32.decode w.toNat

/-- Arithmetic rounding to X32 (R134, R135). -/
def r32 (v : FVal) : W := BitVec.ofNat 32 (fX32.arith v)

/-- Whether a value is neither a NaN nor an infinity. -/
def FVal.isFin : FVal → Bool
  | .fin _ _ _ => true
  | _ => false

/-- Whether a value is a NaN. -/
def FVal.isNan : FVal → Bool
  | .nan => true
  | _ => false

/-! ### Exact arithmetic -/

/-- The signed mantissa of a finite value at scale 2^`e0`, for `e0` at most its own. -/
def sMant (s : Bool) (m : Nat) (e e0 : Int) : Int :=
  let v : Int := (m * 2 ^ (e - e0).toNat : Nat)
  if s then -v else v

/-- A sum; an exact zero is +0 unless both parts are −0 (R134). -/
def fAdd : FVal → FVal → FVal
  | .nan, _ => .nan
  | _, .nan => .nan
  | .inf s, .inf t => if s = t then .inf s else .nan
  | .inf s, .fin _ _ _ => .inf s
  | .fin _ _ _, .inf t => .inf t
  | .fin s m e, .fin t n g =>
    let e0 := min e g
    let v := sMant s m e e0 + sMant t n g e0
    if v = 0 then .fin (s && t && m == 0 && n == 0) 0 0 else .fin (decide (v < 0)) v.natAbs e0

/-- The opposite value. -/
def fNeg : FVal → FVal
  | .nan => .nan
  | .inf s => .inf !s
  | .fin s m e => .fin (!s) m e

/-- A magnitude. -/
def fAbs : FVal → FVal
  | .nan => .nan
  | .inf _ => .inf false
  | .fin _ m e => .fin false m e

/-- A product. -/
def fMul : FVal → FVal → FVal
  | .nan, _ => .nan
  | _, .nan => .nan
  | .inf s, .inf t => .inf (s != t)
  | .inf s, .fin t n _ => if n = 0 then .nan else .inf (s != t)
  | .fin s m _, .inf t => if m = 0 then .nan else .inf (s != t)
  | .fin s m e, .fin t n g => .fin (s != t) (m * n) (e + g)

/-- A fused multiply-add before its one rounding. -/
def fFma (a b c : FVal) : FVal := fAdd (fMul a b) c

/-- A quotient to more bits than any format keeps, with a sticky last bit. -/
def fDiv : FVal → FVal → FVal
  | .nan, _ => .nan
  | _, .nan => .nan
  | .inf _, .inf _ => .nan
  | .inf s, .fin t _ _ => .inf (s != t)
  | .fin s _ _, .inf t => .fin (s != t) 0 0
  | .fin s m e, .fin t n g =>
    if n = 0 then (if m = 0 then .nan else .inf (s != t))
    else if m = 0 then .fin (s != t) 0 0
    else
      let k := 64 + n.log2
      let q := m * 2 ^ k / n
      .fin (s != t) (2 * q + b2n (m * 2 ^ k % n != 0)) (e - g - k - 1)

/-- The largest r with r² ≤ n, bit by bit. -/
def isqrtGo (n : Nat) : Nat → Nat → Nat
  | 0, r => r
  | b + 1, r => isqrtGo n b (if (r + 2 ^ b) * (r + 2 ^ b) ≤ n then r + 2 ^ b else r)

/-- Integer square root. -/
def isqrt (n : Nat) : Nat := isqrtGo n (n.log2 / 2 + 1) 0

/-- A square root with a sticky last bit. -/
def fSqrt : FVal → FVal
  | .nan => .nan
  | .inf s => if s then .nan else .inf false
  | .fin s m e =>
    if m = 0 then .fin s 0 0 else if s then .nan else
    let m' := if e % 2 = 0 then m else 2 * m
    let e' := if e % 2 = 0 then e else e - 1
    let q := isqrt (m' * 2 ^ 128)
    .fin false (2 * q + b2n (q * q != m' * 2 ^ 128)) (e' / 2 - 65)

/-- A reciprocal square root with a sticky last bit. -/
def fRsqrt : FVal → FVal
  | .nan => .nan
  | .inf s => if s then .nan else .fin false 0 0
  | .fin s m e =>
    if m = 0 then .inf s else if s then .nan else
    let m' := if e % 2 = 0 then m else 2 * m
    let e' := if e % 2 = 0 then e else e - 1
    let q := isqrt (2 ^ 256 / m')
    .fin false (2 * q + b2n (q * q * m' != 2 ^ 256)) (-(e' / 2) - 129)

/-- Whether the first of two finite or infinite values is below the second; false when either is a NaN. -/
def fLt : FVal → FVal → Bool
  | .nan, _ => false
  | _, .nan => false
  | .inf s, .inf t => s && !t
  | .inf s, .fin _ _ _ => s
  | .fin _ _ _, .inf t => !t
  | .fin s m e, .fin t n g => decide (sMant s m e (min e g) < sMant t n g (min e g))

/-- Whether two values are equal; false when either is a NaN. -/
def fEq : FVal → FVal → Bool
  | .nan, _ => false
  | _, .nan => false
  | .inf s, .inf t => s == t
  | .inf _, .fin _ _ _ => false
  | .fin _ _ _, .inf _ => false
  | .fin s m e, .fin t n g => decide (sMant s m e (min e g) = sMant t n g (min e g))

/-- The sign of a value. -/
def FVal.neg : FVal → Bool
  | .nan => false
  | .inf s => s
  | .fin s _ _ => s

/-- Minimum and maximum with −0 below +0, a NaN when either is one (R182). -/
def fMin (a b : FVal) : FVal :=
  if a.isNan || b.isNan then .nan else if fLt a b then a else if fLt b a then b else if a.neg then a else b

/-- R182. -/
def fMax (a b : FVal) : FVal :=
  if a.isNan || b.isNan then .nan else if fLt a b then b else if fLt b a then a else if a.neg then b else a

/-! ### Exponential, logarithm and hyperbolic tangent, to 256 bits -/

/-- Σ z^(2i+1) ÷ (2i+1) at scale 2^256, for `n` terms from the power `p` = z^(2i+1). -/
def atanhGo (z2 : Int) : Nat → Nat → Int → Int
  | 0, _, _ => 0
  | n + 1, i, p => p / (2 * i + 1 : Nat) + atanhGo z2 n (i + 1) (p * z2 / (2 ^ 256 : Nat))

/-- atanh of `z` at scale 2^256. -/
def atanhFix (z : Int) : Int := atanhGo (z * z / (2 ^ 256 : Nat)) 80 0 z

/-- ln 2 at scale 2^256: 2 atanh (1 ÷ 3). -/
def ln2Fix : Int := 2 * atanhFix ((2 ^ 256 : Nat) / 3)

/-- Σ r^i ÷ i! at scale 2^256, for `n` terms from the term `t`. -/
def expGo (r : Int) : Nat → Nat → Int → Int
  | 0, _, _ => 0
  | n + 1, i, t => t + expGo r n (i + 1) (t * r / (2 ^ 256 : Nat) / (i + 1 : Nat))

/-- e^(x ÷ 2^256) as a mantissa and a power of two. -/
def expFix (x : Int) : Nat × Int :=
  let k := x / ln2Fix
  ((expGo (x - k * ln2Fix) 90 0 (2 ^ 256 : Nat)).toNat, k - 256)

/-- A finite value at scale 2^256. -/
def fix256 (s : Bool) (m : Nat) (e : Int) : Int := sMant s m (max e (-256)) (-256)

/-- e^v (R182): results beyond the X32 range on either side are named without the series. -/
def fExp : FVal → FVal
  | .nan => .nan
  | .inf s => if s then .fin false 0 0 else .inf false
  | .fin s m e =>
    if m = 0 then .fin false 1 0
    else if (8 : Int) ≤ m.log2 + e then (if s then .fin false 0 0 else .inf false)
    else
      let r := expFix (fix256 s m e)
      .fin false (2 * r.1 + 1) (r.2 - 1)

/-- ln v (R182). -/
def fLog : FVal → FVal
  | .nan => .nan
  | .inf s => if s then .nan else .inf false
  | .fin s m e =>
    if m = 0 then .inf true else if s then .nan else
    let l := m.log2
    let up := decide (3 * 2 ^ l < 2 * m)
    let den : Nat := if up then 2 ^ (l + 1) else 2 ^ l
    let k : Int := e + l + (b2n up : Nat)
    let z : Int := ((m : Int) - den) * (2 ^ 256 : Nat) / (m + den : Nat)
    let v := 2 * atanhFix z + k * ln2Fix
    if m = den ∧ k = 0 then .fin false 0 0 else .fin (decide (v < 0)) (2 * v.natAbs + 1) (-257)

/-- tanh v (R182). -/
def fTanh : FVal → FVal
  | .nan => .nan
  | .inf s => .fin s 1 0
  | .fin s m e =>
    if m = 0 then .fin s 0 0
    else if (5 : Int) ≤ m.log2 + e then .fin s 1 0
    else
      let r := expFix (2 * fix256 false m e)
      let x := r.1 * 2 ^ (r.2 + 256).toNat
      .fin s (2 * ((x - 2 ^ 256) * 2 ^ 256 / (x + 2 ^ 256)) + 1) (-257)

/-- The integer nearest a value, ties to even. -/
def fToInt : FVal → Int
  | .fin s m e => if s then -(rneShift m e : Int) else rneShift m e
  | _ => 0

/-- An integer as a value. -/
def ofInt (i : Int) : FVal := .fin (decide (i < 0)) i.natAbs 0

/-! ### X32 operations -/

/-- R135. -/ def xAdd (a b : W) : W := r32 (fAdd (x32 a) (x32 b))
/-- R135. -/ def xSub (a b : W) : W := r32 (fAdd (x32 a) (fNeg (x32 b)))
/-- R135. -/ def xMul (a b : W) : W := r32 (fMul (x32 a) (x32 b))
/-- R135: one rounding. -/ def xFma (a b c : W) : W := r32 (fFma (x32 a) (x32 b) (x32 c))
/-- R135. -/ def xDiv (a b : W) : W := r32 (fDiv (x32 a) (x32 b))
/-- R182. -/ def xMax (a b : W) : W := r32 (fMax (x32 a) (x32 b))
/-- R182. -/ def xSqrt (a : W) : W := r32 (fSqrt (x32 a))
/-- R182. -/ def xRsqrt (a : W) : W := r32 (fRsqrt (x32 a))
/-- R182. -/ def xExp (a : W) : W := r32 (fExp (x32 a))
/-- R182. -/ def xLog (a : W) : W := r32 (fLog (x32 a))
/-- A natural number as X32. -/ def xOfNat (n : Nat) : W := r32 (ofInt n)
/-- 1.0 in X32. -/ def xOne : W := 0x3F800000
/-- The sign bit flipped, a NaN made canonical. -/ def xNeg (a : W) : W := r32 (fNeg (x32 a))

/-! ### Element formats (R99, R123) -/

/-- Bits of an element of a FORMAT code (R123). -/
def fmtBits : Nat → Nat
  | 0 => 32
  | 1 => 16
  | 2 => 16
  | 3 => 8
  | 4 => 8
  | 5 => 4
  | 6 => 4
  | 7 => 2
  | 8 => 24
  | _ => 1

/-- Q8M3, Q8M2, Q4, U4Z and T2 are grouped formats. -/
def fmtGrouped (f : Nat) : Bool := decide (3 ≤ f) && decide (f ≤ 7)

/-- The value of an element code before its group scale (R123 to R130); `z` is the zero point of a U4Z group. -/
def elemVal (fmt z c : Nat) : FVal :=
  match fmt with
  | 0 => fX32.decode c
  | 1 => fH16.decode c
  | 2 => fW16.decode c
  | 3 => if c = 0x80 then .nan else fQ8M3.mag (bit c 7) (c % 128)
  | 4 => if c = 0x80 then .nan else fQ8M2.mag (bit c 7) (c % 128)
  | 5 => if c = 8 then .fin false 0 0 else fQ4.mag (bit c 3) (c % 8)
  | 6 => ofInt ((c : Int) - z)
  | 7 => if c = 1 then .fin false 1 0 else if c = 3 then .fin true 1 0 else .fin false 0 0
  | 8 => fW24.decode c
  | _ => .fin false (c % 2) 0

/-- An element of a group with G8 code `g` (R129, R133): exact, or a NaN in an invalid group. -/
def groupVal (fmt z g c : Nat) : FVal :=
  if g = 0xFF then .nan else
  match elemVal fmt z c with
  | .fin s m e => .fin s m (e + (g : Int) - 127)
  | v => v

/-- What a conversion counts (R141): elements saturated or clamped, non-finite inputs, elements encoded as zero, and groups
written with scale 0xFF. `elems` counts the elements written. -/
structure Cnt where
  elems : Nat
  sat : Nat
  nonf : Nat
  zero : Nat
  bad : Nat
  deriving DecidableEq, Repr

/-- Nothing counted. -/
def Cnt.none : Cnt := ⟨0, 0, 0, 0, 0⟩

/-- The sum of two counts. -/
def Cnt.add (a b : Cnt) : Cnt := ⟨a.elems + b.elems, a.sat + b.sat, a.nonf + b.nonf, a.zero + b.zero, a.bad + b.bad⟩

/-- A value widened to X32 (R133), and whether it saturated. -/
def widen (v : FVal) : W × Bool := let r := fX32.convert v; (BitVec.ofNat 32 r.1, r.2)

/-- An X32 value converted to an ungrouped format, with its counts (R136, R141). A copy in X32 keeps every bit. -/
def convertElem (fmt : Nat) (w : W) : Nat × Cnt :=
  let one (f : FFmt) : Nat × Cnt :=
    let r := f.convert (x32 w)
    (r.1, ⟨1, b2n r.2, b2n (!(x32 w).isFin), b2n (r.1 % f.signBit == 0), 0⟩)
  match fmt with
  | 1 => one fH16
  | 2 => one fW16
  | 8 => one fW24
  | _ => (w.toNat, ⟨1, 0, b2n (!(x32 w).isFin), b2n (w.toNat % 2 ^ 31 == 0), 0⟩)

/-! ### Group encoding (R137 to R140) -/

/-- Whether m × 2^e exceeds n × 2^g. -/
def magGt (m : Nat) (e : Int) (n : Nat) (g : Int) : Bool :=
  decide (n * 2 ^ (g - min e g).toNat < m * 2 ^ (e - min e g).toNat)

/-- The largest finite magnitude of a group. -/
def groupAmax : List FVal → Nat × Int
  | [] => (0, 0)
  | .fin _ m e :: xs => let r := groupAmax xs; if magGt m e r.1 r.2 then (m, e) else r
  | _ :: xs => groupAmax xs

/-- Clamps a group exponent to the G8 range. -/
def clampE (e : Int) : Int := min (max e (-127)) 127

/-- Precision, largest value as mantissa and power of two, and the exponent of the largest value (R137). -/
def encParams : Nat → FFmt × Nat × Int × Int
  | 3 => (fQ8M3, 15, 5, 8)
  | 4 => (fQ8M2, 7, 14, 16)
  | _ => (fQ4, 3, 1, 2)

/-- The group exponent of R137. -/
def scaleExp (fmt : Nat) (xs : List FVal) : Int :=
  let p := encParams fmt
  let a := groupAmax xs
  if a.1 = 0 then 0 else
  let e := (a.1.log2 : Int) + a.2 - p.2.2.2
  clampE (if magGt a.1 a.2 p.2.1 (p.2.2.1 + e) then e + 1 else e)

/-- One element's code in Q8M3, Q8M2 or Q4 at group exponent `e`. -/
def encElem (fmt : Nat) (e : Int) : FVal → Nat
  | .fin s m g =>
    let f := (encParams fmt).1
    let c := f.code m (g - e)
    if c = 0 then 0 else b2n s * f.signBit + c
  | _ => 0x80

/-- An encoded group: its G8 code, its zero point, its element codes, and the counts of R141. -/
structure EncGroup where
  scale : Nat
  zp : Nat
  codes : List Nat
  cnt : Cnt
  deriving DecidableEq, Repr

/-- A group written with scale 0xFF and all codes 0 (R140). DEDUCED: its elements do not count as zero (R244). -/
def badGroup (xs : List FVal) : EncGroup :=
  ⟨0xFF, 0, xs.map fun _ => 0, ⟨xs.length, 0, (xs.filter fun x => !x.isFin).length, 0, 1⟩⟩

/-- Smallest and largest finite value with 0, as an integer pair at a common scale (R138). -/
def loHi (xs : List FVal) : Int × Int × Int :=
  let e0 := xs.foldl (fun acc x => match x with | .fin _ _ e => min acc e | _ => acc) 0
  let vs := xs.map fun x => match x with | .fin s m e => sMant s m e e0 | _ => 0
  (vs.foldl min 0, vs.foldl max 0, e0)

/-- An integer × 2^k rounded to an integer, ties to even. -/
def rneInt (v : Int) (k : Int) : Int := if v < 0 then -(rneShift v.natAbs k : Int) else rneShift v.natAbs k

/-- R138. -/
def encU4Z (xs : List FVal) : EncGroup :=
  let r := loHi xs
  let lo := r.1
  let hi := r.2.1
  let e0 := r.2.2
  let e :=
    if hi = lo then 0 else
    let e := ((hi - lo).natAbs.log2 : Int) + e0 - 3
    if 15 < rneInt hi (e0 - e) - rneInt lo (e0 - e) then e + 1 else e
  let e := clampE e
  let z := -(rneInt lo (e0 - e))
  let raw := xs.map fun x => match x with | .fin s m g => rneInt (sMant s m g (min g e0)) (min g e0 - e) + z | _ => z
  let qs := raw.map fun q => (min (max q 0) 15).toNat
  ⟨(e + 127).toNat, z.toNat % 16, qs, ⟨xs.length, (raw.filter fun q => decide (q < 0) || decide (15 < q)).length, 0,
    (qs.filter fun (q : Nat) => decide ((q : Int) = z)).length, 0⟩⟩

/-- R139: the mean magnitude as X32 arithmetic forms it. -/
def t2Mean (xs : List FVal) : FVal :=
  let sum := xs.foldl (fun (m : W) x => r32 (fAdd (x32 m) (fAbs x))) 0
  x32 (r32 (fDiv (x32 sum) (ofInt xs.length)))

/-- R139. -/
def encT2 (xs : List FVal) : EncGroup :=
  let e := clampE <|
    match t2Mean xs with
    | .fin _ m g => if m = 0 then 0 else
        let e := (m.log2 : Int) + g
        if magGt 3 (e - 1) m g then e else e + 1
    | _ => 127
  let raw := xs.map fun x => match x with | .fin s m g => rneInt (if s then -(m : Int) else m) (g - e) | _ => 0
  ⟨(e + 127).toNat, 0, raw.map fun q => if q = 0 then 0 else if 0 < q then 1 else 3,
    ⟨xs.length, (raw.filter fun q => decide (q < -1) || decide (1 < q)).length, 0, (raw.filter (· == 0)).length, 0⟩⟩

/-- Encodes one group of values under the FORMAT code (R137 to R140). -/
def encGroup (fmt : Nat) (xs : List FVal) : EncGroup :=
  match fmt with
  | 6 => if xs.all FVal.isFin then encU4Z xs else badGroup xs
  | 7 => if xs.all FVal.isFin then encT2 xs else badGroup xs
  | 5 =>
    if xs.all FVal.isFin then
      let e := scaleExp 5 xs
      let cs := xs.map (encElem 5 e)
      ⟨(e + 127).toNat, 0, cs, ⟨xs.length, 0, 0, (cs.filter (· == 0)).length, 0⟩⟩
    else badGroup xs
  | f =>
    let e := scaleExp f xs
    let cs := xs.map (encElem f e)
    ⟨(e + 127).toNat, 0, cs, ⟨xs.length, 0, (xs.filter fun x => !x.isFin).length, (cs.filter (· == 0)).length, 0⟩⟩

end Sys2Proof.Machine
end

