-- ==== Sys2Proof/Machine/Flags.lean ====
section
/-!
DEFINITION. Flags.lean: the flags every page keeps: event bits and their posting (R47), LAST_ERR (R44), tallies (R53, R54,
R173), and the queue discipline of host-memory rings that postings rest on (R420, R424, R427).
-/
namespace Sys2Proof.Machine

/-- PAGE_ID of the page at `p` (R37): type, instance and home. Link pages carry their package port number (R48). -/
def pageId (p : Nat) : Nat :=
  match pageAt p with
  | none => 0
  | some (k, i) =>
    let home := homeOf p
    let inst := match k with | .lp => 4 * ((home + 3) % 4) + i | _ => i
    k.type + inst * 2 ^ 12 + home * 2 ^ 18

/-- Sets an EVT_STAT bit and posts nothing. -/
def evtRaw (p b : Nat) (s : State) : State :=
  wr (p + EVT_STAT_V.off) (rd s (p + EVT_STAT_V.off) ||| BitVec.ofNat 32 (2 ^ b)) s

/-- Adds `n` to a tally whatever its freeze bit; answers whether SAT changed from 0 to 1 (R53). -/
def tallyPut (p i n : Nat) (s : State) : State × Bool :=
  let t := sget zt s.tally (p + i)
  if t.count.toNat + n < 2 ^ 48 then
    ({ s with tally := sset zt s.tally (p + i) ⟨BitVec.ofNat 48 (t.count.toNat + n), t.sat⟩ }, false)
  else ({ s with tally := sset zt s.tally (p + i) ⟨BitVec.ofNat 48 (2 ^ 48 - 1), true⟩ }, !t.sat)

/-! ### Host-memory rings -/

/-- Free space of a queue (R419). -/
def qFree (s : State) (q : Nat) : Nat :=
  gf s (pgQ q) Q_CFG_SIZE - (rd64 s (pgQ q + Q_PROD_LO_V.off) - rd64 s (pgQ q + Q_REL_LO_V.off))

/-- Changes what queue `q` keeps besides its registers. -/
def onQueue (q : Nat) (f : QueueSt → QueueSt) (s : State) : State :=
  if h : q < 32 then { s with queues := s.queues.set q (f s.queues[q]) } else s

/-- The pending drop count of a queue. -/
def qDrops (s : State) (q : Nat) : Nat := if h : q < 32 then s.queues[q].drops else 0

/-- Whether a queue has sent its interrupt since RD last changed. -/
def qIrqSent (s : State) (q : Nat) : Bool := if h : q < 32 then s.queues[q].irqSent else true

/-- Sends the MSI-X message of a queue when R424 asks for it and none has gone since RD last changed. -/
def qIrq (q : Nat) (s : State) : State :=
  if gf s (pgQ q) Q_IRQ_EN = 1 && !qIrqSent s q &&
      decide (gf s (pgQ q) Q_IRQ_THRESH ≤ rd64 s (pgQ q + Q_PROD_LO_V.off) - rd64 s (pgQ q + Q_RD_LO_V.off)) then
    emit (.msix (gf s (pgQ q) Q_IRQ_VECTOR)) (onQueue q (fun x => { x with irqSent := true }) s)
  else s

/-- Writes one 16-byte entry in the next slot of a host-memory ring, advances PROD, and writes PROD to the shadow (R424). -/
def ringPut (q : Nat) (bs : List Byte) (s : State) : State :=
  let prod := rd64 s (pgQ q + Q_PROD_LO_V.off)
  let s1 := hostPoke (rd64 s (pgQ q + Q_BASE_LO_V.off) + prod % max 1 (gf s (pgQ q) Q_CFG_SIZE) * 16) bs s
  let s2 := wr64 (pgQ q + Q_PROD_LO_V.off) (prod + 1) s1
  let sh := rd64 s2 (pgQ q + Q_SHADOW_LO_V.off)
  if sh = 0 then s2 else hostPoke sh (leBytes 8 (prod + 1)) s2

/-- A 16-byte entry (R427): KIND, byte 1, bytes 2 and 3, bytes 4 to 7, bytes 8 to 15. -/
def entry (kind b1 h2 w4 d8 : Nat) : List Byte :=
  leBytes 1 kind ++ leBytes 1 b1 ++ leBytes 2 h2 ++ leBytes 4 w4 ++ leBytes 8 d8

/-- Places an item in a host-memory ring under R420. `ev` raises a block event of the queue's page and `tl` adds to one of
its tallies. Answers whether the item was placed. A queue that is not enabled takes nothing. -/
def qPushWith (ev : Nat → State → State) (tl : Nat → State → State) (q : Nat) (x : List Byte) (s : State) : State × Bool :=
  if gf s (pgQ q) Q_CTRL_EN = 0 then (s, false) else
  let s1 :=
    if 0 < qDrops s q && decide (2 ≤ qFree s q) then
      ev 0 (tl 2 (tl 0 (onQueue q (fun k => { k with drops := 0 })
        (ringPut q (entry 0xFF 0 0 (min (qDrops s q) (2 ^ 32 - 1)) (timeStamp s 4)) s))))
    else s
  if qDrops s1 q = 0 && decide (2 ≤ qFree s1 q) then (qIrq q (tl 0 (ringPut q x s1)), true)
  else (tl 1 (onQueue q (fun k => { k with drops := min (k.drops + 1) (2 ^ 32 - 1) }) s1), false)

/-- Places an entry in the event queue; the queue's own events set their bits and post nothing (R428). -/
def postEntry (x : List Byte) (s : State) : State :=
  let tl (i : Nat) (s : State) : State :=
    if gf s (pgQ 2) CTRL_FREEZE = 1 then s else
    match tallyPut (pgQ 2) i 1 s with
    | (s', true) => evtRaw (pgQ 2) 31 s'
    | (s', false) => s'
  (qPushWith (evtRaw (pgQ 2)) tl 2 x s).1

/-- Sets an EVT_STAT bit and posts one entry when it changes from 0 to 1 with its enable set (R47). -/
def raiseAs (forced : Bool) (p b : Nat) (s : State) : State :=
  if bit (rd s (p + EVT_STAT_V.off)).toNat b then s else
  let s1 := evtRaw p b s
  if bit (rd s (p + EVT_EN_V.off)).toNat b && p != pgQ 2 then
    postEntry (entry 1 b (b2n forced) (pageId p) (timeStamp s (homeOf p))) s1
  else s1

/-- Raises event `b` of the page at `p` (R47). -/
def raise (p b : Nat) (s : State) : State := raiseAs false p b s

/-- Adds `n` to tally `i` of the page at `p` (R53), unless the page's tallies are frozen (R54). -/
def tallyAdd (p i n : Nat) (s : State) : State :=
  if gf s p CTRL_FREEZE = 1 then s else
  match tallyPut p i n s with
  | (s', true) => raise p 31 s'
  | (s', false) => s'

/-- Adds a quantity to a tally counted in blocks of `unit`: full blocks count, and the rest is carried to the next
increment (R173). -/
def tallyQty (p i unit n : Nat) (s : State) : State :=
  if gf s p CTRL_FREEZE = 1 then s else
  let r := sget zn s.rem (p + i) + n
  tallyAdd p i (r / unit) { s with rem := sset zn s.rem (p + i) (r % unit) }

/-- Sets FENCED of the unit page at `p`; the die's SVC page counts a change (R483, R496). -/
def setFenced (p v : Nat) (s : State) : State :=
  if gf s p FENCE_FENCED = v then s else tallyAdd (homeOf p * 0x1000000 + 0xC000) 0 1 (sf p FENCE_FENCED v s)

/-- Records an error in LAST_ERR and sets the ERR event (R44). -/
def recErr (p code off src : Nat) (s : State) : State :=
  let old := (rd s (p + LAST_ERR_V.off)).toNat
  let again := b2n (bit old 31)
  let v := code % 2 ^ 16 + off % 2 ^ 10 * 2 ^ 16 + src % 8 * 2 ^ 26 + again * 2 ^ 30 + 2 ^ 31
  raise p 30 (wr (p + LAST_ERR_V.off) (BitVec.ofNat 32 v) s)

/-- An error a block detects in its own work: SRC 2 and OFFSET 0 (R37, R43). -/
def blockErr (p code : Nat) (s : State) : State := recErr p code 0 2 s

/-- LAST_ERR.SRC of a requester (R37). -/
def Req.src : Req → Nat
  | .host => 0
  | .steward => 1
  | .cc d => 4 + d.val

/-- Places an item in the host-memory ring `q` under R420. -/
def qPush (q : Nat) (x : List Byte) (s : State) : State × Bool :=
  qPushWith (raise (pgQ q)) (fun i => tallyAdd (pgQ q) i 1) q x s

/-- A release that leaves room writes the pending gap marker (R420). -/
def qGapOnRelease (q : Nat) (s : State) : State :=
  if 0 < qDrops s q && decide (1 ≤ qFree s q) then
    raise (pgQ q) 0 (tallyAdd (pgQ q) 2 1 (tallyAdd (pgQ q) 0 1 (onQueue q (fun k => { k with drops := 0 })
      (ringPut q (entry 0xFF 0 0 (min (qDrops s q) (2 ^ 32 - 1)) (timeStamp s 4)) s))))
  else s

end Sys2Proof.Machine
end

