-- ==== Sys2Proof/Machine/Fabric.lean ====
section
/-!
DEFINITION. Fabric.lean: the units of the stairway (R390, R392, R395 to R397): how a message between dies becomes units, the order in
which a side sends them, and the units a side holds until they are acknowledged.
-/
namespace Sys2Proof.Machine

/-! ### Sides and flights -/

/-- Changes a stairway side. -/
def onSide (d : DieId) (e : SideId) (f : Side → Side) (s : State) : State :=
  onDie d (fun x => { x with sides := x.sides.set e (f x.sides[e]) }) s

/-- Code of flight `f` in a width word (R391). -/
def flightCode (w : W) (f : Nat) : Nat := w.toNat / 2 ^ (2 * f) % 4

/-- The flights in use: those not OFF in the agreed width word. -/
def flightsUsed (s : State) (d : DieId) (e : SideId) : List (Fin 16) :=
  (List.finRange 16).filter fun f => flightCode (rd s (pgSWof d e + SW_WIDTH_AW.off)) f.val != 0

/-- An edge carries traffic only while both of its sides are ACTIVE (R394, R396). -/
def edgeUp (s : State) (d : DieId) (e : SideId) : Bool := swState s d e == 5 && swState s (across d e) (1 - e) == 5

/-- An edge whose sides train again holds its traffic (R396). -/
def edgeHeld (s : State) (d : DieId) (e : SideId) : Bool :=
  let busy (n : Nat) : Bool := decide (1 ≤ n) && decide (n ≤ 4)
  busy (swState s d e) || busy (swState s (across d e) (1 - e))

/-- The side of die `d` that faces its neighbour `h`. -/
def sideTo (d h : DieId) : SideId := if h = cwDie d then 0 else 1

/-- The sides that a request from die `d` to die `h` leaves by, hop by hop. -/
def routeSides (s : State) (d h : DieId) : List (DieId × SideId) :=
  if h = d then [] else
  let ds := d :: routeVia s d h
  (ds.zip (routeVia s d h ++ [h])).map fun x => (x.1, sideTo x.1 x.2)

/-- A request from die `d` to die `h` waits because an edge of its route trains again (R396). -/
def fabricHeld (s : State) (d h : DieId) : Bool := (routeSides s d h).any fun x => edgeHeld s x.1 x.2

/-! ### Sending (R390, R392) -/

/-- 256 bytes of a unit. DESIGN CHOICE: what fills a last unit after its data is not stated. -/
def unitBytes (bs : List Byte) : List Byte := (bs ++ List.replicate 256 Config.swPad).take 256

/-- The units of one message of at most 4,080 data bytes: a 16-byte header that names kind, source, destination, address and byte
count, and the data after it (R390). The spec gives the header's contents and no layout: it is a free value. -/
def swMessage (kind : Nat) (src dst : DieId) (cls addr : Nat) (data : List Byte) : List SwItem :=
  let bs := leBytes 16 (Config.swHeader kind src.val dst.val addr data.length) ++ data
  let n := cdiv bs.length 256
  (List.range n).map fun i => ⟨cls, i == 0, i + 1 == n, addr, unitBytes ((bs.drop (256 * i)).take 256)⟩

/-- The units of a transfer, as messages of at most 16 units. -/
def swUnits (kind : Nat) (src dst : DieId) (cls addr : Nat) (data : List Byte) : List SwItem :=
  (List.range (max 1 (cdiv data.length 4080))).flatMap fun k =>
    swMessage kind src dst cls (addr + 4080 * k) ((data.drop (4080 * k)).take 4080)

/-- The flight a unit takes: units are spread over the flights in use by line address (R392). DESIGN CHOICE: by its remainder. -/
def swFlight (s : State) (d : DieId) (e : SideId) (u : SwItem) : Option (Fin 16) :=
  let fs := flightsUsed s d e
  fs[u.addr / 256 % fs.length]?

/-- Whether the oldest unit of class `c` may leave: its flight holds fewer than 64 units for replay (R395). -/
def swCanSend (s : State) (d : DieId) (e : SideId) (c : Nat) : Bool :=
  match (s.dies[d].sides[e].txq.toList.getD c []).head? with
  | none => false
  | some u => match swFlight s d e u with | none => false | some f => decide ((s.dies[d].sides[e].held[f]).length < 64)

/-- The share of class 1, 2 or 3: the die's LP_ARB (R392). DEDUCED: that of its die-local port 0. -/
def swWeight (s : State) (d : DieId) (c : Nat) : Nat :=
  match c with
  | 1 => gf s (pgLP d) LP_ARB_W1
  | 2 => gf s (pgLP d) LP_ARB_W2
  | _ => gf s (pgLP d) LP_ARB_W3

/-- The class whose unit leaves next (R392): class 0 before all, then classes 1 to 3 in turn by their weights. -/
def swNext (s : State) (d : DieId) (e : SideId) : Option Nat :=
  let x := s.dies[d].sides[e]
  if swCanSend s d e 0 then some 0
  else
    let order := (List.range 4).map fun i => (x.arbCls - 1 + i) % 3 + 1
    (if x.arbLeft = 0 then order.drop 1 else order.take 3).find? (swCanSend s d e)

/-- A unit as it travels (R390): its bytes, and the track word of its sequence number, class, FIRST, LAST and CRC-16. -/
def swWire (seq : Nat) (u : SwItem) : SwUnit :=
  let t := seq % 4096 + u.cls % 4 * 2 ^ 12 + b2n u.first * 2 ^ 14 + b2n u.last * 2 ^ 15
  ⟨u.data, BitVec.ofNat 32 (t + (crc16 (u.data ++ leBytes 2 t)).toNat * 2 ^ 16)⟩

/-- Sends the oldest unit of class `c`, which the flight keeps until it is acknowledged (R392, R395). -/
def swSendOne (d : DieId) (e : SideId) (c : Nat) (s : State) : State :=
  let x := s.dies[d].sides[e]
  match x.txq.toList.getD c [] with
  | [] => s
  | u :: us =>
    match swFlight s d e u with
    | none => s
    | some f =>
      let seq := x.txSeq[f]
      let x1 : Side := { x with
        txq := x.txq.setIfInBounds c us, txSeq := x.txSeq.set f ((seq + 1) % 4096), held := x.held.set f (x.held[f] ++ [⟨seq, u⟩])
        arbCls := if c = 0 then x.arbCls else c
        arbLeft := if c = 0 then x.arbLeft else if c = x.arbCls && decide (0 < x.arbLeft) then x.arbLeft - 1 else swWeight s d c - 1 }
      tallyQty (pgSWof d e) 0 1048576 1 (emit (.swUnit d e f.val (swWire seq u)) (onSide d e (fun _ => x1) s))

/-- Sends units while one may leave. -/
def swPumpN (d : DieId) (e : SideId) : Nat → State → State
  | 0, s => s
  | n + 1, s =>
    match swNext s d e with
    | some c => swPumpN d e n (swSendOne d e c s)
    | none => s

/-- Sends what a side can send while its edge carries traffic. -/
def swPump (d : DieId) (e : SideId) (s : State) : State :=
  if edgeUp s d e then swPumpN d e ((s.dies[d].sides[e].txq.toList.map List.length).foldl (· + ·) 0) s else s

/-- Queues units on a side by their classes. -/
def swQueue (d : DieId) (e : SideId) (us : List SwItem) (s : State) : State :=
  onSide d e (fun x => { x with
    txq := x.txq.mapIdx fun c q => q ++ us.filter fun u => u.cls % 4 == c }) s

/-- Message kinds of the stairway. -/
def kTICK : Nat := 0
/-- R114. -/ def kFAIL : Nat := 1
/-- R78. -/ def kDONE : Nat := 2
/-- R109. -/ def kDEC : Nat := 3
/-- R111. -/ def kDECACK : Nat := 4
/-- R25. -/ def kREQ : Nat := 5
/-- R25. -/ def kRSP : Nat := 6
/-- R341. -/ def kCE : Nat := 7
/-- R311. -/ def kLINK : Nat := 8

/-- Hands a message from die `a` to die `h` to the side its route leaves by; a neighbour that is lost takes none (R399). -/
def swPost (a h : DieId) (kind cls addr : Nat) (data : List Byte) (s : State) : State :=
  match routeSides s a h with
  | [] => s
  | x :: _ => if dieLive s (across x.1 x.2) then swPump x.1 x.2 (swQueue x.1 x.2 (swUnits kind a h cls addr data) s) else s

/-! ### Acknowledgement and resending (R395, R396) -/

/-- Units of a flight up to sequence number `seq` are acknowledged. -/
def swAck (d : DieId) (e : SideId) (f : Fin 16) (seq : Nat) (s : State) : State :=
  if s.dies[d].sides[e].held[f].any fun h => h.seq == seq then
    onSide d e (fun x => { x with held := x.held.set f ((x.held[f].dropWhile fun h => h.seq != seq).drop 1) }) s
  else s

/-- Resends a held unit (R395). -/
def swResendOne (d : DieId) (e : SideId) (f : Fin 16) (h : SwHeld) (s : State) : State :=
  tallyAdd (pgSWof d e) 3 1 (emit (.swUnit d e f.val (swWire h.seq h.item)) s)

/-- Resends a flight's held units from sequence number `seq` on, in order. -/
def swResend (d : DieId) (e : SideId) (f : Fin 16) (seq : Nat) (s : State) : State :=
  forEach (swResendOne d e f) (s.dies[d].sides[e].held[f].dropWhile fun h => h.seq != seq) s

/-- What a side holds and has not sent, in order of flight and sequence number, then by class. -/
def swWaiting (x : Side) : List SwItem := x.held.toList.flatMap (·.map (·.item)) ++ x.txq.toList.flatten

/-- Units held on a flight that the new width turns OFF wait to leave by another (R396). -/
def swRequeue (s : State) (d : DieId) (e : SideId) (x : Side) : Side :=
  let off (f : Fin 16) : Bool := !(flightsUsed s d e).contains f
  let us := (List.finRange 16).flatMap fun f => if off f then x.held[f].map (·.item) else []
  { x with
    held := Vector.ofFn fun f => if off f then [] else x.held[f]
    txq := x.txq.mapIdx fun c q => us.filter (fun u => u.cls % 4 == c) ++ q }

/-- An edge whose sides are both ACTIVE again resends what the side holds, in order, and sends what waits (R396). -/
def swRestart (d : DieId) (e : SideId) (s : State) : State :=
  if !edgeUp s d e then s else
  let s1 := onSide d e (swRequeue s d e) s
  swPump d e (forEach (fun (f : Fin 16) s => forEach (swResendOne d e f) s.dies[d].sides[e].held[f] s) (List.finRange 16) s1)

/-- A side forgets its units and starts its sequence numbers anew: the die across has gone, or is reset (R394, R399). -/
def swClear (d : DieId) (e : SideId) (s : State) : State :=
  onSide d e (fun x => { x with
    txq := Vector.replicate 4 [], held := Vector.replicate 16 [], txSeq := Vector.replicate 16 0
    rxSeq := Vector.replicate 16 0, seeking := Vector.replicate 16 false, onward := Vector.replicate 4 false }) s

/-- A failed edge hands its side's units, in sequence order, to the route round the ring (R397). -/
def swHandOver (d : DieId) (e : SideId) (s : State) : State :=
  let us := swWaiting s.dies[d].sides[e]
  swPump d (1 - e) (swQueue d (1 - e) us (swClear d e s))

end Sys2Proof.Machine
end

