-- ==== Sys2Proof/Machine/Rs.lean ====
section
/-!
DEFINITION. Rs.lean: the Reed–Solomon code RS(36,32) over GF(2¹⁶) that protects a code word of either memory (R374, R375), and the error
pattern that an injection stores (R385).
-/
namespace Sys2Proof.Machine

/-- A symbol: an element of GF(2¹⁶). -/
abbrev Sym := BitVec 16

/-- Multiplication by α, a root of x¹⁶ + x¹² + x³ + x + 1 (R374). -/
def gfAlpha (x : Sym) : Sym := if x.msb then (x <<< 1) ^^^ 0x100B else x <<< 1

/-- The sum of `a · αⁱ` over the set bits i of `b`, from bit `16 - n` on. -/
def gfMulN : Nat → Sym → Sym → Sym
  | 0, _, _ => 0
  | n + 1, a, b => (if b.getLsbD 0 then a else 0) ^^^ gfMulN n (gfAlpha a) (b >>> 1)

/-- The product in GF(2¹⁶). -/
def gfMul (a b : Sym) : Sym := gfMulN 16 a b

/-- αᵏ. -/
def gfPow : Nat → Sym
  | 0 => 1
  | k + 1 => gfAlpha (gfPow k)

/-- A polynomial, lowest coefficient first, times (x − αᵏ). -/
def polyTimes (p : List Sym) (k : Nat) : List Sym :=
  List.zipWith (· ^^^ ·) (0 :: p) (p.map (gfMul (gfPow k)) ++ [0])

/-- The generator polynomial (x − α⁰)(x − α¹)(x − α²)(x − α³), lowest coefficient first (R374). -/
def rsGen : List Sym := (List.range 4).foldl polyTimes [1]

/-- One data symbol, from the highest coefficient down, through the division by the generator. -/
def rsShift (r : List Sym) (x : Sym) : List Sym :=
  let fb := x ^^^ r.getD 3 0
  List.zipWith (fun a g => a ^^^ gfMul fb g) (0 :: r.take 3) (rsGen.take 4)

/-- Data symbol i of a 64-byte word is its bytes 2i and 2i + 1, little-endian (R374). -/
def rsData : List Byte → List Sym
  | b0 :: b1 :: bs => (b0.setWidth 16 ||| (b1.setWidth 16 <<< 8)) :: rsData bs
  | _ => []

/-- Check symbols 0 to 3 of 32 data symbols: the remainder of the data's polynomial times x⁴. -/
def rsCheck (ds : List Sym) : List Sym := ds.reverse.foldl rsShift [0, 0, 0, 0]

/-- The 36 symbols of a word: the coefficients of x⁰ to x³⁵, check symbols first. -/
def rsEncode (bs : List Byte) : List Sym := rsCheck (rsData bs) ++ rsData bs

/-- The value of a received word's polynomial at αʲ. -/
def rsSyndrome (w : List Sym) (j : Nat) : Sym := w.reverse.foldl (fun acc c => gfMul acc (gfPow j) ^^^ c) 0

/-- What the decoder finds: no error, the positions of the one or two symbols it corrects, or an uncorrectable word. -/
inductive RsOut where
  | clean
  | corrected (pos : List Nat)
  | uncorrectable
  deriving DecidableEq, Repr

/-- The decoder of R375: every error confined to at most two of the 36 symbols is corrected. -/
def rsDecode (w : List Sym) : RsOut :=
  let s0 := rsSyndrome w 0
  let s1 := rsSyndrome w 1
  let s2 := rsSyndrome w 2
  let s3 := rsSyndrome w 3
  if s0 = 0 ∧ s1 = 0 ∧ s2 = 0 ∧ s3 = 0 then .clean
  else
    let one (k : Nat) : Bool := s0 != 0 && gfMul s0 (gfPow k) == s1 && gfMul s1 (gfPow k) == s2 && gfMul s2 (gfPow k) == s3
    let two (i j : Nat) : Bool :=
      let a := gfPow i ^^^ gfPow j
      let b := gfMul (gfPow i) (gfPow j)
      gfMul a s1 ^^^ gfMul b s0 == s2 && gfMul a s2 ^^^ gfMul b s1 == s3 &&
        gfMul (gfPow i) s0 != s1 && gfMul (gfPow j) s0 != s1
    match (List.range 36).find? one with
    | some k => .corrected [k]
    | none =>
      match ((List.range 36).flatMap fun i => (List.range 36).map fun j => (i, j)).find? fun x => decide (x.1 < x.2) && two x.1 x.2 with
      | some x => .corrected [x.1, x.2]
      | none => .uncorrectable

/-- The error pattern of an injection of `n` symbols (R385): 0xFFFF on data symbols 0 to n − 1, n at most 3. The code is linear, so the
decoder's outcome for a stored word is its outcome for the error pattern alone (R375). -/
def errPattern (n : Nat) : List Sym :=
  List.replicate 4 0 ++ List.replicate (min n 3) 0xFFFF ++ List.replicate (32 - min n 3) 0

end Sys2Proof.Machine
end

