-- ==== Sys2Proof/Machine/Memory.lean ====
section
/-!
DEFINITION. Memory.lean: accesses to the store rooms and cellars: code words and their correction (R374 to R379), error
injection (R385), partial words (R217), the trunk's combining buffers (R230), and the loft (R226 to R228).
-/
namespace Sys2Proof.Machine

/-- The pieces of a range between multiples of `g`, as (address, length), ascending. -/
def pieces (g a n : Nat) : List (Nat × Nat) :=
  if n = 0 then [] else
  (List.range (cdiv (a % g + n) g)).map fun i =>
    let lo := max a ((a / g + i) * g)
    (lo, min (a + n) ((a / g + i + 1) * g) - lo)

/-- The home die of a memory address; unmapped addresses answer die 0 and are never accessed. -/
def homeDie (a : Nat) : DieId :=
  match (regionAt a).bind Region.home with
  | some d => d
  | none => 0

/-- Whether an address lies in a store room. -/
def isStore (a : Nat) : Bool := match regionAt a with | some (.store _) => true | _ => false

/-- The stack controller that serves a cellar address (R215). -/
def scOf (a : Nat) : Nat := a % 0x4000000000 / 4096 % 96 / 32

/-- UE_INFO.REQ of a requester (R387). -/
def MemReq.ueCode : MemReq → Nat
  | .mover _ => 0
  | .engine _ => 1
  | .ce _ => 2
  | .cc _ => 3
  | .host => 4
  | .steward => 5
  | .scrub _ => 6
  | .disp _ | .copier _ | .trunk _ => 7

/-- Whether a requester is the scrubber. -/
def MemReq.isScrub : MemReq → Bool
  | .scrub _ => true
  | _ => false

/-- Counts the bytes of an access at their home (R232, R235): `write` selects the tally. -/
def tallyBytes (w : MemReq) (write : Bool) (a n : Nat) (s : State) : State :=
  let h := homeDie a
  if isStore a then
    let s1 := tallyQty (pgSR h) (b2n write) 256 n s
    match w with
    | .mover d => if d = h then s1 else tallyQty (pgSR h) 4 256 n s1
    | _ => s1
  else
    forEach (fun (pc : Nat × Nat) s =>
      let p := pgSCof h (scOf pc.1)
      let s1 := tallyQty p (b2n write) 256 pc.2 s
      match w with
      | .host => tallyQty p 4 256 pc.2 s1
      | .mover d | .cc d => if d = h then s1 else tallyQty p 3 256 pc.2 s1
      | _ => s1) (pieces 4096 a n) s

/-- The number of corrupted symbols of the code word that holds `a`. -/
def wordErr (s : State) (a : Nat) : Nat := sget zn s.errs (a / 64)

/-- Records a correction of the code word that holds `a` at the symbol positions `pos` (R376, R377): the corrected word is written back,
INTEG_CE, the tally, and CE_RATE once per lap. -/
def recordCorrection (scrub : Bool) (pos : List Nat) (a : Nat) (s : State) : State :=
  let h := homeDie a
  let p := pgINTEG h
  let x := s.dies[h].integ
  let lap := x.lapCorr + 1
  let rate := decide (gf s p INTEG_CFG_CE_THRESH ≠ 0) && decide (lap = gf s p INTEG_CFG_CE_THRESH) && !x.rateRaised
  let info := pos.getD 0 63 + pos.getD 1 63 * 2 ^ 6 + b2n (isStore a) * 2 ^ 12 + b2n scrub * 2 ^ 13 + 2 ^ 31
  let s1 := { s with errs := sset zn s.errs (a / 64) 0 }
  let s2 := wr64 (p + CE_ADDR_LO_V.off) (a / 64 * 64) s1
  let s3 := wr (p + CE_INFO_SYM0.off) (BitVec.ofNat 32 info) s2
  let s4 := onDie h (fun x => { x with integ := { x.integ with lapCorr := lap, rateRaised := x.integ.rateRaised || rate } }) s3
  tallyAdd p (b2n scrub) 1 (if rate then raise p 0 s4 else s4)

/-- Records an uncorrectable word (R378, R379): INTEG_UE, LAST_ERR of the home's INTEG page, tally and event. -/
def recordUncorrectable (w : MemReq) (partialWr : Bool) (a : Nat) (s : State) : State :=
  let p := pgINTEG (homeDie a)
  let info := 1 + b2n (isStore a) * 2 + w.ueCode * 4 + b2n partialWr * 32
  let s1 := wr64 (p + UE_ADDR_LO_V.off) (a / 64 * 64) s
  let s2 := wr (p + UE_INFO_VALID.off) (BitVec.ofNat 32 info) s1
  let s3 := blockErr p eUNCORRECTABLE s2
  if w.isScrub then raise p 2 (tallyAdd p 3 1 s3)
  else if partialWr then tallyAdd p 5 1 s3
  else raise p 1 (tallyAdd p 2 1 s3)

/-- Reads the code word that holds `a` under its code: corrected and written back, or uncorrectable (R375, R376, R378). -/
def readWord (w : MemReq) (partialWr : Bool) (a : Nat) (s : State) : State × Nat :=
  match wordErr s a with
  | 0 => (s, eOK)
  | n + 1 =>
    match rsDecode (errPattern (n + 1)) with
    | .clean => (s, eOK)
    | .corrected pos => (recordCorrection w.isScrub pos a s, eOK)
    | .uncorrectable => (recordUncorrectable w partialWr a s, eUNCORRECTABLE)

/-- A whole-word write to the armed address stores corrupted symbols and clears ARM (R385). -/
def inject (a : Nat) (s : State) : State :=
  let p := pgINTEG (homeDie a)
  if gf s p INJ_CTRL_ARM = 1 ∧ rd64 s (p + INJ_ADDR_LO_V.off) / 64 = a / 64 then
    tallyAdd p 10 1 (sf p INJ_CTRL_DONE 1 (sf p INJ_CTRL_ARM 0
      { s with errs := sset zn s.errs (a / 64) (gf s p INJ_CTRL_SYMS) }))
  else s

/-- Writes bytes within one code word (R217, R379): whole words without a read; partial words by read-modify-write. -/
def writeWord (w : MemReq) (a : Nat) (bs : List Byte) (s : State) : State × Nat :=
  let h := homeDie a
  if bs.length = 64 then
    (inject a { poke a bs s with errs := sset zn s.errs (a / 64) 0 }, eOK)
  else
    match readWord w true a s with
    | (s1, 0) =>
      (poke a bs (if isStore a then tallyAdd (pgSR h) 3 1 s1 else tallyAdd (pgSCof h (scOf a)) 2 1 s1), eOK)
    | (s1, c) => (s1, c)

/-! ### The trunk -/

/-- Merges written bytes into the bytes of a word. -/
def mergeBytes : List (Option Byte) → List Byte → List Byte
  | o :: os, b :: bs => o.getD b :: mergeBytes os bs
  | _, bs => bs

/-- Writes one held word of the trunk of die `d`: whole when every byte is held, else by read-modify-write (R230). -/
def trunkWriteWord (d : DieId) (t : TrunkWord) (s : State) : State × Nat :=
  let p := pgTRUNK d
  let n := (t.bytes.filter Option.isSome).length
  let s0 := onDie d (fun x => { x with trunk := x.trunk.filter fun u => u.addr != t.addr }) s
  let s0 := wr (p + TRUNK_STAT_V.off) (BitVec.ofNat 32 s0.dies[d].trunk.length) s0
  if t.bytes.all Option.isSome then
    let r := writeWord (.trunk d) t.addr (mergeBytes t.bytes (peek s0 t.addr 64)) s0
    (tallyBytes (.trunk d) true t.addr n (tallyAdd p 0 1 r.1), r.2)
  else
    match readWord (.trunk d) true t.addr s0 with
    | (s1, 0) =>
      let s2 := tallyAdd p 1 1 (tallyAdd (pgSR d) 3 1 (poke t.addr (mergeBytes t.bytes (peek s1 t.addr 64)) s1))
      (tallyBytes (.trunk d) true t.addr n s2, eOK)
    | (s1, c) => (s1, c)

/-- A held word that cannot be written faults the task whose MST last wrote it (R378, R379): the VX faults at its next instruction. -/
def trunkFault (d : DieId) (t : TrunkWord) (c : Nat) (s : State) : State :=
  onDie d (fun x => { x with vx := x.vx.mapIdx fun i v =>
    if i = t.vx ∧ v.serial = t.serial ∧ v.task.isSome then { v with trunkErr := c } else v }) s

/-- Before another requester touches a byte of a word the trunk holds, the trunk writes that word (R230). -/
def trunkTouch (a n : Nat) (s : State) : State :=
  match regionAt a with
  | some (.store d) =>
    forEach (fun t s =>
      match trunkWriteWord d t (tallyAdd (pgTRUNK d) 2 1 s) with
      | (s1, 0) => s1
      | (s1, c) => trunkFault d t c s1)
      (s.dies[d].trunk.filter fun t => decide (t.addr < a + n) && decide (a < t.addr + 64)) s
  | _ => s

/-! ### Whole accesses -/

/-- Code words of a range that hold a corrupted symbol, ascending. -/
def badWords (s : State) (a n : Nat) : List Nat :=
  ((s.errs.filter fun e => decide (e.1 * 64 < a + n) && decide (a < e.1 * 64 + 64))).map fun e => e.1 * 64

/-- Reads a range after its checks have passed: the trunk gives up held words, and every code word is corrected. -/
def readRange (w : MemReq) (a n : Nat) (s : State) : State × Nat :=
  if n = 0 then (s, eOK) else
  let s1 := trunkTouch a n s
  match forUntil (fun x s => readWord w false x s) (badWords s1 a n) s1 with
  | (s2, 0) => (tallyBytes w false a n s2, eOK)
  | (s2, c) => (s2, c)

/-- A read of `n` bytes at `a` (R24, R518): the state, the code, and the bytes when the code is OK. -/
def memRead (w : MemReq) (a n : Nat) (s : State) : State × Nat × List Byte :=
  if n = 0 then (s, eOK, []) else
  match accessCheck w a n false s with
  | 0 =>
    match readRange w a n s with
    | (s1, 0) => (s1, eOK, peek s1 a n)
    | (s1, c) => (s1, c, [])
  | c => (s, c, [])

/-- Writes the pieces of a range in ascending order. -/
def writePieces (w : MemReq) (base : Nat) (bs : List Byte) (ps : List (Nat × Nat)) (s : State) : State × Nat :=
  forUntil (fun pc s => writeWord w pc.1 ((bs.drop (pc.1 - base)).take pc.2) s) ps s

/-- Invalidates the loft lines of die `d` that `p` selects, and marks line requests under way that `p` selects so that
their data is not placed (R228). -/
def loftDrop (d : DieId) (p : Nat → LoftLine → Bool) (q : LineReq → Bool) (s : State) : State :=
  onDie d (fun x => { x with
    loft := x.loft.filter fun e => match e.2 with | some l => !p e.1 l | none => false
    lineReqs := x.lineReqs.map fun r => if q r then { r with killed := true } else r }) s

/-- Lines of the loft that `p` selects. -/
def loftCount (s : State) (d : DieId) (p : Nat → LoftLine → Bool) : Nat :=
  (s.dies[d].loft.filter fun e => match e.2 with | some l => p e.1 l | none => false).length

/-- A write of bytes at `a` (R24, R518): whole, or failing before any byte moves at checks 1 to 4. A mover's write to
another die's cellar invalidates its own die's loft lines (R228). -/
def memWrite (w : MemReq) (a : Nat) (bs : List Byte) (s : State) : State × Nat :=
  if bs.length = 0 then (s, eOK) else
  match accessCheck w a bs.length true s with
  | 0 =>
    let s0 := trunkTouch a bs.length s
    let s1 :=
      match w with
      | .mover d =>
        if homeDie a ≠ d ∧ !isStore a then
          let hit (k : Nat) : Bool := decide (k * 256 < a + bs.length) && decide (a < k * 256 + 256)
          let n := loftCount s0 d fun k _ => hit k
          tallyAdd (pgLOFT d) 6 n (loftDrop d (fun k _ => hit k) (fun r => hit (r.addr / 256)) s0)
        else s0
      | _ => s0
    match writePieces w a bs (pieces 64 a bs.length) s1 with
    | (s2, 0) => (tallyBytes w true a bs.length s2, eOK)
    | (s2, c) => (s2, c)
  | c => (s, c)

/-! ### The loft -/

/-- The set of a line (R226). -/
def loftSet (line : Nat) : Nat := (line % 8192) ^^^ (line / 8192 % 8192)

/-- The ways of a set in use. -/
def loftWays (s : State) (d : DieId) (set : Nat) : List Nat :=
  s.dies[d].loft.filterMap fun e => match e.2 with | some l => if loftSet e.1 = set then some l.way else none | none => none

/-- The victim way of a set's tree state (R226): four levels, each bit naming the side to replace next. -/
def plruVictim (t : Nat) : Nat :=
  let b0 := b2n (bit t 0)
  let b1 := b2n (bit t (1 + b0))
  let b2 := b2n (bit t (3 + 2 * b0 + b1))
  let b3 := b2n (bit t (7 + 4 * b0 + 2 * b1 + b2))
  8 * b0 + 4 * b1 + 2 * b2 + b3

/-- Sets bit `i` of a number. -/
def setBit (t i : Nat) (b : Bool) : Nat := t - b2n (bit t i) * 2 ^ i + b2n b * 2 ^ i

/-- The tree state after a use of way `w`: each node on its path names the other side. -/
def plruTouch (t w : Nat) : Nat :=
  let b0 := w / 8 % 2
  let b1 := w / 4 % 2
  let b2 := w / 2 % 2
  let b3 := w % 2
  setBit (setBit (setBit (setBit t 0 (b0 == 0)) (1 + b0) (b1 == 0)) (3 + 2 * b0 + b1) (b2 == 0))
    (7 + 4 * b0 + 2 * b1 + b2) (b3 == 0)

/-- Places a line in the loft of die `d` (R226, R227). -/
def loftFill (d : DieId) (line : Nat) (stable : Bool) (data : List Byte) (s : State) : State :=
  let set := loftSet line
  let used := loftWays s d set
  let t := sget zn s.dies[d].plru set
  let way := match (List.range 16).find? (fun w => !used.contains w) with | some w => w | none => plruVictim t
  let s1 := onDie d (fun x => { x with
    loft := sset zline (x.loft.filter fun e => match e.2 with | some l => !(loftSet e.1 == set && l.way == way) | none => false)
      line (some ⟨data, way, stable, false⟩)
    plru := sset zn x.plru set (plruTouch t way) }) s
  tallyAdd (pgLOFT d) 2 1 s1

/-- A line read from its home, and placed in the loft (R227). -/
def loftFetch (d : DieId) (stable : Bool) (a n : Nat) (s : State) : State × Nat × List Byte :=
  let line := a / 256
  match readRange (.mover d) (line * 256) 256 s with
  | (s1, 0) => (loftFill d line stable (peek s1 (line * 256) 256) s1, eOK, peek s1 a n)
  | (s1, c) => (s1, c, [])

/-- A mover's read of one loft line's part of a remote cellar (R227): from the loft on a hit, else from the home, which
fills the line. A line with a parity error is invalidated, and its home serves the read (R228). -/
def loftRead (d : DieId) (stable : Bool) (a n : Nat) (s : State) : State × Nat × List Byte :=
  let line := a / 256
  match sget zline s.dies[d].loft line with
  | some l =>
    if l.upset then
      loftFetch d (l.stepStable && stable) a n (tallyAdd (pgLOFT d) 7 1 (loftDrop d (fun k _ => k == line) (fun _ => false) s))
    else
    let s1 := onDie d (fun x => { x with
      loft := sset zline x.loft line (some { l with stepStable := l.stepStable && stable })
      plru := sset zn x.plru (loftSet line) (plruTouch (sget zn x.plru (loftSet line)) l.way) }) s
    (tallyAdd (pgLOFT d) 0 1 s1, eOK, (l.data.drop (a % 256)).take n)
  | none => loftFetch d stable a n (tallyAdd (pgLOFT d) 1 1 s)

/-- A read by a mover of die `d` (R227): own cellar, store rooms and uncached tensors from the home; the rest through the
loft. -/
def moverRead (d : DieId) (uncached stable : Bool) (a n : Nat) (s : State) : State × Nat × List Byte :=
  if n = 0 then (s, eOK, []) else
  match accessCheck (.mover d) a n false s with
  | 0 =>
    if isStore a || homeDie a == d then
      match readRange (.mover d) a n s with
      | (s1, 0) => (s1, eOK, peek s1 a n)
      | (s1, c) => (s1, c, [])
    else if uncached || gf s (pgLOFT d) LOFT_CFG_ENABLE == 0 then
      match readRange (.mover d) a n (tallyAdd (pgLOFT d) 5 (pieces 256 a n).length s) with
      | (s1, 0) => (s1, eOK, peek s1 a n)
      | (s1, c) => (s1, c, [])
    else
      (pieces 256 a n).foldl (fun (acc : State × Nat × List Byte) pc =>
        if acc.2.1 = 0 then
          let r := loftRead d stable pc.1 pc.2 acc.1
          (r.1, r.2.1, acc.2.2 ++ r.2.2)
        else acc) (s, eOK, [])
  | c => (s, c, [])

end Sys2Proof.Machine
end

