-- ==== Sys2Proof/Machine/Operands.lean ====
section
/-!
DEFINITION. Operands.lean: graph images and their descriptors (R92 to R100), tensors and the format in force (R98, R241),
views and the addresses of their elements (R131, R132, R149), version slots (R265 to R268), and reading and writing rows.
-/
namespace Sys2Proof.Machine

/-! ### Images -/

/-- The header fields of a graph image at `base` (R92). -/
structure Img where
  base : Nat
  minor : Nat
  major : Nat
  die : Nat
  seq : Nat
  len : Nat
  frames : Nat
  tasks : Nat
  tensors : Nat
  succs : Nat
  progLen : Nat
  inRemote : List Nat
  outRemote : List Nat
  frameOff : Nat
  taskOff : Nat
  tensorOff : Nat
  succOff : Nat
  progOff : Nat
  deriving DecidableEq, Repr

/-- A little-endian field of package memory. -/
def memNat (s : State) (a n : Nat) : Nat := leNat (peek s a n)

/-- Reads an image header (R92). -/
def readImg (s : State) (base : Nat) : Img :=
  let f (o n : Nat) : Nat := memNat s (base + o) n
  { base := base, minor := f 4 1, major := f 5 1, die := f 6 1, seq := f 8 4, len := f 12 4, frames := f 16 2
    tasks := f 20 4, tensors := f 24 4, succs := f 28 4, progLen := f 32 4
    inRemote := [f 36 4, f 40 4, f 44 4, f 48 4], outRemote := [f 52 4, f 56 4, f 60 4, f 64 4]
    frameOff := f 68 4, taskOff := f 72 4, tensorOff := f 76 4, succOff := f 80 4, progOff := f 84 4 }

/-- TYPE and DEADLINE of frame `f` (R93). -/
def frameType (s : State) (i : Img) (f : Nat) : Nat := memNat s (i.base + i.frameOff + 16 * f) 1
/-- R93. -/ def frameDeadline (s : State) (i : Img) (f : Nat) : Nat := memNat s (i.base + i.frameOff + 16 * f + 4) 4

/-- The slot that is ACTIVE on a die, with its image (R105). -/
def activeSlot (s : State) (d : DieId) : Option Slot :=
  if gf s (pgDISP d) DISP_ACTIVE_VALID = 1 then
    some (if gf s (pgDISP d) DISP_ACTIVE_SLOT = 0 then s.dies[d].disp.slotA else s.dies[d].disp.slotB)
  else none

/-- The image in force on a die. -/
def activeImg (s : State) (d : DieId) : Option Img := (activeSlot s d).map fun sl => readImg s sl.base

/-- A task descriptor (R94): its fields and its PARAMS bytes. -/
structure Task where
  frame : Nat
  unit : Nat
  phase : Nat
  stall : Nat
  opcode : Nat
  preds : Nat
  succIdx : Nat
  succCnt : Nat
  cqPost : Bool
  sin : List Nat
  sout : Nat
  opers : List Nat
  params : List Byte
  deriving DecidableEq, Repr

/-- Reads task `t` of an image (R94). -/
def readTask (s : State) (i : Img) (t : Nat) : Task :=
  let a := i.base + i.taskOff + 128 * t
  let f (o n : Nat) : Nat := memNat s (a + o) n
  { frame := f 0 2 % 4096, unit := f 2 1 % 32, phase := f 3 1 % 8, stall := f 3 1 / 16 % 8, opcode := f 4 2, preds := f 6 2
    succIdx := f 8 4, succCnt := f 12 2, cqPost := bit (f 14 2) 0
    sin := (List.range 8).map fun k => f (16 + k) 1, sout := f 24 1
    opers := (List.range 8).map fun k => f (32 + 4 * k) 4, params := peek s (a + 64) 64 }

/-- A little-endian PARAMS field, by its byte number in the descriptor, from 64 to 127. -/
def Task.p (t : Task) (o n : Nat) : Nat := leNat ((t.params.drop (o - 64)).take n)

/-- A PARAMS word as an X32 encoding. -/
def Task.px (t : Task) (o : Nat) : W := BitVec.ofNat 32 (t.p o 4)

/-- Operand word `k`. -/
def Task.op (t : Task) (k : Nat) : Nat := t.opers.getD k 0
/-- TENSOR of an operand word (R97). -/
def Task.tensor (t : Task) (k : Nat) : Nat := t.op k % 2 ^ 16
/-- ROLE of an operand word: 0 unused (R97). -/
def Task.role (t : Task) (k : Nat) : Nat := t.op k / 2 ^ 16 % 8
/-- VER of an operand word (R97). -/
def Task.ver (t : Task) (k : Nat) : Nat := t.op k / 2 ^ 19 % 2

/-- Successor entry `n` of an image (R100): die and task. -/
def readSucc (s : State) (i : Img) (n : Nat) : Nat × Nat :=
  let v := memNat s (i.base + i.succOff + 4 * n) 4
  (v / 2 ^ 18 % 4, v % 2 ^ 18)

/-! ### Tensors -/

/-- A tensor descriptor (R98). `strides` holds STRIDE[1] to STRIDE[3]. -/
structure Tensor where
  id : Nat
  base : Nat
  fmt : Nat
  gcode : Nat
  gaxis : Nat
  aft : Nat
  cls : Nat
  stable : Bool
  uncached : Bool
  trunk : Bool
  rank : Nat
  vspan : Nat
  dims : List Nat
  strides : List Nat
  watch : Nat
  pair : Nat
  scaleBase : Nat
  auxBase : Nat
  deriving DecidableEq, Repr

/-- Reads tensor `t` of an image (R98). -/
def readTensor (s : State) (i : Img) (t : Nat) : Tensor :=
  let a := i.base + i.tensorOff + 64 * t
  let f (o n : Nat) : Nat := memNat s (a + o) n
  { id := t, base := f 0 8, fmt := f 8 1, gcode := f 9 1 % 4, gaxis := f 9 1 / 4 % 4, aft := f 9 1 / 16 % 4
    cls := f 10 1 % 16, stable := bit (f 10 1) 4, uncached := bit (f 10 1) 5, trunk := bit (f 10 1) 6, rank := f 11 1 % 8
    vspan := f 12 4, dims := [f 16 4, f 20 4, f 24 4, f 28 4], strides := [f 32 4, f 36 4, f 40 4]
    watch := f 44 2, pair := f 46 2, scaleBase := f 48 8, auxBase := f 56 8 }

/-- Elements of a group: 1 when GSIZE is 0. -/
def Tensor.g (t : Tensor) : Nat := match t.gcode with | 0 => 1 | 1 => 32 | 2 => 64 | _ => 128

/-- DIM[k]. -/
def Tensor.dim (t : Tensor) (k : Nat) : Nat := t.dims.getD k 1

/-- Rows of the straight view: DIM1 × DIM2 × DIM3 (R149). -/
def Tensor.rows (t : Tensor) : Nat := t.dim 1 * t.dim 2 * t.dim 3

/-- Element count. -/
def Tensor.elems (t : Tensor) : Nat := t.dim 0 * t.rows

/-! ### The watch table (R240, R241, R263) -/

/-- A word of a watch table entry: DECL0 to DECL4 are words 0 to 4, ST0 and ST1 words 5 and 6. -/
def watchWord (s : State) (d : DieId) (e k : Nat) : Nat := (sget zwatch s.dies[d].watch.tab (8 * e + k)).toNat

/-- A field of a watch table entry, as WATCH_DECL and WATCH_ST name it. -/
def watchFld (s : State) (d : DieId) (e : Nat) (f : Fld) : Nat :=
  watchWord s d e ((f.off - WATCH_DECL0_FLOOR.off) / 4) / 2 ^ f.lo % 2 ^ f.width

/-- Sets a field of a watch table entry. -/
def setWatchFld (d : DieId) (e : Nat) (f : Fld) (n : Nat) (s : State) : State :=
  let k := 8 * e + (f.off - WATCH_DECL0_FLOOR.off) / 4
  onDie d (fun x => { x with watch := { x.watch with tab := sset zwatch x.watch.tab k (setFld (sget zwatch x.watch.tab k) f n) } }) s

/-- The format of a rung (R241). -/
def rungFmt (q8kind rung : Nat) : Nat :=
  match rung with
  | 0 => 7
  | 1 => 5
  | 2 => if q8kind = 0 then 3 else 4
  | _ => 2

/-- Whether an entry applies the ladder. -/
def ladderOn (s : State) (d : DieId) (e : Nat) : Bool := e != 0xFFFF && watchFld s d e WATCH_DECL0_LADDER == 1

/-- The format in force of a tensor (R241). -/
def fmtInForce (s : State) (d : DieId) (t : Tensor) : Nat :=
  if ladderOn s d t.watch then rungFmt (watchFld s d t.watch WATCH_DECL0_Q8KIND) (watchFld s d t.watch WATCH_ST0_RUNG)
  else t.fmt

/-- The format that sizes a tensor: the ceiling rung's under the ladder (R132). -/
def fmtCeil (s : State) (d : DieId) (t : Tensor) : Nat :=
  if ladderOn s d t.watch then rungFmt (watchFld s d t.watch WATCH_DECL0_Q8KIND) (watchFld s d t.watch WATCH_DECL0_CEIL)
  else t.fmt

/-! ### Views -/

/-- A tensor as a unit reaches it: element 0's address, the format in force, and where scales and zero points lie. -/
structure View where
  t : Tensor
  base : Nat
  fmt : Nat
  scaleBase : Nat
  gaxis : Nat
  deriving DecidableEq, Repr

/-- Whether elements carry group scales. -/
def View.grouped (v : View) : Bool := fmtGrouped v.fmt

/-- Coordinates of row ρ in DIM1 to DIM3 (R149). -/
def Tensor.coord (t : Tensor) (row : Nat) : Nat × Nat × Nat :=
  (row % t.dim 1, row / t.dim 1 % t.dim 2, row / (t.dim 1 * t.dim 2))

/-- Address of the first byte of row ρ. -/
def View.rowAddr (v : View) (row : Nat) : Nat :=
  let c := v.t.coord row
  v.base + c.1 * v.t.strides.getD 0 0 + c.2.1 * v.t.strides.getD 1 0 + c.2.2 * v.t.strides.getD 2 0

/-- Bytes of a row (R131). -/
def View.rowBytes (v : View) : Nat := cdiv (v.t.dim 0 * fmtBits v.fmt) 8

/-- Number of the group of element `i` of row ρ (R132). -/
def View.group (v : View) (row i : Nat) : Nat :=
  let g := v.t.g
  let c := v.t.coord row
  let d (k : Nat) : Nat := if v.gaxis = k then v.t.dim k / g else v.t.dim k
  let x (k n : Nat) : Nat := if v.gaxis = k then n / g else n
  x 0 i + d 0 * (x 1 c.1 + d 1 * (x 2 c.2.1 + d 2 * x 3 c.2.2))

/-- Element codes packed in bytes, least significant bits first (R131); `off` is the first bit. -/
def unpack (bits off n : Nat) (bs : List Byte) : List Nat :=
  let v := leNat bs
  (List.range n).map fun k => v / 2 ^ (off + k * bits) % 2 ^ bits

/-- Bytes that hold element codes, packed from bit `off`, over the bits `old` holds. -/
def pack (bits off : Nat) (codes : List Nat) (old : List Byte) : List Byte :=
  let n := codes.length * bits
  let v := leNat old
  let body := codes.reverse.foldl (fun acc c => acc * 2 ^ bits + c % 2 ^ bits) 0
  leBytes old.length (v % 2 ^ off + body * 2 ^ off + v / 2 ^ (off + n) * 2 ^ (off + n))

/-- How a unit reads memory. -/
abbrev Reader := Nat → Nat → State → State × Nat × List Byte

/-- How a unit writes memory. -/
abbrev Writer := Nat → List Byte → State → State × Nat

/-- Codes of elements `i` to `i + n - 1` of row ρ. -/
def readCodes (rdr : Reader) (v : View) (row i n : Nat) (s : State) : State × Nat × List Nat :=
  let b := fmtBits v.fmt
  let r := rdr (v.rowAddr row + i * b / 8) (cdiv (i * b % 8 + n * b) 8) s
  (r.1, r.2.1, if r.2.1 = 0 then unpack b (i * b % 8) n r.2.2 else [])

/-- Scale codes and zero points of the groups of elements `i` to `i + n - 1` of row ρ, one per element (R132). -/
def readScales (rdr : Reader) (v : View) (row i n : Nat) (s : State) : State × Nat × List (Nat × Nat) :=
  if !v.grouped || n == 0 then (s, eOK, (List.range n).map fun _ => (127, 0)) else
  let g0 := v.group row i
  let cnt := v.group row (i + n - 1) - g0 + 1
  match rdr (v.scaleBase + g0) cnt s with
  | (s1, 0, sc) =>
    if v.fmt = 6 then
      match rdr (v.t.auxBase + g0 / 2) (cdiv (g0 % 2 + cnt) 2) s1 with
      | (s2, 0, zs) =>
        let z := unpack 4 (4 * (g0 % 2)) cnt zs
        (s2, eOK, (List.range n).map fun k =>
          let j := v.group row (i + k) - g0
          ((sc.getD j 0).toNat, z.getD j 0))
      | (s2, c, _) => (s2, c, [])
    else (s1, eOK, (List.range n).map fun k => ((sc.getD (v.group row (i + k) - g0) 0).toNat, 0))
  | (s1, c, _) => (s1, c, [])

/-- Exact values of elements `i` to `i + n - 1` of row ρ; T2 code 0b10 answers BAD_ENCODING (R128). -/
def readVals (rdr : Reader) (v : View) (row i n : Nat) (s : State) : State × Nat × List FVal :=
  match readCodes rdr v row i n s with
  | (s1, 0, cs) =>
    if v.fmt = 7 && cs.any (· == 2) then (s1, eBAD_ENCODING, []) else
    match readScales rdr v row i n s1 with
    | (s2, 0, sc) =>
      (s2, eOK, (cs.zip sc).map fun e => if v.grouped then groupVal v.fmt e.2.2 e.2.1 e.1 else elemVal v.fmt 0 e.1)
    | (s2, c, _) => (s2, c, [])
  | (s1, c, _) => (s1, c, [])

/-- A value as a unit widens it to X32 (R133, R136): an X32 element keeps every bit; an infinity of a narrower format
becomes a NaN. -/
def widenElem (fmt : Nat) (v : FVal) : W := if fmt = 0 then r32 v else (widen v).1

/-- What a unit counts of the elements it widens to X32: a value beyond the X32 range saturates (R133), and a non-finite element of an
ungrouped format is a non-finite input (R136). DEDUCED: the decoding of a group's NaN is no conversion, and counts nothing. -/
def widenCnt (fmt : Nat) (vs : List FVal) : Cnt :=
  ⟨0, (vs.filter fun v => fmt != 0 && (widen v).2).length,
    (vs.filter fun v => (fmt == 1 || fmt == 2 || fmt == 8) && !v.isFin).length, 0, 0⟩

/-- X32 words of elements of a row, with what their widening counts. -/
def readX32 (rdr : Reader) (v : View) (row i n : Nat) (s : State) : State × Nat × List W × Cnt :=
  let r := readVals rdr v row i n s
  (r.1, r.2.1, r.2.2.map (widenElem v.fmt), widenCnt v.fmt r.2.2)

/-- Writes codes to elements `i` onwards of row ρ. The unused bits of a row's last byte are written as zero (R131). -/
def writeCodes (w : Writer) (v : View) (row i : Nat) (codes : List Nat) (s : State) : State × Nat :=
  let b := fmtBits v.fmt
  let a := v.rowAddr row + i * b / 8
  let n := cdiv (i * b % 8 + codes.length * b) 8
  let old := peek s a n
  let old := if v.t.dim 0 ≤ i + codes.length then leBytes n (leNat old % 2 ^ (i * b % 8)) else old
  w a (pack b (i * b % 8) codes old) s

/-- Writes one group's scale code and, for U4Z, its zero point (R132). -/
def writeScale (w : Writer) (v : View) (gi scale zp : Nat) (s : State) : State × Nat :=
  match w (v.scaleBase + gi) [BitVec.ofNat 8 scale] s with
  | (s1, 0) =>
    if v.fmt = 6 then
      let a := v.t.auxBase + gi / 2
      w a (pack 4 (4 * (gi % 2)) [zp] (peek s1 a 1)) s1
    else (s1, eOK)
  | (s1, c) => (s1, c)

/-- Splits a list into chunks of `g`; `n` bounds their number. -/
def chunks {α : Type} (g : Nat) : Nat → List α → List (List α)
  | 0, _ => []
  | n + 1, xs => if xs.isEmpty then [] else xs.take g :: chunks g n (xs.drop g)

/-- Writes whole encoded groups from element `i` of row ρ on, with their scales. -/
def writeGroups (w : Writer) (v : View) (row i : Nat) (gs : List EncGroup) (s : State) : State × Nat :=
  match writeCodes w v row i (gs.flatMap EncGroup.codes) s with
  | (s1, 0) =>
    forUntil (fun e s => writeScale w v (v.group row (i + e.2 * v.t.g)) e.1.scale e.1.zp s) gs.zipIdx s1
  | (s1, c) => (s1, c)

/-- Writes X32 words to elements `i` onwards of row ρ in the view's format: converted under R136, or in whole groups along
DIM0 under R137 to R140. Answers the counts of R141. -/
def writeX32 (w : Writer) (v : View) (row i : Nat) (xs : List W) (s : State) : State × Nat × Cnt :=
  if v.grouped then
    let gs := (chunks v.t.g (xs.length + 1) xs).map fun c => encGroup v.fmt (c.map x32)
    let r := writeGroups w v row i gs s
    (r.1, r.2, (gs.map EncGroup.cnt).foldl Cnt.add Cnt.none)
  else
    let cs := xs.map (convertElem v.fmt)
    let r := writeCodes w v row i (cs.map Prod.fst) s
    (r.1, r.2, (cs.map Prod.snd).foldl Cnt.add Cnt.none)

/-! ### Version slots (R265 to R268) -/

/-- The version entry of a weight or of the weight an optimiser-state tensor is paired with. -/
def weightOf (t : Tensor) : Option Nat := if t.cls = 1 then some t.id else if t.cls = 3 then some t.pair else none

/-- The version table entry of weight `k` of the active graph. -/
def ventry (s : State) (d : DieId) (k : Nat) : VEntry := sget zv s.dies[d].vtab k

/-- Address of slot `n` of a tensor; only weights and optimiser states have two (R265). -/
def slotAddr (s : State) (i : Img) (t : Tensor) (n : Nat) : Nat :=
  match t.cls with
  | 1 => t.base + n * t.vspan * 4096
  | 3 => t.base + n * (readTensor s i t.pair).vspan * 4096
  | _ => t.base

/-- The slot an operand word reaches (R266): `write` selects the slot written, else the slot read. -/
def operSlot (s : State) (d : DieId) (t : Tensor) (role ver : Nat) (write : Bool) : Nat :=
  match weightOf t with
  | none => 0
  | some k =>
    let cur := b2n (ventry s d k).cur
    let next := 1 - cur
    if write then next
    else if t.cls = 1 && ver == 1 && role == 1 then next
    else cur

/-- The view of a tensor in its format in force. -/
def viewOf (s : State) (d : DieId) (t : Tensor) (base : Nat) : View := ⟨t, base, fmtInForce s d t, t.scaleBase, t.gaxis⟩

/-- The view of operand `k` of a task for reading or for writing. -/
def operView (s : State) (d : DieId) (i : Img) (tk : Task) (k : Nat) (write : Bool) : View :=
  let t := readTensor s i (tk.tensor k)
  viewOf s d t (slotAddr s i t (operSlot s d t (tk.role k) (tk.ver k) write))

/-- Bytes from a tensor's base to the end of its last row, in format `fmt` (R132). -/
def Tensor.extent (t : Tensor) (fmt : Nat) : Nat :=
  (t.dim 1 - 1) * t.strides.getD 0 0 + (t.dim 2 - 1) * t.strides.getD 1 0 + (t.dim 3 - 1) * t.strides.getD 2 0
    + cdiv (t.dim 0 * fmtBits fmt) 8

/-- The second grouping of a tensor with AFT 2 (R132): its codes at AUX_BASE and its scales at the next multiple of 64
bytes after their extent in the format that sizes the tensor; grouped along DIM1 when GAXIS is 0, else along DIM0. -/
def secondView (s : State) (d : DieId) (v : View) : View :=
  { v with
    base := v.t.auxBase
    scaleBase := cdiv (v.t.auxBase + v.t.extent (fmtCeil s d v.t)) 64 * 64
    gaxis := if v.gaxis = 0 then 1 else 0 }

end Sys2Proof.Machine
end

