-- ==== Sys2Proof/Machine/Watch.lean ====
section
/-!
DEFINITION. Watch.lean: the numeric watch (R240 to R261): what writers count, shadow comparison, the side record, the ladder
rule, dormant tensors and sentinels.
-/
namespace Sys2Proof.Machine

/-- Index of the commit entry of an image's frame table (R93). -/
def commitFrame (s : State) (i : Img) : Nat :=
  ((List.range i.frames).find? fun f => frameType s i f == 2).getD i.frames

/-- FRAME of the image's SIDE task (R249, R322), when it holds one. -/
def sideFrame (s : State) (i : Img) : Option Nat :=
  ((List.range i.tasks).find? fun t => (readTask s i t).unit == 9 && (readTask s i t).opcode == 5).map
    fun t => (readTask s i t).frame

/-- Adds `n` to count `k` of an entry's running accumulators, saturating at 2^64 − 1 (R244). -/
def accAdd (d : DieId) (e k n : Nat) (s : State) : State :=
  onDie d (fun x => { x with watch := { x.watch with
    acc := sset zn x.watch.acc (8 * e + k) (min (sget zn x.watch.acc (8 * e + k) + n) (2 ^ 64 - 1)) } }) s

/-- Adds `n` to count `k` of an entry's counts that the next step start tick discards (R244). -/
def lateAdd (d : DieId) (e k n : Nat) (s : State) : State :=
  onDie d (fun x => { x with watch := { x.watch with
    late := sset zn x.watch.late (8 * e + k) (min (sget zn x.watch.late (8 * e + k) + n) (2 ^ 64 - 1)) } }) s

/-- Running count `k` of an entry as WATCH_CNT reads it: what the step keeps and what it discards. -/
def accShown (s : State) (d : DieId) (e k : Nat) : Nat :=
  min (sget zn s.dies[d].watch.acc (8 * e + k) + sget zn s.dies[d].watch.late (8 * e + k)) (2 ^ 64 - 1)

/-- The running accumulators go to 0 at a step start tick, and the discarded elements are counted (R244). -/
def watchClear (d : DieId) (s : State) : State :=
  let n := (s.dies[d].watch.late.filter fun e => e.1 % 8 == 0).foldl (fun a e => a + e.2) 0
  onDie d (fun x => { x with watch := { x.watch with acc := [], late := [] } }) (tallyQty (pgWATCH d) 8 1024 n s)

/-- Page base of sentinel slot `n` registers spaced 0x10 apart (R262). -/
def pgSent (d : DieId) (n : Nat) : Nat := pgWATCH d + 0x10 * n

/-- Tensor sentinels (R256): a non-finite element or a group with scale 0xFF written to a slot's entry sets its SENT_NF. -/
def tensorSentinels (d : DieId) (e : Nat) (s : State) : State :=
  forEach (fun n s =>
    if gf s (pgSent d n) SENT_CFG_EN = 1 ∧ gf s (pgSent d n) SENT_CFG_TENSOR = 1 ∧ gf s (pgSent d n) SENT_CFG_ENTRY = e then
      raise (pgWATCH d) 3 (onDie d (fun x => { x with watch := { x.watch with nfBits := x.watch.nfBits ||| 2 ^ n } }) s)
    else s) (List.range 8) s

/-- What a unit's writes to a tensor with watch entry `e` add, for a task of frame `f` (R244): the entry's accumulators. The counts of an
interlude frame, and of a frame at or above the side frame, are kept apart until the next step start tick discards them. -/
def watchWrite (d : DieId) (f e : Nat) (c : Cnt) (s : State) : State :=
  if e = 0xFFFF ∨ c.elems = 0 then s else
  match activeImg s d with
  | none => s
  | some i =>
    let s1 := tallyQty (pgWATCH d) 3 1048576 c.elems s
    let inStep := decide (f ≤ commitFrame s i)
    let s2 := if inStep && decide (0 < c.nonf + c.bad) then tensorSentinels d e s1 else s1
    let kept := inStep && (match sideFrame s i with | some g => decide (f < g) | none => true)
    let add := if kept then accAdd d e else lateAdd d e
    add 4 c.bad (add 3 c.nonf (add 2 c.sat (add 1 c.zero (add 0 c.elems s2))))

/-! ### Shadow comparison (R247) -/

/-- The largest finite magnitude of a row of reference values. -/
def rowMax (refs : List W) : FVal :=
  refs.foldl (fun m r => match x32 r with | .fin _ a e => if fLt m (.fin false a e) then .fin false a e else m | _ => m)
    (.fin false 0 0)

/-- Divergent elements of one sampled row. -/
def rowDivergent (divSh : Nat) (row : List (W × W)) : Nat :=
  let rmax := rowMax (row.map Prod.snd)
  let limit := match rmax with | .fin s m e => FVal.fin s m (e - divSh) | v => v
  (row.filter fun p =>
    !(x32 p.1).isFin || !(x32 p.2).isFin || fLt limit (fAbs (fAdd (x32 p.1) (fNeg (x32 p.2))))).length

/-- Compares one delivered sample and counts it in its entry (R247, R264). -/
def shadowCompare (d : DieId) (sh : Shadow) (s : State) : State :=
  let n := (sh.rows.map List.length).foldl (· + ·) 0
  let dv := (sh.rows.map (rowDivergent (watchFld s d sh.entry WATCH_DECL0_DIV_SH))).foldl (· + ·) 0
  tallyAdd (pgWATCH d) 2 dv (tallyQty (pgWATCH d) 1 1024 n (accAdd d sh.entry 6 dv (accAdd d sh.entry 5 n s)))

/-! ### Digests (R243, R258, R350) -/

/-- Words as little-endian bytes. -/
def wordsLE (ws : List W) : List Byte := ws.flatMap fun w => leBytes 4 w.toNat

/-- WATCH_DIGEST: WATCH_CFG and WATCH_DORM, the declarations of every entry, SENT_CFG and SENT_K of every slot. DEDUCED:
each register enters as 4 little-endian bytes, the two sentinel registers slot by slot. -/
def watchDigest (s : State) (d : DieId) : D :=
  let p := pgWATCH d
  let n := gf s p WATCH_CFG_COUNT
  crcA (wordsLE ([rd s (p + 0x100), rd s (p + 0x104)] ++
    (List.range n).flatMap (fun e => (List.range 5).map fun k => sget zwatch s.dies[d].watch.tab (8 * e + k)) ++
    (List.range 8).flatMap fun k => [rd s (p + 0x180 + 0x10 * k), rd s (p + 0x184 + 0x10 * k)]))

/-- WATCH_SDIGEST: the entry part of the ladder state (R258, R259). DEDUCED: WATCH_ST0 and WATCH_ST1 of entries 0 to
COUNT − 1 in ascending order. -/
def watchSDigest (s : State) (d : DieId) : D :=
  crcA (wordsLE ((List.range (gf s (pgWATCH d) WATCH_CFG_COUNT)).flatMap fun e =>
    [sget zwatch s.dies[d].watch.tab (8 * e + 5), sget zwatch s.dies[d].watch.tab (8 * e + 6)]))

/-! ### Side records (R249, R250) -/

/-- A die's contribution, copied from its running accumulators (R249). -/
def sideForm (s : State) (d : DieId) : SideRec :=
  let p := pgWATCH d
  { step := s.dies[d].disp.attStep
    tokens := if gf s p WATCH_TOKENS_VALID = 1 then (rd s (pgCC d + 0x204 + 8 * gf s p WATCH_TOKENS_REG)).toNat else 0
    count := gf s p WATCH_CFG_COUNT, mismatch := false, decl := watchDigest s d, counts := s.dies[d].watch.acc }

/-- Saturating addition at 2^64 − 1. -/
def satAdd (a b : Nat) : Nat := min (a + b) (2 ^ 64 - 1)

/-- Combines two records by saturating sums; a differing DECL sets MISMATCH (R250). -/
def sideCombine (a b : SideRec) : SideRec :=
  { a with
    tokens := satAdd a.tokens b.tokens
    mismatch := a.mismatch || b.mismatch || a.decl != b.decl
    counts := b.counts.foldl (fun m e => sset zn m e.1 (satAdd (sget zn m e.1) e.2)) a.counts }

/-- A record's bytes (R249). -/
def sideBytes (r : SideRec) : List Byte :=
  leBytes 8 r.step ++ leBytes 8 r.tokens ++ leBytes 2 r.count ++ leBytes 1 (b2n r.mismatch) ++ leBytes 5 0 ++
    leBytes 8 r.decl.toNat ++ leBytes 32 0 ++
    (List.range r.count).flatMap fun e => (List.range 8).flatMap fun k => leBytes 8 (if k = 7 then 0 else sget zn r.counts (8 * e + k))

/-- A record read from its bytes. -/
def sideParse (bs : List Byte) : SideRec :=
  let f (o n : Nat) : Nat := leNat ((bs.drop o).take n)
  let n := f 16 2
  { step := f 0 8, tokens := f 8 8, count := n, mismatch := bit (f 18 1) 0, decl := BitVec.ofNat 64 (f 24 8)
    counts := (List.range (8 * n)).foldl (fun m k => sset zn m k (f (64 + 8 * k) 8)) [] }

/-! ### The ladder rule (R252, R253, R255) -/

/-- Whether a step is above, and below, for entry `e` under the counts of `r`. -/
def ladderJudge (s : State) (d : DieId) (e : Nat) (r : SideRec) : Bool × Bool :=
  let c (k : Nat) : Nat := sget zn r.counts (8 * e + k)
  let g (f : Fld) : Nat := watchFld s d e f
  let evDiv := decide (0 < c 5)
  let evWr := decide (0 < c 0)
  (evDiv && decide (g WATCH_DECL2_UP_DIV * c 5 < c 6 * 65536)
    || evWr && decide (g WATCH_DECL3_UP_SAT * c 0 < c 2 * 65536)
    || evWr && decide (g WATCH_DECL4_UP_ZERO * c 0 < c 1 * 65536)
    || g WATCH_DECL0_NF_UP == 1 && decide (0 < c 3),
   (!evDiv || decide (c 6 * 65536 ≤ g WATCH_DECL2_DN_DIV * c 5))
    && (!evWr || decide (c 2 * 65536 ≤ g WATCH_DECL3_DN_SAT * c 0) && decide (c 1 * 65536 ≤ g WATCH_DECL4_DN_ZERO * c 0))
    && c 3 == 0)

/-- Rung, up run and down run of an entry after a step with evidence (R252). -/
def ladderNext (rung up dn floor ceil upP dnP : Nat) (demote above below : Bool) : Nat × Nat × Nat :=
  let up' := if above then min (up + 1) 65535 else 0
  let dn' := if above then 0 else if below then min (dn + 1) 65535 else 0
  if upP ≤ up' ∧ rung < ceil then (rung + 1, 0, 0)
  else if demote ∧ dnP ≤ dn' ∧ floor < rung then (rung - 1, 0, 0)
  else (rung, up', dn')

/-- The rung that R252 gives entry `e`, with its runs; unchanged without evidence or without LADDER. -/
def ladderEntry (s : State) (d : DieId) (e : Nat) (r : SideRec) : Nat × Nat × Nat :=
  let g (f : Fld) : Nat := watchFld s d e f
  let old := (g WATCH_ST0_RUNG, g WATCH_ST0_UP_RUN, g WATCH_ST1_DN_RUN)
  if g WATCH_DECL0_LADDER = 1 ∧ (0 < sget zn r.counts (8 * e + 5) ∨ 0 < sget zn r.counts (8 * e)) then
    let j := ladderJudge s d e r
    ladderNext old.1 old.2.1 old.2.2 (g WATCH_DECL0_FLOOR) (g WATCH_DECL0_CEIL) (g WATCH_DECL0_UP_PERSIST)
      (g WATCH_DECL1_DN_PERSIST) (g WATCH_DECL0_DEMOTE == 1) j.1 j.2
  else old

/-- A journal item (R354): TYPE, FLAGS and the body, padded to a multiple of 8. -/
def jitem (type flags : Nat) (body : List Byte) : List Byte :=
  let len := 8 * cdiv (8 + body.length) 8
  leBytes 1 type ++ leBytes 1 flags ++ leBytes 2 len ++ leBytes 4 0 ++ body ++ leBytes (len - 8 - body.length) 0

/-- Changes the journal of a die. -/
def onJrnl (d : DieId) (f : Jrnl → Jrnl) (s : State) : State := onDie d (fun x => { x with jrnl := f x.jrnl }) s

/-- Changes the journal record in course on a die. -/
def onRec (d : DieId) (f : JRec → JRec) (s : State) : State := onJrnl d (fun j => { j with recd := f j.recd }) s

/-- Adds an item to the record in course, or drops it when it would not leave the buffer room for a GAP item (R355). With
JRNL_CFG.EN at 0 no record is built. -/
def addItem (d : DieId) (it : List Byte) (s : State) : State :=
  let r := s.dies[d].jrnl.recd
  if !r.isOpen then s
  else if (r.items.map List.length).foldl (· + ·) 0 + it.length + 512 + 24 ≤ 262144 then
    onRec d (fun r => { r with items := r.items ++ [it] }) s
  else tallyAdd (pgJRNL d) 3 1 (onRec d (fun r => { r with itemsDropped := r.itemsDropped + 1, flags := r.flags ||| 16 }) s)

/-- LADDER items of a replayed record: (entry, new rung); and DORMANT items (R260). `n` bounds the items. -/
def replayItems (type : Nat) : Nat → List Byte → List (List Byte)
  | 0, _ => []
  | n + 1, bs =>
    if bs.length < 8 then [] else
    let len := max 8 (leNat ((bs.drop 2).take 2))
    (if leNat (bs.take 1) = type then [bs.take len] else []) ++ replayItems type n (bs.drop len)

/-- The items of a type of the replay record in force, when the die is in replay mode. -/
def recordItems (s : State) (d : DieId) (type : Nat) : List (List Byte) :=
  match s.dies[d].jrnl.record with
  | some b => replayItems type (b.length / 8) (b.drop 512)
  | none => []

/-- Whether a die is in replay mode (R359). -/
def replaying (s : State) (d : DieId) : Bool := gf s (pgJRNL d) JRNL_RPL_CTRL_MODE == 1

/-- Applies the ladder rule to entry `e` at a tick with COMMIT. In replay the recorded rung stands, and a differing result
is counted (R260). -/
def ladderApply (d : DieId) (r : SideRec) (e : Nat) (s : State) : State :=
  let p := pgWATCH d
  let old := watchFld s d e WATCH_ST0_RUNG
  let nx := ladderEntry s d e r
  let rep := (recordItems s d 3).find? fun it => leNat ((it.drop 8).take 2) == e
  let rung := if replaying s d then (match rep with | some it => leNat ((it.drop 11).take 1) | none => old) else nx.1
  let s1 := setWatchFld d e WATCH_ST1_DN_RUN nx.2.2 (setWatchFld d e WATCH_ST0_UP_RUN nx.2.1 (setWatchFld d e WATCH_ST0_RUNG rung s))
  let s2 := if replaying s d && rung != nx.1 then
      onRec d (fun r => { r with flags := r.flags ||| 64 }) (raise p 7 (tallyAdd p 9 1 s1)) else s1
  if rung = old then s2 else
  let cause := if old < rung then 1 else 2
  addItem d (jitem 3 0 (leBytes 2 e ++ leBytes 1 old ++ leBytes 1 rung ++ leBytes 1 cause ++ leBytes 3 0))
    (raise p (cause - 1) (tallyAdd p 6 1 s2))

/-- Applies R255 to entry `e` after the ladder rule; `held` tells whether the step had a reduced bucket. In replay DORMANT is raised where
the step's record holds it, whatever the die's own counts (R260). -/
def dormantApply (d : DieId) (held : Bool) (r : SideRec) (e : Nat) (s : State) : State :=
  let p := pgWATCH d
  let elems := sget zn r.counts (8 * e)
  let run := watchFld s d e WATCH_ST1_DORM_RUN
  let judged := watchFld s d e WATCH_DECL0_DORM_EN == 1 && held && decide (0 < elems)
  let run' := if sget zn r.counts (8 * e + 1) = elems then min (run + 1) 65535 else 0
  let fires :=
    if replaying s d then (recordItems s d 4).any fun it => leNat ((it.drop 8).take 2) == e
    else judged && run' == gf s p WATCH_DORM_DORM_STEPS
  let s1 := if judged then setWatchFld d e WATCH_ST1_DORM_RUN run' s else s
  if fires then
    addItem d (jitem 4 0 (leBytes 2 e ++ leBytes 6 0))
      (raise p 2 (wr (p + WATCH_DORM_LAST_ENTRY.off) (BitVec.ofNat 32 (e + 2 ^ 31)) s1))
  else s1

/-! ### Sentinels (R256, R257) -/

/-- The observation of scalar sentinel `n`: none when a MEAN count is 0. -/
def sentObserve (s : State) (d : DieId) (n : Nat) : Option W :=
  let a := pgCC d + 0x200 + 8 * gf s (pgSent d n) SENT_CFG_REG
  if gf s (pgSent d n) SENT_CFG_MEAN = 1 then
    if rd s (a + 4) = 0 then none else some (xDiv (rd s a) (xOfNat (rd s (a + 4)).toNat))
  else some (rd s a)

/-- k16 ÷ 16 as X32, exact. -/
def sentK (k16 : Nat) : W := r32 (.fin false k16 (-4))

/-- Whether observation `v` of slot `n` spikes (R257). -/
def sentSpike (s : State) (d : DieId) (n : Nat) (v : W) : Bool :=
  let mu := rd s (pgSent d n + SENT_MEAN_MU.off)
  let var := rd s (pgSent d n + SENT_VAR_VAR.off)
  let dv := xSub v mu
  let k := sentK (gf s (pgSent d n) SENT_K_K16)
  (x32 v).isFin && decide (gf s (pgSent d n) SENT_K_WARM ≤ gf s (pgWATCH d + 4 * n) SENT_SEEN_SEEN) &&
    fLt (x32 (xMul (xMul k k) var)) (x32 (xMul dv dv))

/-- Evaluates scalar sentinel `n` at the opening edge of the commit frame. -/
def sentEval (d : DieId) (n : Nat) (s : State) : State :=
  let p := pgWATCH d
  if gf s (pgSent d n) SENT_CFG_EN = 0 ∨ gf s (pgSent d n) SENT_CFG_SCALAR = 0 then s else
  let keep (v : Option W) (x : Die) : Die := { x with watch := { x.watch with obs := x.watch.obs.setIfInBounds n v } }
  match sentObserve s d n with
  | none => sf (p + 4 * n) SENT_SEEN_NF 0 (sf (p + 4 * n) SENT_SEEN_SPIKE 0 (onDie d (keep none) s))
  | some v =>
    let nf := !(x32 v).isFin
    let sp := sentSpike s d n v
    let s1 := wr (p + 4 * n + SENT_LAST_V.off) v (onDie d (keep (some v)) s)
    let s2 := sf (p + 4 * n) SENT_SEEN_SPIKE (b2n sp) (sf (p + 4 * n) SENT_SEEN_NF (b2n nf) s1)
    let s3 := onDie d (fun x => { x with watch := { x.watch with
      nfBits := if nf then x.watch.nfBits ||| 2 ^ n else x.watch.nfBits
      spikeBits := if sp then x.watch.spikeBits ||| 2 ^ n else x.watch.spikeBits } }) s2
    let s4 := if nf then raise p 3 s3 else s3
    if sp then raise p 4 s4 else s4

/-- Updates the mean and variance of sentinel `n` at a tick with COMMIT (R257). -/
def sentCommit (d : DieId) (n : Nat) (s : State) : State :=
  let p := pgSent d n
  let q := pgWATCH d + 4 * n
  match (s.dies[d].watch.obs.toList.getD n none) with
  | none => s
  | some v =>
    let seen := gf s q SENT_SEEN_SEEN
    let mu := rd s (p + SENT_MEAN_MU.off)
    let var := rd s (p + SENT_VAR_VAR.off)
    let a := r32 (.fin false 1 (-(gf s p SENT_CFG_ALPHA_SH : Int)))
    let dv := xSub v mu
    let mu' := if seen = 0 then v else xAdd mu (xMul a dv)
    let var' := if seen = 0 then 0 else xMul (xSub xOne a) (xAdd var (xMul a (xMul dv dv)))
    sf q SENT_SEEN_SEEN (min (seen + 1) 65535) (wr (p + SENT_VAR_VAR.off) var' (wr (p + SENT_MEAN_MU.off) mu' s))

/-! ### Ladder reset (R259) -/

/-- Every rung at INIT, every run 0, every sentinel cleared, VALID set. -/
def ladderReset (d : DieId) (s : State) : State :=
  let p := pgWATCH d
  let s1 := forEach (fun e s =>
    let i := watchFld s d e WATCH_DECL0_INIT
    onDie d (fun x => { x with watch := { x.watch with
      tab := sset zwatch (sset zwatch x.watch.tab (8 * e + 5) (BitVec.ofNat 32 i)) (8 * e + 6) 0 } }) s)
    (List.range (gf s p WATCH_CFG_COUNT)) s
  let s2 := forEach (fun n s => sf (p + 4 * n) SENT_SEEN_SEEN 0
    (wr (pgSent d n + SENT_VAR_VAR.off) 0 (wr (pgSent d n + SENT_MEAN_MU.off) 0 s))) (List.range 8) s1
  sf p WATCH_LADDER_VALID 1 (raise p 5 (tallyAdd p 7 1 (onJrnl d (fun j => { j with ladderReset := true }) s2)))

end Sys2Proof.Machine
end

