-- ==== Sys2Proof/Machine/Graph.lean ====
section
/-!
DEFINITION. Graph.lean: the dispatcher (R105 to R117, R520): where tasks stand, which task a unit may take, the faults of an
issue, what a fault does to the frame, and how a task ends.
-/
namespace Sys2Proof.Machine

/-- Changes the dispatcher of die `d`. -/
def onDisp (d : DieId) (f : Disp → Disp) (s : State) : State := onDie d (fun x => { x with disp := f x.disp }) s

/-- Where task `t` of die `d` stands. -/
def tstat (s : State) (d : DieId) (t : Nat) : TaskSt := sget ztask s.dies[d].disp.tstat t

/-- Moves task `t` of die `d` to `x`. -/
def setTask (d : DieId) (t : Nat) (x : TaskSt) (s : State) : State :=
  onDisp d (fun p => { p with tstat := sset ztask p.tstat t x }) s

/-- The count of task `t` (R109): PRED_COUNT less the decrements taken since the last step start tick. -/
def countOf (s : State) (d : DieId) (i : Img) (t : Nat) : Nat :=
  (readTask s i t).preds - sget zn s.dies[d].disp.decs t

/-- The frame whose tasks issue on die `d` (R120). -/
def curFrame (s : State) (d : DieId) : Nat := gf s (pgDISP d) DISP_FRAME_FRAME

/-- Tasks of frame `f`, ascending. -/
def frameTasks (s : State) (i : Img) (f : Nat) : List Nat :=
  (List.range i.tasks).filter fun t => (readTask s i t).frame == f

/-- Unissued tasks of the frame in course on die `d`, ascending. -/
def unissued (s : State) (d : DieId) (i : Img) : List Nat :=
  (frameTasks s i (curFrame s d)).filter fun t => tstat s d t == .idle

/-- The head of unit `u` (R109): its lowest unissued task of the frame. -/
def headOf (s : State) (d : DieId) (i : Img) (u : Nat) : Option Nat :=
  (unissued s d i).find? fun t => (readTask s i t).unit == u

/-- Tasks that execute on unit `u`, ascending. -/
def execOn (s : State) (d : DieId) (i : Img) (u : Nat) : List Nat :=
  (s.dies[d].disp.tstat.filter fun e => e.2 == .executing && (readTask s i e.1).unit == u).map (·.1)

/-- The array that holds rank `r` (R166): the lowest MX number that is ACTIVE or STANDIN with that rank. -/
def rankArray (s : State) (d : DieId) (r : Nat) : Option Nat :=
  (List.range 7).find? fun m =>
    gf s (pgMXof d m) MX_STATE_RANK == r && (gf s (pgMXof d m) MX_STATE_STATE == 0 || gf s (pgMXof d m) MX_STATE_STATE == 2)

/-- The page of a unit (R95). -/
def unitPage (s : State) (d : DieId) (u : Nat) : Option Nat :=
  if u < 6 then (rankArray s d u).map (pgMXof d)
  else if u = 6 ∨ u = 7 then some (pgVXof d (u - 6))
  else if u = 8 then some (pgRE d)
  else if u = 9 then some (pgCE d)
  else if u = 10 then some (pgCC d)
  else if 16 ≤ u ∧ u < 32 then some (pgMVof d (u - 16))
  else none

/-- A fenced unit, or a rank without an array (R112). -/
def unitFenced (s : State) (d : DieId) (u : Nat) : Bool :=
  if u < 6 then (rankArray s d u).isNone
  else match unitPage s d u with
    | some p => fenced s p
    | none => false

/-- Whether a frame runs tasks on die `d`: it is open, has not failed, and no plan mismatch holds the package (R107, R114). -/
def frameRuns (s : State) (d : DieId) : Bool :=
  dieLive s d && s.dies[d].disp.frameOpen && gf s (pgDISP d) DISP_FRAME_FAILED == 0 && gf s (pgDISP d) DISP_ACTIVE_MISMATCH == 0

/-- Whether R109 lets unit `u` take task `t` now; `depth` is how many tasks the unit executes at once. -/
def issuable (s : State) (d : DieId) (i : Img) (t u depth : Nat) : Bool :=
  frameRuns s d && headOf s d i u == some t && countOf s d i t == 0 && decide ((execOn s d i u).length < depth)

/-! ### Faults at issue (R520) -/

/-- The weights and optimiser states a task names, as (weight, role, VER, operand's own tensor). -/
def namedWeights (s : State) (i : Img) (tk : Task) : List (Nat × Nat × Nat × Tensor) :=
  (List.range 8).filterMap fun k =>
    if tk.role k = 0 then none else
    let t := readTensor s i (tk.tensor k)
    (weightOf t).map fun w => (w, tk.role k, tk.ver k, t)

/-- An update task (R273). -/
def isUpdate (tk : Task) : Bool := (tk.unit == 6 || tk.unit == 7) && (tk.opcode == 0x100 || tk.opcode == 0x101)

/-- Weights whose next slot a task writes (R266). -/
def nextWrites (s : State) (i : Img) (tk : Task) : List Nat :=
  (namedWeights s i tk).filterMap fun e => if e.2.1 = 2 ∨ e.2.1 = 3 then some e.1 else none

/-- Weights whose next slot a task reads (R266, R268). -/
def nextReads (s : State) (i : Img) (tk : Task) : List Nat :=
  (namedWeights s i tk).filterMap fun e => if e.2.1 = 1 ∧ e.2.2.1 = 1 ∧ e.2.2.2.cls = 1 then some e.1 else none

/-- A write of a next slot that R270 or R351 forbids. -/
def badNextWrite (s : State) (i : Img) (tk : Task) : Bool :=
  !(nextWrites s i tk).isEmpty &&
    (tk.frame == commitFrame s i ||
      decide (commitFrame s i < tk.frame) && !(tk.unit == 9 && frameType s i tk.frame == 5))

/-- What a unit's own rules add to the order of R520: the conditions of orders 3, 5 and 6. -/
structure IssueExtra where
  bad3 : Bool
  bad5 : Bool
  bad6 : Bool
  deriving DecidableEq, Repr

/-- No condition of the unit's own. -/
def IssueExtra.none : IssueExtra := ⟨false, false, false⟩

/-- The code a task faults with at its issue (R520), or OK. -/
def issueCode (s : State) (d : DieId) (i : Img) (tk : Task) (x : IssueExtra) : Nat :=
  if unitFenced s d tk.unit then eUNIT_FENCED
  else if gf s (pgUPD d) UPD_VCTL_VALID = 0 ∧ (!(namedWeights s i tk).isEmpty ∨ isUpdate tk) then eNOT_READY
  else if x.bad3 || badNextWrite s i tk then eBAD_DESCRIPTOR
  else if (nextReads s i tk).any fun w => !(ventry s d w).pending then eSTALE_VERSION
  else if x.bad5 then eBAD_VALUE
  else if x.bad6 then eFEED_GAP
  else eOK

/-! ### Completion entries -/

/-- Posts the KIND 6 entry of a task with CQ_POST that ended with `code` (R427). -/
def cqTask (d : DieId) (i : Img) (t code : Nat) (s : State) : State :=
  if (readTask s i t).cqPost then (qPush 1 (entry 6 d.val code (t % 2 ^ 18) s.dies[d].disp.attStep) s).1 else s

/-! ### Failure of a frame (R114) -/

/-- Successors of a task on any die: (die, task). -/
def succsOf (s : State) (d : DieId) (t : Nat) : List (DieId × Nat) :=
  match activeImg s d with
  | none => []
  | some i =>
    let tk := readTask s i t
    (List.range tk.succCnt).map fun k =>
      let e := readSucc s i (tk.succIdx + k)
      (⟨e.1 % 4, Nat.mod_lt _ (by decide)⟩, e.2)

/-- The largest task table of the package. -/
def maxTasks (s : State) : Nat :=
  (allDies.map fun d => match activeImg s d with | some i => i.tasks | none => 0).foldl max 0

/-- Everything that depends on a set of tasks, the set included; edges go from lower to higher IDs (R101). -/
def dependents (s : State) (set : List (DieId × Nat)) : List (DieId × Nat) :=
  (List.range (maxTasks s)).foldl (fun set t =>
    allDies.foldl (fun set d => if set.contains (d, t) then set ++ (succsOf s d t).filter (fun e => !set.contains e) else set) set)
    set

/-- Ends an unissued task with FRAME_FAILED (R114, R121). -/
def endFailed (d : DieId) (i : Img) (t : Nat) (s : State) : State :=
  cqTask d i t eFRAME_FAILED (tallyAdd (pgDISP d) 3 1 (setTask d t (.ended eFRAME_FAILED) s))

/-- Marks tasks that a failure has doomed, on every die. -/
def doom (set : List (DieId × Nat)) (s : State) : State :=
  forEach (fun e s => onDisp e.1 (fun p => { p with doomed := if p.doomed.contains e.2 then p.doomed else e.2 :: p.doomed }) s)
    set s

/-- Fails the frame in course on die `d`: no more tasks of it issue, and every dependent is doomed. `also` lists the faulted
task. -/
def failFrame (d : DieId) (i : Img) (also : List Nat) (s : State) : State :=
  let un := unissued s d i
  let set := dependents s ((also ++ un).map fun t => (d, t))
  sf (pgDISP d) DISP_FRAME_FAILED 1 (forEach (endFailed d i) un (doom set s))

/-- The lowest-ID fault recorded of the frame (R116), as DISP_FAULT reports it. -/
def recordFault (d : DieId) (i : Img) (t code : Nat) (s : State) : State :=
  let p := pgDISP d
  let low := s.dies[d].disp.faults.all fun e => decide (t < e.1)
  let s1 := onDisp d (fun x => { x with faults := (t, code) :: x.faults }) s
  if low then
    wr (p + DISP_FAULT_CODE_V.off) (BitVec.ofNat 32 code)
      (wr (p + DISP_FAULT_TASK.off) (BitVec.ofNat 32 (t + (readTask s i t).unit * 2 ^ 18 + 2 ^ 23)) s1)
  else s1

/-- What a task fault leaves on the page of its unit: LAST_ERR with SRC 2 (R43), and the fault registers of a vector-engine,
row-engine, mover or CE page (R206, R208, R238, R347). A program that still executes shows the instruction it has come to; an update
task that executes has none, and PC reads 0. DEDUCED: the unit's own page takes the error of a fault at issue as well. -/
def unitFaultCode (d : DieId) (tk : Task) (t code : Nat) (exec : Bool) (s : State) : State :=
  let u := tk.unit
  match unitPage s d u with
  | none => s
  | some p =>
    let s1 := blockErr p code s
    if u = 6 ∨ u = 7 then
      let k := s.dies[d].vx[if u = 6 then (0 : Fin 2) else 1]
      if k.task = some t || exec && isUpdate tk then
        let pc := if k.task = some t then k.pc else 0
        wr (p + VX_FAULT_CODE_V.off) (BitVec.ofNat 32 code) (wr (p + VX_FAULT_PC.off) (BitVec.ofNat 32 (pc % 2 ^ 13 + 2 ^ 24)) s1)
      else s1
    else if u = 8 then wr (p + RE_FAULT_CODE_V.off) (BitVec.ofNat 32 code) s1
    else if 16 ≤ u then wr (p + MV_FAULT_CODE_V.off) (BitVec.ofNat 32 code) s1
    else if u = 9 then
      wr (p + CE_FAULT_CODE_V.off) (BitVec.ofNat 32 code) (wr (p + CE_FAULT_TASK.off) (BitVec.ofNat 32 (t + 2 ^ 23)) s1)
    else s1

/-- A persistent parity error in a table of R384, by its row: tally 7, PAR_INFO and PARITY of the die's INTEG page. -/
def parityNote (d : DieId) (row : Nat) (s : State) : State :=
  let p := pgINTEG d
  raise p 4 (tallyAdd p 7 1 (wr (p + PAR_INFO_TABLE.off) (BitVec.ofNat 32 (row + 2 ^ 31)) s))

/-- A task's PARITY fault names the table of its unit (R165, R175, R205, R384): accumulators and stationary registers of a matrix task,
registers and program store of a vector task, shelf entries of a row task, and the version table of another task that names a weight, whose
table is no longer valid (R272). DEDUCED: the command names no table. -/
def parityOf (d : DieId) (i : Img) (tk : Task) (code : Nat) (s : State) : State :=
  let u := tk.unit
  if code ≠ ePARITY then s
  else if u ≤ 8 then parityNote d (if u < 6 then 1 else if u = 8 then 3 else 2) s
  else if (namedWeights s i tk).isEmpty then s
  else sf (pgUPD d) UPD_VCTL_VALID 0 (parityNote d 5 s)

/-- The other live dies are told over the stairway that the frame failed (R114). -/
def tellFail (d : DieId) (s : State) : State :=
  forEach (fun h s => swPost d h kFAIL 0 0 [] (emit (.frameFail h) s)) ((liveDies s).filter (· != d)) s

/-- A task faults (R114): it ends with its code, its die's frame fails, and the other live dies are told. -/
def taskFault (d : DieId) (t code : Nat) (s : State) : State :=
  match activeImg s d with
  | none => s
  | some i =>
    let s0 := if code = eSTALE_VERSION then tallyAdd (pgUPD d) 5 1 s else s
    let s1 := cqTask d i t code (tallyAdd (pgDISP d) 2 1 (setTask d t (.ended code) s0))
    tellFail d (failFrame d i [t] (raise (pgDISP d) 4 (unitFaultCode d (readTask s i t) t code (tstat s d t == .executing) (recordFault d i t code s1))))

/-- The cause of a frame that waits for the die to finish earlier ones (R113). -/
def LateFrame.fail (code : Nat) (x : LateFrame) : LateFrame :=
  { x with failed := true, cause := if x.cause = 0 then code else x.cause }

/-- The frame in course on die `d`, and every frame it has opened since, fails without a task fault (R62, R116): for a lost die, a failed
spare, a coolant stop. -/
def failCause (d : DieId) (code : Nat) (s : State) : State :=
  match activeImg s d with
  | none => s
  | some i =>
    if s.dies[d].disp.frameOpen then
      let s1 := onDisp d (fun x => { x with
        failCause := if x.failCause = 0 then code else x.failCause, later := x.later.map (LateFrame.fail code) }) s
      tellFail d (failFrame d i [] s1)
    else s

/-- The frame that the last tick opened fails on die `d`: the frame in course, or one that waits behind it (R113). -/
def failOpen (d : DieId) (code : Nat) (s : State) : State :=
  match s.dies[d].disp.later.getLast? with
  | none => failCause d code s
  | some x => tellFail d (onDisp d (fun p => { p with later := p.later.dropLast ++ [x.fail code] }) s)

/-! ### Issue -/

/-- The scalar a SCALAR_IN byte of a task reads in its issue clock (R117). -/
def scalarIn (s : State) (d : DieId) (tk : Task) (k : Nat) : Option D :=
  let b := tk.sin.getD k 0
  if bit b 7 then some (BitVec.ofNat 64 (rd64 s (pgCC d + 0x200 + 8 * (b % 64)))) else none

/-- Issues a task: it executes, and every weight whose next slot it writes becomes PENDING (R268). -/
def beginTask (d : DieId) (i : Img) (tk : Task) (t : Nat) (s : State) : State :=
  let s1 := tallyAdd (pgDISP d) 0 1 (setTask d t .executing s)
  forEach (fun w s => onDie d (fun x => { x with
    vtab := sset zv x.vtab w { sget zv x.vtab w with pending := true } }) s) (nextWrites s i tk) s1

/-- The UPD page's events of a fault at issue (R288). -/
def issueEvent (d : DieId) (code : Nat) (s : State) : State :=
  if code = eSTALE_VERSION then raise (pgUPD d) 0 s else if code = eNOT_READY then raise (pgUPD d) 1 s else s

/-- What an issue of a task on a unit does: nothing while R109 does not let the unit take it; a fault under R520; else the
unit's work, whose code ends the task in a fault unless it is OK. -/
def issueWith (d : DieId) (t depth : Nat) (ok : Task → Bool) (x : State → Img → Task → IssueExtra)
    (body : Img → Task → State → State × Nat) (s : State) : State :=
  match activeImg s d with
  | none => s
  | some i =>
    let tk := readTask s i t
    if issuable s d i t tk.unit depth && ok tk then
      match issueCode s d i tk (x s i tk) with
      | 0 =>
        match body i tk (beginTask d i tk t s) with
        | (s1, 0) => s1
        | (s1, c) => taskFault d t c s1
      | c => taskFault d t c (issueEvent d c s)
    else s

/-- Keeps the scalar output an executing task will write (R117). -/
def setSout (d : DieId) (t : Nat) (v : D) (s : State) : State :=
  onDisp d (fun p => { p with sout := sset z64 p.sout t v }) s

/-- Feeds a task's CRC pair with the `n` bytes it has just written at `a`, when they lie in a next slot (R351). -/
def crcFeed (d : DieId) (t : Nat) (v : View) (a n : Nat) (s : State) : State :=
  if v.t.cls = 1 ∨ v.t.cls = 3 then
    let bs := peek s a n
    onJrnl d (fun j =>
      let c := (sget zcrc j.crc t).getD (0, 0)
      { j with crc := sset zcrc j.crc t (some (crcMore polyA c.1 bs, crcMore polyB c.2 bs)) }) s
  else s

/-- Writes codes of a row and feeds the task's CRC pair. -/
def storeCodes (d : DieId) (t : Nat) (w : Writer) (v : View) (row i : Nat) (codes : List Nat) (s : State) : State × Nat :=
  match writeCodes w v row i codes s with
  | (s1, 0) =>
    let b := fmtBits v.fmt
    (crcFeed d t v (v.rowAddr row + i * b / 8) (cdiv (i * b % 8 + codes.length * b) 8) s1, eOK)
  | (s1, c) => (s1, c)

/-- Writes X32 words of a row in the view's format, as `writeX32` does, and feeds the task's CRC pair. -/
def storeX32 (d : DieId) (t : Nat) (w : Writer) (v : View) (row i : Nat) (xs : List W) (s : State) : State × Nat × Cnt :=
  match writeX32 w v row i xs s with
  | (s1, 0, c) =>
    let b := fmtBits v.fmt
    (crcFeed d t v (v.rowAddr row + i * b / 8) (cdiv (i * b % 8 + xs.length * b) 8) s1, eOK, c)
  | (s1, c, k) => (s1, c, k)

/-! ### The end of a task (R109) -/

/-- Writes the scalar output of a completing task (R117). -/
def writeSout (d : DieId) (tk : Task) (t : Nat) (s : State) : State :=
  if bit tk.sout 7 then
    tallyAdd (pgCC d) 0 1 (wr64 (pgCC d + 0x200 + 8 * (tk.sout % 64)) (sget z64 s.dies[d].disp.sout t).toNat s)
  else s

/-- Takes one decrement of task `t` of die `d`. -/
def takeDecrement (d : DieId) (t : Nat) (s : State) : State :=
  onDisp d (fun p => { p with decs := sset zn p.decs t (sget zn p.decs t + 1) }) s

/-- Sends the decrement of one successor entry of task `t` (R109). -/
def sendDecrement (d : DieId) (t : Nat) (e : DieId × Nat) (s : State) : State :=
  if e.1 = d then takeDecrement d e.2 s
  else
    let s1 := tallyAdd (pgDISP d) 5 1 (onDisp d (fun p => { p with owed := sset zn p.owed t (sget zn p.owed t + 1) }) s)
    swPost d e.1 kDEC 0 0 [] (emit (.decrement d e.1 t e.2 s.dies[d].disp.att) s1)

/-- A task that completes, all outputs written at home (R109, R111): it writes its scalar output, decrements its successors,
and has ended once every remote decrement is acknowledged. -/
def completeTask (d : DieId) (i : Img) (t : Nat) (s : State) : State :=
  let s1 := tallyAdd (pgDISP d) 1 1 (writeSout d (readTask s i t) t s)
  let s2 := forEach (sendDecrement d t) (succsOf s d t) s1
  if sget zn s2.dies[d].disp.owed t = 0 then setTask d t (.ended eOK) (cqTask d i t eOK s2) else setTask d t .draining s2

/-- A remote decrement's acknowledgement reaches the die that sent it (R111). -/
def ackDecrement (d : DieId) (t : Nat) (s : State) : State :=
  let n := sget zn s.dies[d].disp.owed t
  let s1 := onDisp d (fun p => { p with owed := sset zn p.owed t (n - 1) }) s
  if n = 1 ∧ tstat s d t = .draining then
    match activeImg s d with
    | some i => setTask d t (.ended eOK) (cqTask d i t eOK s1)
    | none => setTask d t (.ended eOK) s1
  else s1

/-- REMOTE_DECREMENT (R109, R111): a decrement that arrives at die `d` from task `srcTask` of die `src`. One whose tag is not
the die's last step start tick is dropped and counted; with that tag it is one that `src` has sent and not had acknowledged. -/
def doRemoteDecrement (d src : DieId) (srcTask task tag : Nat) (s : State) : State :=
  if !dieLive s d || src == d then s
  else if tag ≠ s.dies[d].disp.att then tallyAdd (pgDISP d) 6 1 s
  else if sget zn s.dies[src].disp.owed srcTask = 0 then s
  else ackDecrement src srcTask (swPost d src kDECACK 0 0 [] (emit (.decrementAck d src srcTask) (takeDecrement d task s)))

/-- A vector engine lets go of a task that faults or is cut. -/
def vxRelease (d : DieId) (t : Nat) (s : State) : State :=
  onDie d (fun x => { x with vx := x.vx.map fun v => if v.task = some t then { v with task := none } else v }) s

/-- TASK_FAULT (R114): a task that executes, or is ready at the head of its unit, faults. -/
def doTaskFault (d : DieId) (t code : Nat) (s : State) : State :=
  match activeImg s d with
  | none => s
  | some i =>
    if errCodes.contains code ∧ dieLive s d ∧ (tstat s d t = .executing ∨ issuable s d i t (readTask s i t).unit 2) then
      vxRelease d t (taskFault d t code (parityOf d i (readTask s i t) code s))
    else s

/-- FRAME_FAIL_NOTICE (R114): another die's frame has failed, and this one's stops too. On a die that finishes an earlier frame (R113) it is
the frame in course when another live die's frame of that index has failed, else the last frame opened. -/
def doFrameFailNotice (d : DieId) (s : State) : State :=
  let same := (liveDies s).any fun h =>
    h != d && s.dies[h].disp.frameOpen && curFrame s h == curFrame s d && gf s (pgDISP h) DISP_FRAME_FAILED == 1
  match activeImg s d, s.dies[d].disp.later.getLast? with
  | none, _ => s
  | some i, none => if frameRuns s d then failFrame d i [] s else s
  | some i, some x =>
    if same then (if frameRuns s d then failFrame d i [] s else s)
    else onDisp d (fun p => { p with later := p.later.dropLast ++ [{ x with failed := true }] }) s

/-! ### Cut tasks (R115) -/

/-- Cuts one task at a tick: an executing task is counted, and one not yet ended posts its completion. DEDUCED: a cut task
posts STEP_ABANDONED. -/
def cutTask (d : DieId) (i : Img) (t : Nat) (s : State) : State :=
  match tstat s d t with
  | .ended _ => s
  | .executing | .draining => cqTask d i t eSTEP_ABANDONED (tallyAdd (pgDISP d) 4 1 (setTask d t (.ended eSTEP_ABANDONED) s))
  | .idle => cqTask d i t eSTEP_ABANDONED (setTask d t (.ended eSTEP_ABANDONED) s)

/-- Whether every task of frame `f` on die `d` has ended (R111). -/
def frameEnded (s : State) (d : DieId) (f : Nat) : Bool :=
  match activeImg s d with
  | none => true
  | some i => (frameTasks s i f).all fun t => match tstat s d t with | .ended _ => true | _ => false

/-- Unfinished tasks of the frame in course, as DISP_PENDING reads (R119). -/
def pendingTasks (s : State) (d : DieId) : Nat :=
  match activeImg s d with
  | none => 0
  | some i => if s.dies[d].disp.frameOpen then
      ((frameTasks s i (curFrame s d)).filter fun t => match tstat s d t with | .ended _ => false | _ => true).length else 0

/-- DISP_HEAD (R120): the head of the unit DISP_HEAD_SEL names. -/
def dispHead (s : State) (d : DieId) : W :=
  match activeImg s d with
  | none => BitVec.ofNat 32 (2 ^ 18)
  | some i =>
    match if s.dies[d].disp.frameOpen then headOf s d i (gf s (pgDISP d) DISP_HEAD_SEL_V) else none with
    | none => BitVec.ofNat 32 (2 ^ 18)
    | some t => BitVec.ofNat 32 (t + b2n (countOf s d i t == 0) * 2 ^ 19)

/-! ### Meanings of the commands -/

/-- REMOTE_DECREMENT (R111). -/
def execRemoteDecrement (d : DieId) (src : DieId) (srcTask : Nat) (task : Nat) (tag : Nat) (s : State) : Host.Outcome State Fault Refusal :=
  .next (dieStep d (doRemoteDecrement d src srcTask task tag) s)
/-- TASK_FAULT (R114). -/
def execTaskFault (d : DieId) (task : Nat) (code : Nat) (s : State) : Host.Outcome State Fault Refusal :=
  .next (dieStep d (doTaskFault d task code) s)
/-- FRAME_FAIL_NOTICE (R114). -/
def execFrameFailNotice (d : DieId) (s : State) : Host.Outcome State Fault Refusal :=
  .next (dieStep d (doFrameFailNotice d) s)

end Sys2Proof.Machine
end

