-- ==== Sys2Proof/Machine/Matrix.lean ====
section
/-!
DEFINITION. Matrix.lean: matrix tasks (R147 to R161), the crossed operand and its regroup (R158, R159), the pair in force
(R142, R254), shadow samples (R162 to R164, R245 to R247), and an array's parity fault (R165, R166).
-/
namespace Sys2Proof.Machine

/-- The PARAMS of a matrix task (R151). -/
structure MatP where
  m : Nat
  n : Nat
  k : Nat
  aOrg : Nat
  bOrg : Nat
  kaOrg : Nat
  kbOrg : Nat
  bank : Nat
  init : Bool
  shadowOk : Bool
  watch : Nat
  deriving DecidableEq, Repr

/-- R151. -/
def matP (tk : Task) : MatP :=
  { m := tk.p 64 2, n := tk.p 66 2, k := tk.p 68 4, aOrg := tk.p 72 4, bOrg := tk.p 76 4, kaOrg := tk.p 80 4
    kbOrg := tk.p 84 4, bank := tk.p 88 1 % 2, init := bit (tk.p 88 1) 1, shadowOk := bit (tk.p 89 1) 0, watch := tk.p 90 2 }

/-! ### The pair in force (R142, R148, R254) -/

/-- Two grouped formats that run grouped: the pairs of R142, and those R254 re-encodes exactly. -/
def groupedPair (fa fb : Nat) : Bool :=
  fmtGrouped fa && fmtGrouped fb && !(fa == 6 && fb == 6) && !(fa == 6 && fb == 4) && !(fa == 4 && fb == 6)

/-- An ungrouped pair of R142. -/
def elementPair (fa fb : Nat) : Bool := fa == fb && decide (fa ≤ 2)

/-- Kt of the pair used (R148). -/
def pairKt (fa fb : Nat) : Nat :=
  if !groupedPair fa fb then 256
  else if fa = 3 ∨ fa = 4 ∨ fb = 3 ∨ fb = 4 then 256
  else if (fa = 7 ∨ fb = 7) ∧ fa ≠ 6 ∧ fb ≠ 6 then 1024
  else 512

/-- Clocks per streamed row of the pair used (R148). -/
def pairC (fa fb : Nat) : Nat := if groupedPair fa fb then 1 else if fa = 0 ∧ fb = 0 then 8 else 2

/-- An operand element converted to W16 in the loader (R254): its value, and whether it saturated or was non-finite. -/
def toW16 (fmt : Nat) (v : FVal) : FVal × Nat × Nat :=
  if fmt = 2 then (v, 0, 0) else
  let w := if fmt = 0 then (r32 v, false) else widen v
  let r := fW16.convert (x32 w.1)
  (fW16.decode r.1, b2n (r.2 || w.2), b2n (!v.isFin))

/-! ### Reading operands (R149, R158, R159) -/

/-- Values of elements `i` to `i + n - 1` of each listed row. -/
def readRows (rdr : Reader) (v : View) (i n : Nat) : List Nat → State → State × Nat × List (List FVal)
  | [], s => (s, eOK, [])
  | r :: rs, s =>
    match readVals rdr v r i n s with
    | (s1, 0, x) =>
      let q := readRows rdr v i n rs s1
      (q.1, q.2.1, x :: q.2.2)
    | (s1, c, _) => (s1, c, [])

/-- Columns of a list of rows as rows. -/
def transpose (n : Nat) (m : List (List FVal)) : List (List FVal) :=
  (List.range n).map fun r => m.map fun row => row.getD r .nan

/-- What a regroup counts: the counts of R141 and the elements it changed (R159). -/
abbrev Regroup := Cnt × Nat

/-- One new group formed along the crossed reduction: its decoded values and what it counts. -/
def regroupGroup (fmt : Nat) (xs : List FVal) : List FVal × Regroup :=
  let g := encGroup fmt xs
  let ys := g.codes.map (groupVal fmt g.zp g.scale)
  (ys, g.cnt, ((xs.zip ys).filter fun p => !(fEq p.1 p.2 || p.1.isNan && p.2.isNan)).length)

/-- A crossed tile regrouped along its reduction, in groups of `g` (R159). -/
def regroupTile (fmt g : Nat) (tile : List (List FVal)) : List (List FVal) × Regroup :=
  let rows := tile.map fun row => (chunks g (row.length + 1) row).map (regroupGroup fmt)
  let all := rows.flatten
  (rows.map fun r => r.flatMap Prod.fst,
    (all.map fun x => x.2.1).foldl Cnt.add Cnt.none, (all.map fun x => x.2.2).foldl (· + ·) 0)

/-- The B tile of a matrix task, cell row by cell row, with what its regroup counted (R149, R158). -/
def readB (d : DieId) (crossed : Bool) (v : View) (p : MatP) (s : State) : State × Nat × List (List FVal) × Regroup :=
  let rdr : Reader := memRead (.engine d)
  let none : Regroup := (Cnt.none, 0)
  if crossed then
    let v' := if v.grouped && v.t.aft == 2 then secondView s d v else v
    match readRows rdr v' p.bOrg p.n ((List.range p.k).map (p.kbOrg + ·)) s with
    | (s1, 0, rows) =>
      let tile := transpose p.n rows
      if v.grouped && v.t.aft == 1 then
        let r := regroupTile v.fmt v.t.g tile
        (s1, eOK, r.1, r.2)
      else (s1, eOK, tile, none)
    | (s1, c, _) => (s1, c, [], none)
  else
    match readRows rdr v p.kbOrg p.k ((List.range p.n).map (p.bOrg + ·)) s with
    | (s1, 0, rows) => (s1, eOK, rows, none)
    | (s1, c, _) => (s1, c, [], none)

/-! ### The product (R143, R145) -/

/-- One group's change of the accumulator (R143). -/
def groupStep (acc : W) (ps : List (FVal × FVal)) : W :=
  if ps.any fun p => p.1.isNan || p.2.isNan then BitVec.ofNat 32 fX32.nanCode
  else r32 (fAdd (x32 acc) (ps.foldl (fun a p => fAdd a (fMul p.1 p.2)) (.fin false 0 0)))

/-- One product's change of the accumulator (R145). -/
def elemStep (acc : W) (p : FVal × FVal) : W := r32 (fFma p.1 p.2 (x32 acc))

/-- One output element: groups of `g` in ascending order, or products in ascending order. -/
def cellValue (grouped : Bool) (g : Nat) (acc : W) (a b : List FVal) : W :=
  let ps := a.zip b
  if grouped then (chunks g (ps.length + 1) ps).foldl groupStep acc else ps.foldl elemStep acc

/-- Key of bank element (row, col) of bank `b` of array `m` (R154). -/
def accKey (m b row col : Nat) : Nat := ((2 * m + b) * 256 + row) * 256 + col

/-- Bank values (row, 0) to (row, n − 1). -/
def bankRow (s : State) (d : DieId) (m b row n : Nat) : List W := sgetList z32 s.dies[d].acc (accKey m b row 0) n

/-- The new bank rows of a task: (row, values). -/
def productRows (s : State) (d : DieId) (m : Nat) (p : MatP) (grouped : Bool) (g : Nat) (a b : List (List FVal)) :
    List (Nat × List W) :=
  a.zipIdx.map fun e =>
    let start := if p.init then List.replicate p.n (0 : W) else bankRow s d m p.bank e.2 p.n
    (e.2, (b.zip start).map fun q => cellValue grouped g q.2 e.1 q.1)

/-- Writes bank rows. -/
def writeBank (d : DieId) (m b : Nat) (rows : List (Nat × List W)) (s : State) : State :=
  onDie d (fun x => { x with acc := rows.foldl (fun a r => ssetList z32 a (accKey m b r.1 0) r.2) x.acc }) s

/-- Counts of a loader conversion or of a regroup, added to an operand's watch entry without ELEMS (R173, R254), under the
frame rule of R244. -/
def watchCount (d : DieId) (f e : Nat) (c : Cnt) (s : State) : State :=
  if e = 0xFFFF then s else
  match activeImg s d with
  | none => s
  | some i =>
    if decide (f ≤ commitFrame s i) && (match sideFrame s i with | some g => decide (f < g) | none => true) then
      accAdd d e 4 c.bad (accAdd d e 3 c.nonf (accAdd d e 2 c.sat (accAdd d e 1 c.zero s)))
    else s

/-! ### Shadow samples (R162, R245, R246) -/

/-- The active spare (R167). -/
def activeSpare (s : State) (d : DieId) : Option Nat :=
  (List.range 7).find? fun m => gf s (pgMXof d m) MX_STATE_STATE == 1

/-- Whether the die takes samples (R164). -/
def takesSamples (s : State) (d : DieId) : Bool := (activeSpare s d).isSome && gf s (pgWATCH d) WATCH_CFG_SHADOW_EN == 1

/-- The sampled rows of a task, when it is sampled (R245). -/
def sampledRows (s : State) (d : DieId) (t : Nat) (p : MatP) : Option (List Nat) :=
  if p.shadowOk && p.watch != 0xFFFF && takesSamples s d then
    let r := sampleTest s.dies[d].disp.attStep d.val t (gf s (pgWATCH d) WATCH_CFG_SHADOW_SHIFT) p.m
    if r.1 then some ((List.range (min p.m 16)).map (r.2 + ·)) else none
  else none

/-- The spare's recomputation of one sampled row: X32 products in ascending k (R145). -/
def sparePairs (bank start : List W) (a : List FVal) (b : List (List FVal)) : List (W × W) :=
  (bank.zip (b.zip start)).map fun e => (e.1, cellValue false 1 e.2.2 a e.2.1)

/-- A reference's values in place of its operand's, when the task names one. -/
def refRows (s : State) (d : DieId) (i : Img) (tk : Task) (k : Nat) (crossed : Bool) (org korg n len : Nat)
    (own : List (List FVal)) : State × Nat × List (List FVal) :=
  if tk.role k = 0 then (s, eOK, own) else
  let v := operView s d i tk k false
  if crossed then
    match readRows (memRead (.engine d)) v org n ((List.range len).map (korg + ·)) s with
    | (s1, 0, rows) => (s1, eOK, transpose n rows)
    | (s1, c, _) => (s1, c, [])
  else readRows (memRead (.engine d)) v korg len ((List.range n).map (org + ·)) s

/-- Bytes of `n` elements of a format with the scales of their groups of `g`. -/
def copyBytes (fmt g n : Nat) : Nat := cdiv (n * fmtBits fmt) 8 + (if fmtGrouped fmt then n / g else 0)

/-- Bytes of the copy of one pass of `k` reduction elements (R163): the stationary tile and the sampled rows as the loader presents them, the
reference elements at their stored width, in whole 64-byte units. -/
def passBytes (s : State) (d : DieId) (i : Img) (tk : Task) (p : MatP) (fa fb g rows k : Nat) : Nat :=
  let ref (o n : Nat) : Nat := if tk.role o = 0 then 0 else copyBytes (operView s d i tk o false).fmt g (n * k)
  64 * cdiv (copyBytes fb g (p.n * k) + copyBytes fa g (rows * k) + ref 2 rows + ref 3 p.n) 64

/-- The copies of a sample in order (R162, R163, R246): one of each pass, the first with the bank's values when INIT is 0, and the bank's
values at the task's end. -/
def sampleCopies (s : State) (d : DieId) (i : Img) (tk : Task) (p : MatP) (fa fb g kt rows : Nat) : List (Nat × Bool) :=
  ((List.range (cdiv p.k kt)).map fun n =>
      (passBytes s d i tk p fa fb g rows (min kt (p.k - n * kt)) + (if n = 0 ∧ !p.init then 64 * p.n else 0), true))
    ++ [(64 * p.n, false)]

/-- Moves waiting copies of a sample into the `room` bytes left, in order. -/
def Shadow.fill (room : Nat) : List (Nat × Bool) → Shadow → Shadow
  | [], x => { x with wait := [] }
  | c :: cs, x =>
    if c.1 ≤ room then Shadow.fill (room - c.1) cs { x with held := x.held + c.1, passes := x.passes + b2n c.2 }
    else { x with wait := c :: cs }

/-- The shadow buffer (R163): the copies of every sample, oldest first, in 1,048,576 bytes; a sample whose next copy has no room waits. -/
def shadowFill (xs : List Shadow) : List Shadow :=
  (xs.foldl (fun (a : Nat × List Shadow) x =>
    let y := Shadow.fill a.1 x.wait x
    (a.1 - (y.held - x.held), a.2 ++ [y])) (1048576 - (xs.map (·.held)).foldl (· + ·) 0, [])).2

/-- Copies a sample for the spare (R162, R246): `copies` are its copies in order, for array `m`. -/
def takeSample (d : DieId) (i : Img) (tk : Task) (t m : Nat) (crossed : Bool) (p : MatP) (rows : List Nat)
    (a b : List (List FVal)) (start new : Nat → List W) (copies : List (Nat × Bool)) (s : State) : State × Nat :=
  match refRows s d i tk 2 false p.aOrg p.kaOrg p.m p.k a with
  | (s1, 0, ra) =>
    match refRows s1 d i tk 3 crossed p.bOrg p.kbOrg p.n p.k b with
    | (s2, 0, rb) =>
      let sh : Shadow := ⟨t, p.watch, rows.map fun r => sparePairs (new r) (start r) (ra.getD r []) rb, m, 0, 0, copies⟩
      (tallyAdd (pgWATCH d) 0 1 (onDie d (fun x => { x with shadow := shadowFill (x.shadow ++ [sh]) }) s2), eOK)
    | (s2, c, _) => (s2, c)
  | (s1, c, _) => (s1, c)

/-- Whether the array of an executing task waits for the shadow buffer (R163). -/
def sampleHeld (s : State) (d : DieId) (t : Nat) : Bool := s.dies[d].shadow.any fun x => x.task == t && !x.wait.isEmpty

/-- Passes of an executing task that have not begun because the shadow buffer has no room. -/
def passesHeld (s : State) (d : DieId) (t : Nat) : Nat :=
  ((s.dies[d].shadow.filter fun x => x.task == t).flatMap fun x => x.wait.filter (·.2)).length

/-! ### The task -/

/-- Counts what a regroup did, on the array's page and in the tensor's entry (R159, R173). -/
def countRegroup (d : DieId) (m f e : Nat) (r : Regroup) (s : State) : State :=
  if r.1.elems = 0 then s else
  let p := pgMXof d m
  watchCount d f e r.1 (tallyQty p 10 1024 r.1.bad (tallyQty p 9 1024 r.1.zero (tallyQty p 8 1024 r.1.nonf
    (tallyQty p 7 1024 r.1.sat (tallyQty p 6 1048576 r.1.elems (tallyQty p 5 1048576 r.2 s))))))

/-- Converts an operand to W16 when the pair in force asks for it, with its counts (R254). -/
def loadPair (fmt : Nat) (conv : Bool) (rows : List (List FVal)) : List (List FVal) × Cnt :=
  if conv then
    let r := rows.map fun row => row.map (toW16 fmt)
    (r.map fun row => row.map Prod.fst,
      ⟨0, ((r.flatten).map fun x => x.2.1).foldl (· + ·) 0, ((r.flatten).map fun x => x.2.2).foldl (· + ·) 0, 0, 0⟩)
  else (rows, Cnt.none)

/-- A matrix task's work on the array of its rank (R147 to R161). -/
def matmul (d : DieId) (t : Nat) (crossed : Bool) (i : Img) (tk : Task) (s : State) : State × Nat :=
  let p := matP tk
  let va := operView s d i tk 0 false
  let vb := operView s d i tk 1 false
  match rankArray s d tk.unit, readRows (memRead (.engine d)) va p.kaOrg p.k ((List.range p.m).map (p.aOrg + ·)) s with
  | some m, (s1, 0, a) =>
    match readB d crossed vb p s1 with
    | (s2, 0, b, rg) =>
      let grouped := groupedPair va.fmt vb.fmt
      let conv := !grouped && !elementPair va.fmt vb.fmt
      let la := loadPair va.fmt conv a
      let lb := loadPair vb.fmt conv b
      let s3 := watchCount d tk.frame vb.t.watch lb.2 (watchCount d tk.frame va.t.watch la.2
        (countRegroup d m tk.frame vb.t.watch rg s2))
      let rows := productRows s3 d m p grouped va.t.g la.1 lb.1
      let start (r : Nat) : List W := if p.init then List.replicate p.n (0 : W) else bankRow s3 d m p.bank r p.n
      let new (r : Nat) : List W := ((rows.find? fun e => e.1 == r).map Prod.snd).getD []
      let s4 := writeBank d m p.bank rows s3
      let as_ (fmt : Nat) : Nat := if conv then 2 else fmt
      match sampledRows s d t p with
      | some rs =>
        takeSample d i tk t m crossed p rs la.1 lb.1 start new
          (sampleCopies s4 d i tk p (as_ va.fmt) (as_ vb.fmt) va.t.g (pairKt va.fmt vb.fmt) rs.length) s4
      | none => (s4, eOK)
    | (s2, c, _, _) => (s2, c)
  | some _, (s1, c, _) => (s1, c)
  | none, (s1, _) => (s1, eUNIT_FENCED)

/-- Whether a vector task reads the bank a matrix task writes (R155, R176). -/
def sharesBank (v m : Task) : Bool := v.opcode == 1 && bit (v.p 66 2) (2 * m.unit + (matP m).bank)

/-- Whether a task waits for an executing task `b` that issued before it (R155): a reader and a writer of one bank, or the task
before it on its array when that one waits. -/
def bankClash (a b : Task) (bWaits : Bool) : Bool :=
  if a.unit < 6 then
    if b.unit < 6 then b.unit == a.unit && bWaits else (b.unit == 6 || b.unit == 7) && sharesBank b a
  else (a.unit == 6 || a.unit == 7) && decide (b.unit < 6) && sharesBank a b

/-- Whether task `t` waits for a bank (R155). -/
def bankHeld (s : State) (d : DieId) (t : Nat) : Bool :=
  let w := s.dies[d].disp.bankWait
  w.contains t && (match activeImg s d with
    | none => false
    | some i =>
      let tk := readTask s i t
      let first := w.takeWhile (· != t)
      s.dies[d].disp.tstat.any fun e => e.2 == .executing && e.1 != t && (!w.contains e.1 || first.contains e.1) &&
        bankClash tk (readTask s i e.1) (first.contains e.1))

/-- An issued task does its work at once, or waits for its bank (R155). -/
def orWait (d : DieId) (t : Nat) (work : State → State × Nat) (s : State) : State × Nat :=
  let s1 := onDisp d (fun x => { x with bankWait := x.bankWait ++ [t] }) s
  if bankHeld s1 d t then (s1, eOK) else work s

/-- Whether the rank of a unit is aft in the frame in course (R157). -/
def rankAft (s : State) (d : DieId) (i : Img) (r : Nat) : Bool :=
  match rankArray s d r with
  | some m => bit (gf s (pgMXof d m) MX_ROLE_AFT) (frameType s i (curFrame s d))
  | none => false

/-- The conditions under which a matrix command may issue: its unit and opcode. -/
def matOk (opcode : Nat) (tk : Task) : Bool := decide (tk.unit < 6) && tk.opcode == opcode

/-- The work of a matrix task that issues (R155). -/
def matStart (d : DieId) (t : Nat) (crossed : Bool) (i : Img) (tk : Task) (s : State) : State × Nat :=
  orWait d t (matmul d t crossed i tk) s

/-- Whether the rank of task `t` accepts a task (R156): its array is idle, or the task that executes has begun its last pass, which it has
not while it waits for its bank or for the shadow buffer. -/
def rankAccepts (s : State) (d : DieId) (t : Nat) : Bool :=
  match activeImg s d with
  | none => true
  | some i => (execOn s d i (readTask s i t).unit).all fun x => !bankHeld s d x && passesHeld s d x == 0

/-- MM (R147, R150): a straight product. An array executes one task and accepts a second in its last pass (R156). -/
def doMm (d : DieId) (t : Nat) (s : State) : State :=
  if rankAccepts s d t then issueWith d t 2 (matOk 1) (fun _ _ _ => .none) (matStart d t false) s else s

/-- MM_XB (R150, R153): a product with a crossed B, on an aft rank only. -/
def doMmXb (d : DieId) (t : Nat) (s : State) : State :=
  if rankAccepts s d t then
    issueWith d t 2 (matOk 2) (fun s i tk => ⟨!rankAft s d i tk.unit, false, false⟩) (matStart d t true) s
  else s

/-- The array's side of a matrix task's completion: its tallies (R173). -/
def matComplete (d : DieId) (i : Img) (tk : Task) (s : State) : State :=
  match rankArray s d tk.unit with
  | none => s
  | some m =>
    let q := pgMXof d m
    let p := matP tk
    let fa := (operView s d i tk 0 false).fmt
    let fb := (operView s d i tk 1 false).fmt
    let passes := cdiv p.k (pairKt fa fb)
    tallyQty q 2 4096 (passes * p.m * pairC fa fb) (tallyAdd q 1 passes (tallyAdd q 0 1 s))

/-- SHADOW_SAMPLE_DONE (R162, R163, R247): the spare delivers its oldest sample to the sample's watch entry, and the copies it frees make
room for those that wait. DEDUCED: an oldest sample whose own copies wait is not complete; the spare then frees the copies it has. -/
def doShadowSampleDone (d : DieId) (s : State) : State :=
  match s.dies[d].shadow, activeSpare s d with
  | sh :: rest, some m =>
    if !dieLive s d then s
    else if sh.wait.isEmpty then
      shadowCompare d sh (tallyAdd (pgMXof d m) 11 1 (onDie d (fun x => { x with shadow := shadowFill rest }) s))
    else onDie d (fun x => { x with shadow := shadowFill ({ sh with passes := 0, held := 0 } :: rest) }) s
  | _, _ => s

/-- One reference clock of the arrays that wait for the shadow buffer (R163, R173): 1.6 of their own clocks each, in fifths. -/
def chargeShadow (d : DieId) (s : State) : State :=
  forEach (fun m s => tallyQty (pgMXof d m) 4 20480 8 s)
    ((List.range 7).filter fun m => s.dies[d].shadow.any fun x => x.mx == m && !x.wait.isEmpty) s

/-! ### Array states (R165, R166) -/

/-- Sets STATE, RANK and FOR_MX of array `m`. -/
def setArray (d : DieId) (m st rank forMx : Nat) (s : State) : State :=
  let q := pgMXof d m
  let s1 := onDie d (fun x => { x with lastArray := x.lastArray.setIfInBounds rank m }) s
  sf q MX_STATE_FOR_MX forMx (sf q MX_STATE_RANK rank (sf q MX_STATE_STATE st s1))

/-- The active spare becomes STANDIN for rank `r` of array `m`, with the role and both banks at +0 (R168); NO_STANDIN is
raised on array `m` when no spare exists (R166). -/
def standIn (d : DieId) (m r : Nat) (s : State) : State :=
  match activeSpare s d with
  | some k =>
    let s1 := setArray d k 2 r m s
    let s2 := wr (pgMXof d k + MX_ROLE_AFT.off) (rd s (pgMXof d m + MX_ROLE_AFT.off)) s1
    let s3 := onDie d (fun x => { x with acc := skeep (fun key => key / 131072 != k) x.acc }) s2
    raise (pgMXof d k) 1 s3
  | none => raise (pgMXof d m) 2 s

/-- Sampling stops or goes on with the spare that is left (R164, R248): NO_SAMPLES follows, and SHADOW_OFF is raised when
sampling stops. -/
def sampleStatus (d : DieId) (s : State) : State :=
  let p := pgWATCH d
  let off := b2n (!takesSamples s d)
  let was := gf s p WATCH_LADDER_NO_SAMPLES
  let s1 := sf p WATCH_LADDER_NO_SAMPLES off s
  if was = 0 ∧ off = 1 then raise p 8 s1 else s1

/-- An array that fails is fenced at once and raises ARRAY_FAILED (R165). It keeps its rank number until the next tick
replaces it; FOR_MX reads 7 in an array that is no stand-in (R172). -/
def arrayFails (d : DieId) (m : Nat) (s : State) : State :=
  let q := pgMXof d m
  raise q 0 (sf q FENCE_DRAINING 0 (setFenced q 1 (sf q MX_STATE_FOR_MX 7 (sf q MX_STATE_STATE 4 s))))

/-- ARRAY_PARITY_FAULT (R165): a parity error that persists on array `mx`. An executing task of its rank faults with PARITY;
on the active spare the frame fails with PARITY and the copies it holds are dropped. -/
def doArrayParityFault (d : DieId) (mx : Fin 7) (s : State) : State :=
  if !dieLive s d then s else
  let q := pgMXof d mx.val
  let st := gf s q MX_STATE_STATE
  match activeImg s d with
  | none => s
  | some i =>
    if st = 0 ∨ st = 2 then
      let r := gf s q MX_STATE_RANK
      let readers := ([6, 7].flatMap fun u => execOn s d i u).filter fun t =>
        let tk := readTask s i t
        tk.opcode == 1 && (bit (tk.p 66 2) (2 * r) || bit (tk.p 66 2) (2 * r + 1))
      match execOn s d i r, readers with
      | t :: _, _ => arrayFails d mx.val (taskFault d t ePARITY (parityNote d 1 s))
      | [], t :: _ => arrayFails d mx.val (vxRelease d t (taskFault d t ePARITY (blockErr q ePARITY (parityNote d 1 s))))
      | [], [] => s
    else if activeSpare s d = some mx.val then
      sampleStatus d (arrayFails d mx.val (blockErr q ePARITY (failCause d ePARITY
        (parityNote d 1 (onDie d (fun x => { x with shadow := [] }) s)))))
    else s

/-- A rank whose array has failed gets its stand-in at the next tick edge (R166), also when the array has passed its self-test meanwhile and is
FENCED. -/
def arrayReplace (d : DieId) (m : Nat) (s : State) : State :=
  let q := pgMXof d m
  let st := gf s q MX_STATE_STATE
  let rank := gf s q MX_STATE_RANK
  if (st = 3 ∨ st = 4) ∧ rank < 6 then setArray d m st 7 7 (standIn d m rank s) else s

/-- A requested fence or return of array `m` takes effect at a step start tick (R166). -/
def arrayFence (d : DieId) (m : Nat) (s : State) : State :=
  let q := pgMXof d m
  let st := gf s q MX_STATE_STATE
  let rank := gf s q MX_STATE_RANK
  if gf s q FENCE_DRAINING = 1 then
    let s0 := sf q FENCE_DRAINING 0 s
    if st = 0 ∨ st = 2 then standIn d m rank (setArray d m 3 7 7 (setFenced q 1 s0))
    else if st = 1 then setArray d m 3 7 7 (setFenced q 1 s0)
    else if st = 3 then
      match (List.range 6).find? fun r => (rankArray s d r).isNone with
      | some r =>
        let old := s0.dies[d].lastArray.toList.getD r r
        raise q 1 (onDie d (fun x => { x with acc := skeep (fun key => key / 131072 != m) x.acc })
          (setArray d m 2 r old (wr (q + MX_ROLE_AFT.off) (rd s0 (pgMXof d old + MX_ROLE_AFT.off)) (setFenced q 0 s0))))
      | none => setArray d m 1 7 7 (setFenced q 0 s0)
    else s0
  else s

/-- What the arrays do at a tick edge (R166): ranks whose arrays have failed get their stand-ins, and then, at a step start tick, requested
fences and returns take effect, each array by array in ascending number. -/
def arrayTick (d : DieId) (stepStart : Bool) (s : State) : State :=
  let s1 := forEach (arrayReplace d) (List.range 7) s
  if stepStart then forEach (arrayFence d) (List.range 7) s1 else s1

/-! ### Meanings of the commands -/

/-- MM (R147). -/
def execMm (d : DieId) (task : Nat) (s : State) : Host.Outcome State Fault Refusal :=
  .next (dieStep d (doMm d task) s)
/-- MM_XB (R158). -/
def execMmXb (d : DieId) (task : Nat) (s : State) : Host.Outcome State Fault Refusal :=
  .next (dieStep d (doMmXb d task) s)
/-- SHADOW_SAMPLE_DONE (R162). -/
def execShadowSampleDone (d : DieId) (s : State) : Host.Outcome State Fault Refusal :=
  .next (dieStep d (doShadowSampleDone d) s)
/-- ARRAY_PARITY_FAULT (R165). -/
def execArrayParityFault (d : DieId) (mx : Fin 7) (s : State) : Host.Outcome State Fault Refusal :=
  .next (dieStep d (doArrayParityFault d mx) s)

end Sys2Proof.Machine
end

