-- ==== Sys2Proof/Machine/Vector.lean ====
section
/-!
DEFINITION. Vector.lean: the vector engines (R174 to R190, R206, R230): their instructions, lane by lane, with the masks, the
suppressed faults and the store-room accesses.
-/
namespace Sys2Proof.Machine

/-- The fields of an instruction (R179). -/
structure VIn where
  op : Nat
  vd : Nat
  va : Nat
  vb : Nat
  vc : Nat
  msk : Nat
  me : Bool
  mz : Bool
  ty : Nat
  imm : Nat
  deriving DecidableEq, Repr

/-- R179. -/
def vdecode (w : D) : VIn :=
  let n := w.toNat
  { op := bits n 56 8, vd := bits n 50 6, va := bits n 44 6, vb := bits n 38 6, vc := bits n 32 6, msk := bits n 28 4
    me := bit n 27, mz := bit n 26, ty := bits n 24 2, imm := bits n 0 24 }

/-- How an instruction ends: the next one follows, another index follows, or the task faults. -/
inductive VGo where
  | next
  | jump (pc : Nat)
  | fault (code : Nat) (lane : Option Nat)
  deriving DecidableEq, Repr

/-- Changes vector engine `x` of die `d`. -/
def onVx (d : DieId) (x : Fin 2) (f : Vx → Vx) (s : State) : State :=
  onDie d (fun k => { k with vx := k.vx.set x (f k.vx[x]) }) s

/-- A vector task faults at instruction `pc` (R184, R206). -/
def vxFault (d : DieId) (x : Fin 2) (t pc code : Nat) (lane : Option Nat) (s : State) : State :=
  let p := pgVXof d x.val
  let v := pc % 2 ^ 13 + (lane.getD 0) % 2 ^ 10 * 2 ^ 13 + b2n lane.isSome * 2 ^ 23 + 2 ^ 24
  taskFault d t code (onVx d x (fun k => { k with task := none })
    (wr (p + VX_FAULT_CODE_V.off) (BitVec.ofNat 32 code) (wr (p + VX_FAULT_PC.off) (BitVec.ofNat 32 v) s)))

/-- The instruction that engine `x` executes next: its task, its index and its fields. -/
def vxNext (s : State) (d : DieId) (x : Fin 2) : Option (Nat × Nat × VIn) :=
  let k := s.dies[d].vx[x]
  match k.task with
  | some t => if dieLive s d && !bankHeld s d t then (s.dies[d].prog[k.pc]?).map fun w => (t, k.pc, vdecode w) else none
  | none => none

/-- Goes on at instruction `pc`; an index at or above PROG_LEN ÷ 8 faults the task (R181). -/
def vxGoto (d : DieId) (x : Fin 2) (t pc : Nat) (s : State) : State :=
  if pc < s.dies[d].prog.length then onVx d x (fun k => { k with pc := pc }) s
  else vxFault d x t pc eBAD_OPCODE none s

/-- Executes the instruction of opcode `op` that engine `x` has come to; nothing happens when it has come to another. A word of the task
that the trunk could not write faults it first (R230, R378). -/
def vxRun (d : DieId) (x : Fin 2) (op : Nat) (body : Nat → VIn → State → State × VGo) (s : State) : State :=
  match vxNext s d x with
  | none => s
  | some (t, pc, w) =>
    if w.op = op then
      if s.dies[d].vx[x].trunkErr ≠ 0 then vxFault d x t pc s.dies[d].vx[x].trunkErr none s else
      match body t w s with
      | (s1, .next) => vxGoto d x t (pc + 1) (tallyQty (pgVXof d x.val) 1 4096 1 s1)
      | (s1, .jump q) => vxGoto d x t q (tallyQty (pgVXof d x.val) 1 4096 1 s1)
      | (s1, .fault c l) => vxFault d x t pc c l s1
    else s

/-! ### Registers, masks and lanes -/

/-- The lanes of V register `r`. -/
def vget (k : Vx) (r : Nat) : List W := sgetList z32 k.v (1024 * r) 1024
/-- The bits of M register `r`. -/
def mget (k : Vx) (r : Nat) : List Bool := sgetList zbool k.m (1024 * (r % 16)) 1024
/-- Sets every lane of V register `r`. -/
def vset (r : Nat) (xs : List W) (k : Vx) : Vx := { k with v := ssetList z32 k.v (1024 * r) xs }
/-- Sets every bit of M register `r`. -/
def mset (r : Nat) (bs : List Bool) (k : Vx) : Vx := { k with m := ssetList zbool k.m (1024 * (r % 16)) bs }
/-- Address register `r`. -/
def aget (k : Vx) (r : Nat) : W := k.a.toList.getD (r % 8) 0
/-- Sets address register `r`. -/
def aset (r : Nat) (v : W) (k : Vx) : Vx := { k with a := k.a.setIfInBounds (r % 8) v }

/-- The lanes an instruction acts on (R179). -/
def active (k : Vx) (w : VIn) : List Bool := if w.me then mget k w.msk else List.replicate 1024 true

/-- Result lanes with the inactive lanes zeroed or kept (R179, R184). -/
def maskLanes (w : VIn) (act : List Bool) (new old : List W) : List W :=
  (act.zip (new.zip old)).map fun e => if e.1 then e.2.1 else if w.mz then 0 else e.2.2

/-- Writes the result lanes of an instruction to VD. -/
def vput (w : VIn) (xs : List W) (k : Vx) : Vx := vset w.vd (maskLanes w (active k w) xs (vget k w.vd)) k

/-- An instruction that only computes lanes of VD. -/
def laneBody (d : DieId) (x : Fin 2) (f : VIn → Vx → List W) (_t : Nat) (w : VIn) (s : State) : State × VGo :=
  (onVx d x (fun k => vput w (f w k) k) s, .next)

/-- An instruction that only changes its engine. -/
def vxBody (d : DieId) (x : Fin 2) (f : VIn → Vx → Vx) (_t : Nat) (w : VIn) (s : State) : State × VGo :=
  (onVx d x (f w) s, .next)

/-- A 24-bit immediate, sign-extended. -/
def simm (w : VIn) : W := (BitVec.ofNat 24 w.imm).signExtend 32

/-- An arithmetic operation on one lane, in X32 or on two W16 halves (R175, R182). -/
def laneArith (ty : Nat) (f : FVal → FVal → FVal → FVal) (a b c : W) : W :=
  if ty = 1 then
    let h (sh : Nat) : Nat :=
      fW16.arith (f (fW16.decode (bits a.toNat sh 16)) (fW16.decode (bits b.toNat sh 16)) (fW16.decode (bits c.toNat sh 16)))
    BitVec.ofNat 32 (h 0 + h 16 * 2 ^ 16)
  else r32 (f (x32 a) (x32 b) (x32 c))

/-- Three source registers, lane by lane. -/
def zip3 (f : W → W → W → W) (w : VIn) (k : Vx) : List W :=
  ((vget k w.va).zip ((vget k w.vb).zip (vget k w.vc))).map fun e => f e.1 e.2.1 e.2.2

/-- An arithmetic instruction (R180, R182). -/
def arithBody (d : DieId) (x : Fin 2) (f : FVal → FVal → FVal → FVal) : Nat → VIn → State → State × VGo :=
  laneBody d x fun w k => zip3 (laneArith w.ty f) w k

/-- An integer instruction (R180). -/
def intBody (d : DieId) (x : Fin 2) (f : W → W → W) : Nat → VIn → State → State × VGo :=
  laneBody d x fun w k => zip3 (fun a b _ => f a b) w k

/-- A comparison (R180, R182): X32, or signed I32. -/
def cmpBody (d : DieId) (x : Fin 2) (f : FVal → FVal → Bool) (g : Int → Int → Bool) : Nat → VIn → State → State × VGo :=
  vxBody d x fun w k =>
    mset w.vd (((active k w).zip ((vget k w.va).zip (vget k w.vb))).map fun e =>
      e.1 && (if w.ty = 2 then g e.2.1.toInt e.2.2.toInt else f (x32 e.2.1) (x32 e.2.2))) k

/-- A mask instruction (R180). -/
def maskBody (d : DieId) (x : Fin 2) (f : Bool → Bool → Bool) : Nat → VIn → State → State × VGo :=
  vxBody d x fun w k => mset w.vd (((mget k w.va).zip (mget k w.vb)).map fun e => f e.1 e.2) k

/-! ### Loops (R180) -/

/-- Nesting after each instruction from index 0 on, as check 15 counts it. -/
def nesting (prog : List D) (n : Nat) : Nat :=
  (prog.take n).foldl (fun lv w =>
    let op := (vdecode w).op
    if op = 2 then lv + 1 else if op = 3 then lv - 1 else lv) 0

/-- The index of the ENDL that matches the LOOP at `pc`. -/
def matchEndl (prog : List D) (pc : Nat) : Option Nat :=
  (List.range prog.length).find? fun q =>
    decide (pc < q) && (prog[q]?.map fun w => (vdecode w).op) == some 3 && nesting prog (q + 1) == nesting prog pc

/-! ### Issue of a RUN task (R174, R176) -/

/-- Starts a program: every register cleared, A0 to A7 at their initial values, the scalar inputs read. -/
def startProgram (d : DieId) (t : Nat) (_i : Img) (tk : Task) (s : State) : State × Nat :=
  let x : Fin 2 := if tk.unit = 6 then 0 else 1
  let k : Vx :=
    { task := some t, pc := tk.p 64 2, v := [], m := []
      a := #v[tk.px 68, tk.px 72, tk.px 76, tk.px 80, tk.px 84, tk.px 88, tk.px 92, tk.px 96], loops := []
      sin := (List.range 8).map (scalarIn s d tk), sout := 0, serial := s.dies[d].vx[x].serial + 1, trunkErr := 0 }
  (onVx d x (fun _ => k) s, eOK)

/-- RUN_TASK (R155, R176): a RUN task issues on its vector engine; it executes nothing while it waits for a bank. -/
def doRunTask (d : DieId) (t : Nat) (s : State) : State :=
  issueWith d t 1 (fun tk => (tk.unit == 6 || tk.unit == 7) && tk.opcode == 1) (fun _ _ _ => .none)
    (fun i tk s => let s1 := (startProgram d t i tk s).1; ((orWait d t (fun s => (s, eOK)) s1).1, eOK)) s

/-! ### Memory operands (R185, R186) -/

/-- The operand slot, the address pair and the segment length of a memory instruction (R179). -/
def vSlot (w : VIn) : Nat := bits w.imm 21 3
/-- R179. -/ def vPair (w : VIn) : Nat := bits w.imm 19 2
/-- R179. -/ def vSeg (w : VIn) : Nat := 1024 / 2 ^ bits w.imm 17 2

/-- The DIM0 index and row index an address pair gives. -/
def vIdx (k : Vx) (p : Nat) : Int × Int := ((aget k (2 * p)).toInt, (aget k (2 * p + 1)).toInt)

/-- The descriptor of a task executing on die `d`. -/
def taskOf (s : State) (d : DieId) (t : Nat) : Option (Img × Task) := (activeImg s d).map fun i => (i, readTask s i t)

/-- The view of slot `o` for a read or a write, or the fault R185 gives it. -/
def slotView (s : State) (d : DieId) (t o : Nat) (write : Bool) : Except Nat View :=
  match taskOf s d t with
  | none => .error eBAD_DESCRIPTOR
  | some (i, tk) =>
    if tk.role o = 0 || write && tk.role o == 1 then .error eBAD_DESCRIPTOR
    else .ok (operView s d i tk o write)

/-- Whether a lane type pairs with a format for loads (R186). -/
def loadable (ty fmt : Nat) : Bool :=
  match ty with
  | 0 => decide (fmt ≤ 8)
  | 1 => fmt == 2
  | _ => fmt == 0

/-- Whether a lane type pairs with a format for stores (R186). -/
def storable (ty fmt : Nat) : Bool :=
  match ty with
  | 0 => decide (fmt ≤ 2) || fmt == 8
  | 1 => fmt == 2
  | _ => fmt == 0

/-- Where a lane reaches: its number, its row and its first element. -/
structure VPos where
  lane : Nat
  row : Int
  idx : Int
  deriving DecidableEq, Repr

/-- Whether `n` elements from a position lie in a view. -/
def inView (v : View) (n : Nat) (p : VPos) : Bool :=
  decide (0 ≤ p.row) && decide (p.row < v.t.rows) && decide (0 ≤ p.idx) && decide (p.idx + n ≤ v.t.dim 0)

/-- Positions that follow one another in a row, merged: the first lane, row, element and the lanes merged. -/
def mergeRuns (n : Nat) (ps : List VPos) : List (Nat × Nat × Nat × Nat) :=
  (ps.foldl (fun (acc : List (Nat × Nat × Nat × Nat)) p =>
    match acc with
    | (l, r, i, c) :: rest =>
      if p.row = (r : Int) ∧ p.idx = ((i + c * n : Nat) : Int) ∧ p.lane = l + c then (l, r, i, c + 1) :: rest
      else (p.lane, p.row.toNat, p.idx.toNat, 1) :: acc
    | [] => [(p.lane, p.row.toNat, p.idx.toNat, 1)]) []).reverse

/-- Counts a conversion on the engine's page, with its events (R141, R207). -/
def countConv (d : DieId) (x : Fin 2) (c : Cnt) (s : State) : State :=
  let p := pgVXof d x.val
  let s2 := tallyQty p 8 1024 c.bad (tallyQty p 7 1024 c.zero (tallyQty p 6 1024 c.nonf (tallyQty p 5 1024 c.sat s)))
  let s3 := if 0 < c.sat then raise p 0 s2 else s2
  if 0 < c.nonf then raise p 1 s3 else s3

/-- The lanes a run of elements gives (R186), with what their widening counts (R133, R136), or the code and the element that faults. -/
def loadRun (d : DieId) (x : Fin 2) (v : View) (ty row i n : Nat) (s : State) : State × Nat × Option Nat × List W :=
  let rdr : Reader := memRead (.engine d)
  let wd := if ty = 1 then 2 else 1
  match readCodes rdr v row i (n * wd) s with
  | (s1, 0, cs) =>
    if ty = 1 then
      (s1, eOK, none, (List.range n).map fun j => BitVec.ofNat 32 (cs.getD (2 * j) 0 + cs.getD (2 * j + 1) 0 * 2 ^ 16))
    else if v.fmt = 0 then (s1, eOK, none, cs.map (BitVec.ofNat 32))
    else
      match (if v.fmt = 7 then cs.findIdx? (· == 2) else none) with
      | some j => (s1, eBAD_ENCODING, some j, [])
      | none =>
        match readScales rdr v row i n s1 with
        | (s2, 0, sc) =>
          let vs := (cs.zip sc).map fun e => if v.grouped then groupVal v.fmt e.2.2 e.2.1 e.1 else elemVal v.fmt 0 e.1
          (countConv d x (widenCnt v.fmt vs) s2, eOK, none, vs.map (widenElem v.fmt))
        | (s2, c, _) => (s2, c, none, [])
  | (s1, c, _) => (s1, c, none, [])

/-- Loads merged runs: the lanes read, or the first fault with its lane. -/
def loadRuns (d : DieId) (x : Fin 2) (v : View) (ty : Nat) :
    List (Nat × Nat × Nat × Nat) → State → State × Nat × Option Nat × List (Nat × W)
  | [], s => (s, eOK, none, [])
  | (l, r, i, c) :: rest, s =>
    match loadRun d x v ty r i c s with
    | (s1, 0, _, xs) =>
      let q := loadRuns d x v ty rest s1
      (q.1, q.2.1, q.2.2.1, (List.range c).map (fun j => (l + j, xs.getD j 0)) ++ q.2.2.2)
    | (s1, e, j, _) => (s1, e, j.map (l + ·), [])

/-- Counts the lane faults that inactive lanes would have raised (R184, tally 9). -/
def countSuppressed (d : DieId) (x : Fin 2) (n : Nat) (s : State) : State := tallyAdd (pgVXof d x.val) 9 n s

/-- A load of the lanes at `ps`: checks the slot, the pairing and the active lanes, and gives every lane read. -/
def vLoad (d : DieId) (x : Fin 2) (t : Nat) (w : VIn) (act : List Bool) (pos : List VPos) (s : State) :
    State × VGo × List (Nat × W) :=
  match slotView s d t (vSlot w) false with
  | .error c => (s, .fault c none, [])
  | .ok v =>
    if !loadable w.ty v.fmt then (s, .fault eBAD_DESCRIPTOR none, []) else
    let n := if w.ty = 1 then 2 else 1
    let lane (a : Bool) := pos.filter fun p => act.getD p.lane false == a
    let s1 := countSuppressed d x ((lane false).filter fun p => !inView v n p).length s
    let bad := ((lane true).filter fun p => !inView v n p).head?
    match loadRuns d x v w.ty (mergeRuns n ((lane true).filter (inView v n))) s1 with
    | (s2, 0, _, xs) =>
      match bad with
      | some p => (s2, .fault eBAD_INDEX (some p.lane), [])
      | none => (s2, .next, xs)
    | (s2, c, l, _) =>
      match bad, l with
      | some p, some l => if p.lane < l then (s2, .fault eBAD_INDEX (some p.lane), []) else (s2, .fault c (some l), [])
      | some p, none => (s2, .fault eBAD_INDEX (some p.lane), [])
      | none, l => (s2, .fault c l, [])

/-- Lanes read, placed in VD under the mask. -/
def vPlace (d : DieId) (x : Fin 2) (w : VIn) (act : List Bool) (xs : List (Nat × W)) (s : State) : State :=
  onVx d x (fun k => vset w.vd (maskLanes w act ((List.range 1024).map fun j =>
    ((xs.find? fun e => e.1 == j).map Prod.snd).getD 0) (vget k w.vd)) k) s

/-! ### Stores -/

/-- Counts what a store converted, on the engine's page and in the tensor's watch entry (R141, R207, R244). -/
def countStore (d : DieId) (x : Fin 2) (t : Nat) (v : View) (conv : Bool) (c : Cnt) (s : State) : State :=
  let f := match taskOf s d t with | some (_, tk) => tk.frame | none => 0
  let s1 := watchWrite d f v.t.watch c s
  if conv then countConv d x c s1 else s1

/-- Stores one run of lanes (R186). -/
def storeRun (d : DieId) (x : Fin 2) (t : Nat) (v : View) (ty row i : Nat) (xs : List W) (s : State) : State × Nat :=
  if ty = 1 then
    let hs := xs.flatMap fun w => [bits w.toNat 0 16, bits w.toNat 16 16]
    let c : Cnt := ⟨hs.length, 0, (hs.filter fun h => !(fW16.decode h).isFin).length, (hs.filter fun h => h % 2 ^ 15 == 0).length, 0⟩
    match storeCodes d t (memWrite (.engine d)) v row i hs s with
    | (s1, 0) => (countStore d x t v false c s1, eOK)
    | (s1, e) => (s1, e)
  else
    match storeX32 d t (memWrite (.engine d)) v row i xs s with
    | (s1, 0, c) => (countStore d x t v (v.fmt != 0) c s1, eOK)
    | (s1, e, _) => (s1, e)

/-- Stores merged runs in order. -/
def storeRuns (d : DieId) (x : Fin 2) (t : Nat) (v : View) (ty : Nat) (src : List W) (rs : List (Nat × Nat × Nat × Nat))
    (s : State) : State × Nat :=
  forUntil (fun r s => storeRun d x t v ty r.2.1 r.2.2.1 ((src.drop r.1).take r.2.2.2) s) rs s

/-- A store of lanes `src` at `pos`; a faulting lane stops it before any element is written. -/
def vStore (d : DieId) (x : Fin 2) (t : Nat) (w : VIn) (act : List Bool) (pos : List VPos) (src : List W) (s : State) :
    State × VGo :=
  match slotView s d t (vSlot w) true with
  | .error c => (s, .fault c none)
  | .ok v =>
    if !storable w.ty v.fmt then (s, .fault eBAD_DESCRIPTOR none) else
    let n := if w.ty = 1 then 2 else 1
    let lane (a : Bool) := pos.filter fun p => act.getD p.lane false == a
    let s1 := countSuppressed d x ((lane false).filter fun p => !inView v n p).length s
    match ((lane true).filter fun p => !inView v n p).head? with
    | some p => (s1, .fault eBAD_INDEX (some p.lane))
    | none =>
      match storeRuns d x t v w.ty src (mergeRuns n (lane true)) s1 with
      | (s2, 0) => (s2, .next)
      | (s2, c) => (s2, .fault c none)

/-- Segmented positions (R185). -/
def segPos (k : Vx) (w : VIn) : List VPos :=
  let b := vIdx k (vPair w)
  let n : Nat := if w.ty = 1 then 2 else 1
  (List.range 1024).map fun j => ⟨j, b.2 + (j / vSeg w : Nat), b.1 + (n * (j % vSeg w) : Nat)⟩

/-- Indexed positions: the DIM0 index comes from VB (R180). -/
def idxPos (k : Vx) (w : VIn) : List VPos :=
  ((vget k w.vb).zipIdx).map fun e => ⟨e.2, (vIdx k (vPair w)).2, e.1.toInt⟩

/-- A load instruction. -/
def loadBody (d : DieId) (x : Fin 2) (pos : Vx → VIn → List VPos) (t : Nat) (w : VIn) (s : State) : State × VGo :=
  let k := s.dies[d].vx[x]
  match vLoad d x t w (active k w) (pos k w) s with
  | (s1, .next, xs) => (vPlace d x w (active k w) xs s1, .next)
  | (s1, g, _) => (s1, g)

/-- A store instruction. -/
def storeBody (d : DieId) (x : Fin 2) (pos : Vx → VIn → List VPos) (t : Nat) (w : VIn) (s : State) : State × VGo :=
  let k := s.dies[d].vx[x]
  vStore d x t w (active k w) (pos k w) (vget k w.va) s

/-- Active lanes, ascending. -/
def activeLanes (act : List Bool) : List Nat := (List.range 1024).filter fun j => act.getD j false

/-- Positions of a compressed store or an expanded load: the active lanes take consecutive elements (R188). -/
def packPos (k : Vx) (w : VIn) : List VPos :=
  ((activeLanes (active k w)).zipIdx).map fun e => ⟨e.1, (vIdx k (vPair w)).2, (vIdx k (vPair w)).1 + (e.2 : Nat)⟩

/-- A(2p) advances by the number of active lanes (R188). -/
def bumpPair (d : DieId) (x : Fin 2) (w : VIn) (c : Nat) (s : State) : State :=
  onVx d x (fun k => aset (2 * vPair w) (aget k (2 * vPair w) + BitVec.ofNat 32 c) k) s

/-! ### Grouped stores (R190) -/

/-- Writes rows of X32 words, each at (row, first element, first lane): grouped, or element by element when the format in
force is W16. -/
def groupStore (d : DieId) (x : Fin 2) (t : Nat) (v : View) (rs : List (Int × Int × Nat × List W)) (s : State) : State × VGo :=
  match rs.find? fun r => !inView v r.2.2.2.length ⟨r.2.2.1, r.1, r.2.1⟩ with
  | some r =>
    let off := if 0 ≤ r.1 ∧ r.1 < v.t.rows ∧ 0 ≤ r.2.1 then (v.t.dim 0 - r.2.1).toNat else 0
    (s, .fault eBAD_INDEX (some (r.2.2.1 + min off (r.2.2.2.length - 1))))
  | none =>
    let r := forUntil (fun r s =>
      match storeX32 d t (memWrite (.engine d)) v r.1.toNat r.2.1.toNat r.2.2.2 s with
      | (s1, 0, c) => (countStore d x t v true c s1, eOK)
      | (s1, e, _) => (s1, e)) rs s
    match r with
    | (s1, 0) => (s1, .next)
    | (s1, c) => (s1, .fault c none)

/-- VSTG (R190). -/
def vstgBody (d : DieId) (x : Fin 2) (t : Nat) (w : VIn) (s : State) : State × VGo :=
  let k := s.dies[d].vx[x]
  match slotView s d t (vSlot w) true with
  | .error c => (s, .fault c none)
  | .ok v =>
    let b := vIdx k (vPair w)
    let n := vSeg w
    if v.t.gcode = 0 then (s, .fault eBAD_DESCRIPTOR none)
    else if b.1 % v.t.g ≠ 0 ∨ n % v.t.g ≠ 0 then (s, .fault eBAD_ALIGNMENT none)
    else groupStore d x t v ((List.range (1024 / n)).map fun i =>
      (b.2 + (i : Nat), b.1, i * n, ((vget k w.va).drop (i * n)).take n)) s

/-- VSTGX (R190): groups across g ÷ 4 registers. -/
def vstgxBody (d : DieId) (x : Fin 2) (t : Nat) (w : VIn) (s : State) : State × VGo :=
  let k := s.dies[d].vx[x]
  match slotView s d t (vSlot w) true with
  | .error c => (s, .fault c none)
  | .ok v =>
    let b := vIdx k (vPair w)
    if v.t.gcode = 0 ∨ v.t.fmt = 6 then (s, .fault eBAD_DESCRIPTOR none)
    else if b.1 % v.t.g ≠ 0 ∨ 63 < w.va + v.t.g / 4 - 1 then (s, .fault eBAD_ALIGNMENT none)
    else
      let regs := (List.range (v.t.g / 4)).map fun q => vget k (w.va + q)
      groupStore d x t v ((List.range 256).map fun n =>
        (b.2 + (n : Nat), b.1, n, regs.flatMap fun r => (List.range 4).map fun i => r.getD (256 * i + n) 0)) s

/-! ### The bank read (R189) -/

/-- VLDACC. -/
def vldaccBody (d : DieId) (x : Fin 2) (t : Nat) (w : VIn) (s : State) : State × VGo :=
  let k := s.dies[d].vx[x]
  let r := bits w.imm 21 3
  let b := bits w.imm 20 1
  let m := (vIdx k (bits w.imm 18 2)).2
  match taskOf s d t with
  | none => (s, .fault eBAD_DESCRIPTOR none)
  | some (_, tk) =>
    if !bit (tk.p 66 2) (2 * r + b) then (s, .fault eBAD_DESCRIPTOR none)
    else if m < 0 ∨ 255 < m + 3 then (s, .fault eBAD_INDEX none)
    else match rankArray s d r with
      | none => (s, .fault eUNIT_FENCED none)
      | some a =>
        (onVx d x (vset w.vd ((List.range 4).flatMap fun i => bankRow s d a b (m.toNat + i) 256)) s, .next)

/-! ### Mask memory (R180, R230) -/

/-- The MASK1 view that MLD and MST reach, with its slot, format and alignment checked. -/
def maskView (s : State) (d : DieId) (x : Fin 2) (t : Nat) (w : VIn) (write : Bool) : Except Nat View :=
  match slotView s d t (vSlot w) write with
  | .error c => .error c
  | .ok v =>
    if v.fmt ≠ 9 then .error eBAD_DESCRIPTOR
    else if (vIdx s.dies[d].vx[x] (vPair w)).1 % 8 ≠ 0 then .error eBAD_ALIGNMENT
    else .ok v

/-- The elements of a mask access, lane by lane. -/
def maskPos (k : Vx) (w : VIn) : List VPos :=
  (List.range 1024).map fun j => ⟨j, (vIdx k (vPair w)).2, (vIdx k (vPair w)).1 + (j : Nat)⟩

/-- The lanes of `pos` that are active, or inactive, in `act`. -/
def lanesOf (act : List Bool) (a : Bool) (pos : List VPos) : List VPos := pos.filter fun p => act.getD p.lane false == a

/-- The bits of merged runs of a mask, or the code of the first access that fails. -/
def maskRuns (d : DieId) (v : View) : List (Nat × Nat × Nat × Nat) → State → State × Nat × List (Nat × Bool)
  | [], s => (s, eOK, [])
  | (l, r, i, c) :: rest, s =>
    match readCodes (memRead (.engine d)) v r i c s with
    | (s1, 0, cs) =>
      let q := maskRuns d v rest s1
      (q.1, q.2.1, (List.range c).map (fun j => (l + j, cs.getD j 0 == 1)) ++ q.2.2)
    | (s1, e, _) => (s1, e, [])

/-- MLD. -/
def mldBody (d : DieId) (x : Fin 2) (t : Nat) (w : VIn) (s : State) : State × VGo :=
  match maskView s d x t w false with
  | .error c => (s, .fault c none)
  | .ok v =>
    let k := s.dies[d].vx[x]
    let act := active k w
    let pos := maskPos k w
    let s0 := countSuppressed d x ((lanesOf act false pos).filter fun p => !inView v 1 p).length s
    match (lanesOf act true pos).find? fun p => !inView v 1 p with
    | some p => (s0, .fault eBAD_INDEX (some p.lane))
    | none =>
      match maskRuns d v (mergeRuns 1 (lanesOf act true pos)) s0 with
      | (s1, 0, bs) =>
        (onVx d x (fun k => mset w.vd ((act.zip ((mget k w.vd).zipIdx)).map fun e =>
          if e.1 then ((bs.find? fun b => b.1 == e.2.2).map Prod.snd).getD false else if w.mz then false else e.2.1) k) s1, .next)
      | (s1, c, _) => (s1, .fault c none)

/-- The oldest partial word leaves the trunk for a new one when all 64 buffers are full (R230). -/
def trunkRoom (d : DieId) (s : State) : State × Nat :=
  if s.dies[d].trunk.length < 64 then (s, eOK) else
  match s.dies[d].trunk with
  | t :: _ =>
    match trunkWriteWord d t (tallyAdd (pgTRUNK d) 3 1 s) with
    | (s1, 0) => (s1, eOK)
    | (s1, c) => (trunkFault d t c s1, eOK)
  | [] => (s, eOK)

/-- Bytes that an MST writes in the word at `base` (R230): a word they fill, alone or with the bytes held, is written whole; any other is
held in a combining buffer. -/
def trunkPut (d : DieId) (x : Fin 2) (base : Nat) (bs : List (Option Byte)) (s : State) : State × Nat :=
  let have_ := s.dies[d].trunk.find? fun t => t.addr == base
  let old := (have_.map (·.bytes)).getD (List.replicate 64 none)
  let new : TrunkWord := ⟨base, x.val, s.dies[d].vx[x].serial, (bs.zip old).map fun e => e.1.or e.2⟩
  if new.bytes.all Option.isSome then trunkWriteWord d new s
  else
    match (if have_.isSome then (s, eOK) else trunkRoom d s) with
    | (s1, 0) =>
      let put (ts : List TrunkWord) : List TrunkWord :=
        if have_.isSome then ts.map (fun u => if u.addr = base then new else u) else ts ++ [new]
      let s2 := onDie d (fun k => { k with trunk := put k.trunk }) s1
      (wr (pgTRUNK d + TRUNK_STAT_V.off) (BitVec.ofNat 32 s2.dies[d].trunk.length) s2, eOK)
    | (s1, c) => (s1, c)

/-- The byte an MST leaves at `a`, whose first bit is DIM0 element `e` of the mask: lanes `bs`, each active or not with its bit; inactive bits
keep what the trunk or the store room holds, and the unused bits of a row's last byte are 0 (R131). -/
def mstByte (d : DieId) (v : View) (a e : Nat) (bs : List (Bool × Bool)) (s : State) : Byte :=
  let held := (s.dies[d].trunk.find? fun u => u.addr == a / 64 * 64).bind fun u => (u.bytes.getD (a % 64) none)
  let old := (held.getD ((peek s a 1).headD 0)).toNat
  BitVec.ofNat 8 ((List.range 8).foldl (fun n j =>
    let b := bs.getD j (false, false)
    n + b2n (decide (e + j < v.t.dim 0) && (if b.1 then b.2 else bit old j)) * 2 ^ j) 0)

/-- MST: the active bits of M[VA], through the trunk, code word by code word. A byte with inactive bits keeps those bits. -/
def mstBody (d : DieId) (x : Fin 2) (t : Nat) (w : VIn) (s : State) : State × VGo :=
  match maskView s d x t w true with
  | .error c => (s, .fault c none)
  | .ok v =>
    let k := s.dies[d].vx[x]
    let act := active k w
    let m := mget k w.va
    let pos := maskPos k w
    let s0 := countSuppressed d x ((lanesOf act false pos).filter fun p => !inView v 1 p).length s
    match (lanesOf act true pos).find? fun p => !inView v 1 p with
    | some p => (s0, .fault eBAD_INDEX (some p.lane))
    | none =>
      let b := vIdx k (vPair w)
      let touched := (List.range 128).filter fun q => (List.range 8).any fun j => act.getD (8 * q + j) false
      let elem (q : Nat) : Nat := (b.1 + (8 * q : Nat)).toNat
      let addr (q : Nat) : Nat := v.rowAddr b.2.toNat + elem q / 8
      let words := (touched.map fun q => addr q / 64).eraseDups
      let put (n : Nat) (s : State) : State × Nat :=
        trunkPut d x (64 * n) ((List.range 64).map fun o =>
          (touched.find? fun q => addr q == 64 * n + o).map fun q =>
            mstByte d v (addr q) (elem q) ((List.range 8).map fun j => (act.getD (8 * q + j) false, m.getD (8 * q + j) false)) s) s
      let first := addr (touched.headD 0)
      match (if touched.isEmpty then eOK else accessCheck (.engine d) first (addr (touched.getLast?.getD 0) + 1 - first) true s0) with
      | 0 =>
        match forUntil put words s0 with
        | (s1, 0) =>
          let n := (activeLanes act).length
          let ones := ((activeLanes act).filter fun j => m.getD j false).length
          let s2 := countStore d x t v false ⟨n, 0, 0, n - ones, 0⟩ s1
          (tallyQty (pgVXof d x.val) 10 1024 touched.length s2, .next)
        | (s1, c) => (s1, .fault c none)
      | c => (s0, .fault c none)

/-! ### The instructions -/

/-- NOP. -/
def doVNop (d : DieId) (x : Fin 2) (s : State) : State := vxRun d x 0x00 (fun _ _ s => (s, .next)) s

/-- END (R178, R230): the trunk writes the words this task last wrote, and the program is over. -/
def doVEnd (d : DieId) (x : Fin 2) (s : State) : State :=
  match vxNext s d x with
  | some (t, pc, w) =>
    if w.op = 0x01 then
      let k := s.dies[d].vx[x]
      if k.trunkErr ≠ 0 then vxFault d x t pc k.trunkErr none s else
      match forUntil (fun u s => trunkWriteWord d u s) (s.dies[d].trunk.filter fun u => u.vx == x.val && u.serial == k.serial) s with
      | (s1, 0) =>
        tallyQty (pgVXof d x.val) 1 4096 1 (setSout d t s.dies[d].vx[x].sout (onVx d x (fun k => { k with task := none }) s1))
      | (s1, c) => vxFault d x t pc c none s1
    else s
  | none => s

/-- LOOP. -/
def doVLoop (d : DieId) (x : Fin 2) (s : State) : State :=
  vxRun d x 0x02 (fun _ w s =>
    let k := s.dies[d].vx[x]
    let count := if bit w.imm 23 then (aget k w.imm).toInt.toNat else bits w.imm 0 23
    if count = 0 then
      (s, .jump (match matchEndl s.dies[d].prog k.pc with | some q => q + 1 | none => s.dies[d].prog.length))
    else (onVx d x (fun k => { k with loops := (k.pc + 1, count) :: k.loops }) s, .next)) s

/-- ENDL. -/
def doVEndl (d : DieId) (x : Fin 2) (s : State) : State :=
  vxRun d x 0x03 (fun _ _ s =>
    match s.dies[d].vx[x].loops with
    | [] => (s, .fault eBAD_OPCODE none)
    | (b, n) :: rest =>
      if n ≤ 1 then (onVx d x (fun k => { k with loops := rest }) s, .next)
      else (onVx d x (fun k => { k with loops := (b, n - 1) :: rest }) s, .jump b)) s

/-- AMOVI. -/
def doAmovi (d : DieId) (x : Fin 2) (s : State) : State := vxRun d x 0x08 (vxBody d x fun w k => aset w.vd (simm w) k) s
/-- AADDI. -/
def doAaddi (d : DieId) (x : Fin 2) (s : State) : State :=
  vxRun d x 0x09 (vxBody d x fun w k => aset w.vd (aget k w.vd + simm w) k) s
/-- AADD. -/
def doAadd (d : DieId) (x : Fin 2) (s : State) : State :=
  vxRun d x 0x0A (vxBody d x fun w k => aset w.vd (aget k w.vd + aget k w.imm) k) s

/-- A scalar input slot; reading an invalid one faults with BAD_DESCRIPTOR (R185). -/
def withScalar (d : DieId) (x : Fin 2) (f : VIn → D → Vx → Vx) (_t : Nat) (w : VIn) (s : State) : State × VGo :=
  match s.dies[d].vx[x].sin.getD (w.imm % 8) none with
  | some v => (onVx d x (f w v) s, .next)
  | none => (s, .fault eBAD_DESCRIPTOR none)

/-- AMOVS. -/
def doAmovs (d : DieId) (x : Fin 2) (s : State) : State :=
  vxRun d x 0x0B (withScalar d x fun w v k => aset w.vd (v.setWidth 32) k) s
/-- MPOP. -/
def doMpop (d : DieId) (x : Fin 2) (s : State) : State :=
  vxRun d x 0x0C (vxBody d x fun w k => aset w.vd (BitVec.ofNat 32 ((mget k w.msk).filter id).length) k) s
/-- SOUT. -/
def doSout (d : DieId) (x : Fin 2) (s : State) : State :=
  vxRun d x 0x0D (vxBody d x fun w k =>
    { k with sout := BitVec.ofNat 64 (((vget k w.va).getD 0 0).toNat + ((vget k w.va).getD 1 0).toNat * 2 ^ 32) }) s
/-- VBCAST. -/
def doVbcast (d : DieId) (x : Fin 2) (s : State) : State :=
  vxRun d x 0x10 (withScalar d x fun w v k =>
    vput w (List.replicate 1024 (if bit w.imm 3 then (v >>> 32).setWidth 32 else v.setWidth 32)) k) s
/-- VMOVI. -/
def doVmovi (d : DieId) (x : Fin 2) (s : State) : State :=
  vxRun d x 0x11 (laneBody d x fun w _ => List.replicate 1024
    (if w.ty = 0 then BitVec.ofNat 32 (w.imm * 256)
     else if w.ty = 1 then BitVec.ofNat 32 (bits w.imm 8 16 * 65537) else simm w)) s
/-- VIOTA. -/
def doViota (d : DieId) (x : Fin 2) (s : State) : State :=
  vxRun d x 0x12 (laneBody d x fun w k => (List.range 1024).map fun j => aget k w.imm + BitVec.ofNat 32 j) s
/-- VSEL. -/
def doVsel (d : DieId) (x : Fin 2) (s : State) : State :=
  vxRun d x 0x13 (vxBody d x fun w k =>
    vset w.vd (((mget k w.msk).zip ((vget k w.va).zip (vget k w.vb))).map fun e => if e.1 then e.2.1 else e.2.2) k) s
/-- VMOV. -/
def doVmov (d : DieId) (x : Fin 2) (s : State) : State := vxRun d x 0x14 (laneBody d x fun w k => vget k w.va) s
/-- VADD. -/
def doVadd (d : DieId) (x : Fin 2) (s : State) : State := vxRun d x 0x20 (arithBody d x fun a b _ => fAdd a b) s
/-- VSUB. -/
def doVsub (d : DieId) (x : Fin 2) (s : State) : State := vxRun d x 0x21 (arithBody d x fun a b _ => fAdd a (fNeg b)) s
/-- VMUL. -/
def doVmul (d : DieId) (x : Fin 2) (s : State) : State := vxRun d x 0x22 (arithBody d x fun a b _ => fMul a b) s
/-- VFMA. -/
def doVfma (d : DieId) (x : Fin 2) (s : State) : State := vxRun d x 0x23 (arithBody d x fFma) s
/-- VFNMA. -/
def doVfnma (d : DieId) (x : Fin 2) (s : State) : State := vxRun d x 0x24 (arithBody d x fun a b c => fFma (fNeg a) b c) s
/-- VMIN. -/
def doVmin (d : DieId) (x : Fin 2) (s : State) : State := vxRun d x 0x25 (arithBody d x fun a b _ => fMin a b) s
/-- VMAX. -/
def doVmax (d : DieId) (x : Fin 2) (s : State) : State := vxRun d x 0x26 (arithBody d x fun a b _ => fMax a b) s
/-- VABS. -/
def doVabs (d : DieId) (x : Fin 2) (s : State) : State := vxRun d x 0x27 (arithBody d x fun a _ _ => fAbs a) s
/-- VNEG. -/
def doVneg (d : DieId) (x : Fin 2) (s : State) : State := vxRun d x 0x28 (arithBody d x fun a _ _ => fNeg a) s
/-- VDIV. -/
def doVdiv (d : DieId) (x : Fin 2) (s : State) : State := vxRun d x 0x29 (arithBody d x fun a b _ => fDiv a b) s
/-- VSQRT. -/
def doVsqrt (d : DieId) (x : Fin 2) (s : State) : State := vxRun d x 0x2A (arithBody d x fun a _ _ => fSqrt a) s
/-- VRSQRT. -/
def doVrsqrt (d : DieId) (x : Fin 2) (s : State) : State := vxRun d x 0x2B (arithBody d x fun a _ _ => fRsqrt a) s
/-- VRCP. -/
def doVrcp (d : DieId) (x : Fin 2) (s : State) : State := vxRun d x 0x2C (arithBody d x fun a _ _ => fDiv (.fin false 1 0) a) s
/-- VEXP. -/
def doVexp (d : DieId) (x : Fin 2) (s : State) : State := vxRun d x 0x2D (arithBody d x fun a _ _ => fExp a) s
/-- VLOG. -/
def doVlog (d : DieId) (x : Fin 2) (s : State) : State := vxRun d x 0x2E (arithBody d x fun a _ _ => fLog a) s
/-- VTANH. -/
def doVtanh (d : DieId) (x : Fin 2) (s : State) : State := vxRun d x 0x2F (arithBody d x fun a _ _ => fTanh a) s

/-- X32 to I32 (R182): the integer, and whether it saturated or came from a NaN. DEDUCED: an infinity counts as the saturation that R182 gives
it, and only a NaN as a non-finite element. -/
def toI32 (v : FVal) : W × Nat × Nat :=
  match v with
  | .nan => (0, 0, 1)
  | .inf b => (if b then 0x80000000 else 0x7FFFFFFF, 1, 0)
  | v =>
    let i := fToInt v
    if 2147483647 < i then (0x7FFFFFFF, 1, 0) else if i < -2147483648 then (0x80000000, 1, 0) else (BitVec.ofInt 32 i, 0, 0)

/-- CVTFI. -/
def doCvtfi (d : DieId) (x : Fin 2) (s : State) : State :=
  vxRun d x 0x30 (fun _ w s =>
    let k := s.dies[d].vx[x]
    let act := active k w
    let src := (act.zip (vget k w.va)).filterMap fun e => if e.1 then some (x32 e.2) else none
    let r := src.map toI32
    let sat := (r.map fun e => e.2.1).foldl (· + ·) 0
    let nan := (r.map fun e => e.2.2).foldl (· + ·) 0
    (countConv d x ⟨0, sat, nan, 0, 0⟩ (onVx d x (fun k => vput w ((vget k w.va).map fun v => (toI32 (x32 v)).1) k) s), .next)) s

/-- CVTIF. -/
def doCvtif (d : DieId) (x : Fin 2) (s : State) : State :=
  vxRun d x 0x31 (laneBody d x fun w k => (vget k w.va).map fun v => r32 (ofInt v.toInt)) s
/-- IADD. -/
def doIadd (d : DieId) (x : Fin 2) (s : State) : State := vxRun d x 0x38 (intBody d x fun a b => a + b) s
/-- ISUB. -/
def doIsub (d : DieId) (x : Fin 2) (s : State) : State := vxRun d x 0x39 (intBody d x fun a b => a - b) s
/-- IMUL. -/
def doImul (d : DieId) (x : Fin 2) (s : State) : State := vxRun d x 0x3A (intBody d x fun a b => a * b) s
/-- IAND. -/
def doIand (d : DieId) (x : Fin 2) (s : State) : State := vxRun d x 0x3B (intBody d x fun a b => a &&& b) s
/-- IOR. -/
def doIor (d : DieId) (x : Fin 2) (s : State) : State := vxRun d x 0x3C (intBody d x fun a b => a ||| b) s
/-- IXOR. -/
def doIxor (d : DieId) (x : Fin 2) (s : State) : State := vxRun d x 0x3D (intBody d x fun a b => a ^^^ b) s
/-- ISHL. -/
def doIshl (d : DieId) (x : Fin 2) (s : State) : State := vxRun d x 0x3E (intBody d x fun a b => a <<< (b.toNat % 32)) s
/-- ISHR. -/
def doIshr (d : DieId) (x : Fin 2) (s : State) : State := vxRun d x 0x3F (intBody d x fun a b => a >>> (b.toNat % 32)) s
/-- CMPEQ. -/
def doCmpeq (d : DieId) (x : Fin 2) (s : State) : State := vxRun d x 0x40 (cmpBody d x fEq fun a b => a == b) s
/-- CMPNE. -/
def doCmpne (d : DieId) (x : Fin 2) (s : State) : State :=
  vxRun d x 0x41 (cmpBody d x (fun a b => !fEq a b) fun a b => a != b) s
/-- CMPLT. -/
def doCmplt (d : DieId) (x : Fin 2) (s : State) : State := vxRun d x 0x42 (cmpBody d x fLt fun a b => decide (a < b)) s
/-- CMPLE. -/
def doCmple (d : DieId) (x : Fin 2) (s : State) : State :=
  vxRun d x 0x43 (cmpBody d x (fun a b => fLt a b || fEq a b) fun a b => decide (a ≤ b)) s
/-- MAND. -/
def doMand (d : DieId) (x : Fin 2) (s : State) : State := vxRun d x 0x48 (maskBody d x fun a b => a && b) s
/-- MOR. -/
def doMor (d : DieId) (x : Fin 2) (s : State) : State := vxRun d x 0x49 (maskBody d x fun a b => a || b) s
/-- MANDN. -/
def doMandn (d : DieId) (x : Fin 2) (s : State) : State := vxRun d x 0x4A (maskBody d x fun a b => a && !b) s
/-- MNOT. -/
def doMnot (d : DieId) (x : Fin 2) (s : State) : State := vxRun d x 0x4B (maskBody d x fun a _ => !a) s
/-- MSET. -/
def doMset (d : DieId) (x : Fin 2) (s : State) : State := vxRun d x 0x4C (maskBody d x fun _ _ => true) s

/-- One level of the reduction tree of R183: element j with element j + w. -/
def halve {α : Type} (f : α → α → α) (xs : List α) : List α :=
  ((xs.take (xs.length / 2)).zip (xs.drop (xs.length / 2))).map fun e => f e.1 e.2

/-- The reduction tree over 2^n elements. -/
def treeFold {α : Type} (f : α → α → α) : Nat → List α → List α
  | 0, xs => xs
  | n + 1, xs => treeFold f n (halve f xs)

/-- The maximum of two values that may be absent. -/
def optMax : Option W → Option W → Option W
  | none, b => b
  | a, none => a
  | some a, some b => some (xMax a b)

/-- VREDSUM (R183). -/
def doVredsum (d : DieId) (x : Fin 2) (s : State) : State :=
  vxRun d x 0x50 (vxBody d x fun w k =>
    let p := ((active k w).zip (vget k w.va)).map fun e => if e.1 then e.2 else (0 : W)
    vset w.vd ((treeFold xAdd 10 p).headD 0 :: List.replicate 1023 0) k) s

/-- VREDMAX (R183): an absent result is −∞. -/
def doVredmax (d : DieId) (x : Fin 2) (s : State) : State :=
  vxRun d x 0x51 (vxBody d x fun w k =>
    let p := ((active k w).zip (vget k w.va)).map fun e => if e.1 then some e.2 else none
    vset w.vd (((treeFold optMax 10 p).headD none).getD 0xFF800000 :: List.replicate 1023 0) k) s

/-- COMPRESS (R188). -/
def doCompress (d : DieId) (x : Fin 2) (s : State) : State :=
  vxRun d x 0x58 (vxBody d x fun w k =>
    let xs := (activeLanes (active k w)).map fun j => (vget k w.va).getD j 0
    aset w.imm (BitVec.ofNat 32 xs.length) (vset w.vd (xs ++ List.replicate (1024 - xs.length) 0) k)) s

/-- EXPAND (R188). -/
def doExpand (d : DieId) (x : Fin 2) (s : State) : State :=
  vxRun d x 0x59 (laneBody d x fun w k =>
    let act := active k w
    (List.range 1024).map fun j => (vget k w.va).getD ((act.take j).filter id).length 0) s

/-- VLD. -/
def doVld (d : DieId) (x : Fin 2) (s : State) : State := vxRun d x 0x60 (loadBody d x segPos) s
/-- VST. -/
def doVst (d : DieId) (x : Fin 2) (s : State) : State := vxRun d x 0x61 (storeBody d x segPos) s
/-- VSTG. -/
def doVstg (d : DieId) (x : Fin 2) (s : State) : State := vxRun d x 0x62 (vstgBody d x) s
/-- VSTGX. -/
def doVstgx (d : DieId) (x : Fin 2) (s : State) : State := vxRun d x 0x63 (vstgxBody d x) s
/-- VLDX. -/
def doVldx (d : DieId) (x : Fin 2) (s : State) : State := vxRun d x 0x64 (loadBody d x idxPos) s
/-- VSTX. -/
def doVstx (d : DieId) (x : Fin 2) (s : State) : State := vxRun d x 0x65 (storeBody d x idxPos) s

/-- VSTC (R188): the active lanes to consecutive elements, all or none; then A(2p) advances. -/
def doVstc (d : DieId) (x : Fin 2) (s : State) : State :=
  vxRun d x 0x66 (fun t w s =>
    let k := s.dies[d].vx[x]
    let lanes := activeLanes (active k w)
    let src := (vget k w.va)
    match slotView s d t (vSlot w) true with
    | .error c => (s, .fault c none)
    | .ok v =>
      if !storable w.ty v.fmt then (s, .fault eBAD_DESCRIPTOR none) else
      match (packPos k w).find? fun p => !inView v 1 p with
      | some p => (s, .fault eBAD_INDEX (some p.lane))
      | none =>
        let b := vIdx k (vPair w)
        match storeRun d x t v w.ty b.2.toNat b.1.toNat (lanes.map fun j => src.getD j 0) s with
        | (s1, 0) => (bumpPair d x w lanes.length s1, .next)
        | (s1, c) => (s1, .fault c none)) s

/-- VLDE (R188): the active lanes from consecutive elements; then A(2p) advances. -/
def doVlde (d : DieId) (x : Fin 2) (s : State) : State :=
  vxRun d x 0x67 (fun t w s =>
    let k := s.dies[d].vx[x]
    let act := active k w
    match vLoad d x t w act (packPos k w) s with
    | (s1, .next, xs) => (bumpPair d x w (activeLanes act).length (vPlace d x w act xs s1), .next)
    | (s1, g, _) => (s1, g)) s

/-- VLDACC. -/
def doVldacc (d : DieId) (x : Fin 2) (s : State) : State := vxRun d x 0x68 (vldaccBody d x) s
/-- MLD. -/
def doMld (d : DieId) (x : Fin 2) (s : State) : State := vxRun d x 0x69 (mldBody d x) s
/-- MST. -/
def doMst (d : DieId) (x : Fin 2) (s : State) : State := vxRun d x 0x6A (mstBody d x) s

/-- VRAND (R180, R279). -/
def doVrand (d : DieId) (x : Fin 2) (s : State) : State :=
  vxRun d x 0x6B (fun t w s =>
    match taskOf s d t with
    | none => (s, .fault eBAD_DESCRIPTOR none)
    | some (_, tk) =>
      if tk.role (vSlot w) = 0 then (s, .fault eBAD_DESCRIPTOR none) else
      let k := s.dies[d].vx[x]
      let seed := BitVec.ofNat 64 (rd64 s (pgUPD d + UPD_SEED_LO_V.off))
      let step := BitVec.ofNat 64 s.dies[d].disp.attStep
      let a := aget k (2 * vPair w)
      (onVx d x (fun k => vput w ((List.range 1024).map fun j =>
        gen seed step (tk.tensor (vSlot w)) (a + BitVec.ofNat 32 j).toNat &&& 0x7FFFFFFF) k) s, .next)) s

/-- The engine's side of a vector task's completion (R207). -/
def vxComplete (d : DieId) (tk : Task) (s : State) : State := tallyAdd (pgVXof d (tk.unit - 6)) 0 1 s

/-! ### Meanings of the commands -/

/-- RUN_TASK (R176). -/
def execRunTask (d : DieId) (task : Nat) (s : State) : Host.Outcome State Fault Refusal :=
  .next (dieStep d (doRunTask d task) s)
/-- NOP (R180). -/
def execVNop (d : DieId) (vx : Fin 2) (s : State) : Host.Outcome State Fault Refusal :=
  .next (dieStep d (doVNop d vx) s)
/-- END (R178). -/
def execVEnd (d : DieId) (vx : Fin 2) (s : State) : Host.Outcome State Fault Refusal :=
  .next (dieStep d (doVEnd d vx) s)
/-- LOOP (R180). -/
def execVLoop (d : DieId) (vx : Fin 2) (s : State) : Host.Outcome State Fault Refusal :=
  .next (dieStep d (doVLoop d vx) s)
/-- ENDL (R180). -/
def execVEndl (d : DieId) (vx : Fin 2) (s : State) : Host.Outcome State Fault Refusal :=
  .next (dieStep d (doVEndl d vx) s)
/-- AMOVI (R180). -/
def execAmovi (d : DieId) (vx : Fin 2) (s : State) : Host.Outcome State Fault Refusal :=
  .next (dieStep d (doAmovi d vx) s)
/-- AADDI (R180). -/
def execAaddi (d : DieId) (vx : Fin 2) (s : State) : Host.Outcome State Fault Refusal :=
  .next (dieStep d (doAaddi d vx) s)
/-- AADD (R180). -/
def execAadd (d : DieId) (vx : Fin 2) (s : State) : Host.Outcome State Fault Refusal :=
  .next (dieStep d (doAadd d vx) s)
/-- AMOVS (R180). -/
def execAmovs (d : DieId) (vx : Fin 2) (s : State) : Host.Outcome State Fault Refusal :=
  .next (dieStep d (doAmovs d vx) s)
/-- MPOP (R180). -/
def execMpop (d : DieId) (vx : Fin 2) (s : State) : Host.Outcome State Fault Refusal :=
  .next (dieStep d (doMpop d vx) s)
/-- SOUT (R180). -/
def execSout (d : DieId) (vx : Fin 2) (s : State) : Host.Outcome State Fault Refusal :=
  .next (dieStep d (doSout d vx) s)
/-- VBCAST (R180). -/
def execVbcast (d : DieId) (vx : Fin 2) (s : State) : Host.Outcome State Fault Refusal :=
  .next (dieStep d (doVbcast d vx) s)
/-- VMOVI (R180). -/
def execVmovi (d : DieId) (vx : Fin 2) (s : State) : Host.Outcome State Fault Refusal :=
  .next (dieStep d (doVmovi d vx) s)
/-- VIOTA (R180). -/
def execViota (d : DieId) (vx : Fin 2) (s : State) : Host.Outcome State Fault Refusal :=
  .next (dieStep d (doViota d vx) s)
/-- VSEL (R180). -/
def execVsel (d : DieId) (vx : Fin 2) (s : State) : Host.Outcome State Fault Refusal :=
  .next (dieStep d (doVsel d vx) s)
/-- VMOV (R180). -/
def execVmov (d : DieId) (vx : Fin 2) (s : State) : Host.Outcome State Fault Refusal :=
  .next (dieStep d (doVmov d vx) s)
/-- VADD (R182). -/
def execVadd (d : DieId) (vx : Fin 2) (s : State) : Host.Outcome State Fault Refusal :=
  .next (dieStep d (doVadd d vx) s)
/-- VSUB (R182). -/
def execVsub (d : DieId) (vx : Fin 2) (s : State) : Host.Outcome State Fault Refusal :=
  .next (dieStep d (doVsub d vx) s)
/-- VMUL (R182). -/
def execVmul (d : DieId) (vx : Fin 2) (s : State) : Host.Outcome State Fault Refusal :=
  .next (dieStep d (doVmul d vx) s)
/-- VFMA (R182). -/
def execVfma (d : DieId) (vx : Fin 2) (s : State) : Host.Outcome State Fault Refusal :=
  .next (dieStep d (doVfma d vx) s)
/-- VFNMA (R182). -/
def execVfnma (d : DieId) (vx : Fin 2) (s : State) : Host.Outcome State Fault Refusal :=
  .next (dieStep d (doVfnma d vx) s)
/-- VMIN (R182). -/
def execVmin (d : DieId) (vx : Fin 2) (s : State) : Host.Outcome State Fault Refusal :=
  .next (dieStep d (doVmin d vx) s)
/-- VMAX (R182). -/
def execVmax (d : DieId) (vx : Fin 2) (s : State) : Host.Outcome State Fault Refusal :=
  .next (dieStep d (doVmax d vx) s)
/-- VABS (R182). -/
def execVabs (d : DieId) (vx : Fin 2) (s : State) : Host.Outcome State Fault Refusal :=
  .next (dieStep d (doVabs d vx) s)
/-- VNEG (R182). -/
def execVneg (d : DieId) (vx : Fin 2) (s : State) : Host.Outcome State Fault Refusal :=
  .next (dieStep d (doVneg d vx) s)
/-- VDIV (R182). -/
def execVdiv (d : DieId) (vx : Fin 2) (s : State) : Host.Outcome State Fault Refusal :=
  .next (dieStep d (doVdiv d vx) s)
/-- VSQRT (R182). -/
def execVsqrt (d : DieId) (vx : Fin 2) (s : State) : Host.Outcome State Fault Refusal :=
  .next (dieStep d (doVsqrt d vx) s)
/-- VRSQRT (R182). -/
def execVrsqrt (d : DieId) (vx : Fin 2) (s : State) : Host.Outcome State Fault Refusal :=
  .next (dieStep d (doVrsqrt d vx) s)
/-- VRCP (R182). -/
def execVrcp (d : DieId) (vx : Fin 2) (s : State) : Host.Outcome State Fault Refusal :=
  .next (dieStep d (doVrcp d vx) s)
/-- VEXP (R182). -/
def execVexp (d : DieId) (vx : Fin 2) (s : State) : Host.Outcome State Fault Refusal :=
  .next (dieStep d (doVexp d vx) s)
/-- VLOG (R182). -/
def execVlog (d : DieId) (vx : Fin 2) (s : State) : Host.Outcome State Fault Refusal :=
  .next (dieStep d (doVlog d vx) s)
/-- VTANH (R182). -/
def execVtanh (d : DieId) (vx : Fin 2) (s : State) : Host.Outcome State Fault Refusal :=
  .next (dieStep d (doVtanh d vx) s)
/-- CVTFI (R182). -/
def execCvtfi (d : DieId) (vx : Fin 2) (s : State) : Host.Outcome State Fault Refusal :=
  .next (dieStep d (doCvtfi d vx) s)
/-- CVTIF (R180). -/
def execCvtif (d : DieId) (vx : Fin 2) (s : State) : Host.Outcome State Fault Refusal :=
  .next (dieStep d (doCvtif d vx) s)
/-- IADD (R180). -/
def execIadd (d : DieId) (vx : Fin 2) (s : State) : Host.Outcome State Fault Refusal :=
  .next (dieStep d (doIadd d vx) s)
/-- ISUB (R180). -/
def execIsub (d : DieId) (vx : Fin 2) (s : State) : Host.Outcome State Fault Refusal :=
  .next (dieStep d (doIsub d vx) s)
/-- IMUL (R180). -/
def execImul (d : DieId) (vx : Fin 2) (s : State) : Host.Outcome State Fault Refusal :=
  .next (dieStep d (doImul d vx) s)
/-- IAND (R180). -/
def execIand (d : DieId) (vx : Fin 2) (s : State) : Host.Outcome State Fault Refusal :=
  .next (dieStep d (doIand d vx) s)
/-- IOR (R180). -/
def execIor (d : DieId) (vx : Fin 2) (s : State) : Host.Outcome State Fault Refusal :=
  .next (dieStep d (doIor d vx) s)
/-- IXOR (R180). -/
def execIxor (d : DieId) (vx : Fin 2) (s : State) : Host.Outcome State Fault Refusal :=
  .next (dieStep d (doIxor d vx) s)
/-- ISHL (R180). -/
def execIshl (d : DieId) (vx : Fin 2) (s : State) : Host.Outcome State Fault Refusal :=
  .next (dieStep d (doIshl d vx) s)
/-- ISHR (R180). -/
def execIshr (d : DieId) (vx : Fin 2) (s : State) : Host.Outcome State Fault Refusal :=
  .next (dieStep d (doIshr d vx) s)
/-- CMPEQ (R180). -/
def execCmpeq (d : DieId) (vx : Fin 2) (s : State) : Host.Outcome State Fault Refusal :=
  .next (dieStep d (doCmpeq d vx) s)
/-- CMPNE (R180). -/
def execCmpne (d : DieId) (vx : Fin 2) (s : State) : Host.Outcome State Fault Refusal :=
  .next (dieStep d (doCmpne d vx) s)
/-- CMPLT (R180). -/
def execCmplt (d : DieId) (vx : Fin 2) (s : State) : Host.Outcome State Fault Refusal :=
  .next (dieStep d (doCmplt d vx) s)
/-- CMPLE (R180). -/
def execCmple (d : DieId) (vx : Fin 2) (s : State) : Host.Outcome State Fault Refusal :=
  .next (dieStep d (doCmple d vx) s)
/-- MAND (R180). -/
def execMand (d : DieId) (vx : Fin 2) (s : State) : Host.Outcome State Fault Refusal :=
  .next (dieStep d (doMand d vx) s)
/-- MOR (R180). -/
def execMor (d : DieId) (vx : Fin 2) (s : State) : Host.Outcome State Fault Refusal :=
  .next (dieStep d (doMor d vx) s)
/-- MANDN (R180). -/
def execMandn (d : DieId) (vx : Fin 2) (s : State) : Host.Outcome State Fault Refusal :=
  .next (dieStep d (doMandn d vx) s)
/-- MNOT (R180). -/
def execMnot (d : DieId) (vx : Fin 2) (s : State) : Host.Outcome State Fault Refusal :=
  .next (dieStep d (doMnot d vx) s)
/-- MSET (R180). -/
def execMset (d : DieId) (vx : Fin 2) (s : State) : Host.Outcome State Fault Refusal :=
  .next (dieStep d (doMset d vx) s)
/-- VREDSUM (R183). -/
def execVredsum (d : DieId) (vx : Fin 2) (s : State) : Host.Outcome State Fault Refusal :=
  .next (dieStep d (doVredsum d vx) s)
/-- VREDMAX (R183). -/
def execVredmax (d : DieId) (vx : Fin 2) (s : State) : Host.Outcome State Fault Refusal :=
  .next (dieStep d (doVredmax d vx) s)
/-- COMPRESS (R188). -/
def execCompress (d : DieId) (vx : Fin 2) (s : State) : Host.Outcome State Fault Refusal :=
  .next (dieStep d (doCompress d vx) s)
/-- EXPAND (R188). -/
def execExpand (d : DieId) (vx : Fin 2) (s : State) : Host.Outcome State Fault Refusal :=
  .next (dieStep d (doExpand d vx) s)
/-- VLD (R185). -/
def execVld (d : DieId) (vx : Fin 2) (s : State) : Host.Outcome State Fault Refusal :=
  .next (dieStep d (doVld d vx) s)
/-- VST (R185). -/
def execVst (d : DieId) (vx : Fin 2) (s : State) : Host.Outcome State Fault Refusal :=
  .next (dieStep d (doVst d vx) s)
/-- VSTG (R190). -/
def execVstg (d : DieId) (vx : Fin 2) (s : State) : Host.Outcome State Fault Refusal :=
  .next (dieStep d (doVstg d vx) s)
/-- VSTGX (R190). -/
def execVstgx (d : DieId) (vx : Fin 2) (s : State) : Host.Outcome State Fault Refusal :=
  .next (dieStep d (doVstgx d vx) s)
/-- VLDX (R180). -/
def execVldx (d : DieId) (vx : Fin 2) (s : State) : Host.Outcome State Fault Refusal :=
  .next (dieStep d (doVldx d vx) s)
/-- VSTX (R180). -/
def execVstx (d : DieId) (vx : Fin 2) (s : State) : Host.Outcome State Fault Refusal :=
  .next (dieStep d (doVstx d vx) s)
/-- VSTC (R188). -/
def execVstc (d : DieId) (vx : Fin 2) (s : State) : Host.Outcome State Fault Refusal :=
  .next (dieStep d (doVstc d vx) s)
/-- VLDE (R188). -/
def execVlde (d : DieId) (vx : Fin 2) (s : State) : Host.Outcome State Fault Refusal :=
  .next (dieStep d (doVlde d vx) s)
/-- VLDACC (R189). -/
def execVldacc (d : DieId) (vx : Fin 2) (s : State) : Host.Outcome State Fault Refusal :=
  .next (dieStep d (doVldacc d vx) s)
/-- MLD (R180). -/
def execMld (d : DieId) (vx : Fin 2) (s : State) : Host.Outcome State Fault Refusal :=
  .next (dieStep d (doMld d vx) s)
/-- MST (R230). -/
def execMst (d : DieId) (vx : Fin 2) (s : State) : Host.Outcome State Fault Refusal :=
  .next (dieStep d (doMst d vx) s)
/-- VRAND (R180). -/
def execVrand (d : DieId) (vx : Fin 2) (s : State) : Host.Outcome State Fault Refusal :=
  .next (dieStep d (doVrand d vx) s)

end Sys2Proof.Machine
end

