-- ==== Sys2Proof/Machine/Row.lean ====
section
/-!
DEFINITION. Row.lean: the row engine (R192 to R200) and the shelf (R202 to R205, R209 to R211).
-/
namespace Sys2Proof.Machine

/-! ### The shelf (R202, R203, R205) -/

/-- Entries of the shelf. -/
def shelfSize : Nat := 2097152

/-- The CLASS 6 tensors of a graph, ascending, each with its first entry f and its shelf rows h (R203). -/
def shelfPlaces (s : State) (i : Img) : List (Nat × Nat × Nat) :=
  ((List.range i.tensors).foldl (fun (acc : Nat × List (Nat × Nat × Nat)) n =>
    let t := readTensor s i n
    if t.cls = 6 then
      let h := min (t.dim 0 / 2) (shelfSize - acc.1)
      (acc.1 + h, (n, acc.1, h) :: acc.2)
    else acc) (0, [])).2.reverse

/-- The placement of one tensor: first entry and shelf rows. -/
def shelfPlace (s : State) (i : Img) (n : Nat) : Option (Nat × Nat) :=
  ((shelfPlaces s i).find? fun e => e.1 == n).map Prod.snd

/-- Whether the home of a spilled row lies in the part of the spill window that R205 allows. -/
def spillOk (s : State) (d : DieId) (a : Nat) : Bool :=
  let p := pgSHELF d
  let lo := rd64 s (p + SHELF_SPILL_LO_V.off)
  decide (lo ≤ a) && decide (a + 8 ≤ lo + gf s p SHELF_SPILL_LEN_V * 4096) && regionOf a 8 == some (.cellar d) && !inSteward a 8

/-- Where the statistics of row ρ of a STATS tensor lie: a shelf entry, or a spilled home (R203). -/
def statsHome (s : State) (i : Img) (t : Tensor) (row : Nat) : Sum Nat Nat :=
  match shelfPlace s i t.id with
  | some (f, h) => if row < h then .inl (f + row) else .inr (t.base + 8 * row)
  | none => .inr (t.base + 8 * row)

/-- Writes the statistics of a row (R202, R205). -/
def statsWrite (d : DieId) (i : Img) (t : Tensor) (row : Nat) (w0 w1 : W) (s : State) : State × Nat :=
  let p := pgSHELF d
  match statsHome s i t row with
  | .inl e =>
    (tallyAdd p 0 1 (onDie d (fun x => { x with shelf := sset z64 x.shelf e (BitVec.ofNat 64 (w0.toNat + w1.toNat * 2 ^ 32)) }) s), eOK)
  | .inr a =>
    if spillOk s d a then
      match memWrite (.mover d) a (leBytes 4 w0.toNat ++ leBytes 4 w1.toNat) s with
      | (s1, 0) =>
        let s2 := tallyAdd p 2 1 s1
        if s2.dies[d].spilled then (s2, eOK) else (raise p 0 (onDie d (fun x => { x with spilled := true }) s2), eOK)
      | (s1, c) => (s1, c)
    else (raise p 1 (tallyAdd p 4 1 s), eSPILL_FULL)

/-- Reads the statistics of a row. -/
def statsRead (d : DieId) (i : Img) (t : Tensor) (row : Nat) (s : State) : State × Nat × W × W :=
  let p := pgSHELF d
  match statsHome s i t row with
  | .inl e =>
    let v := sget z64 s.dies[d].shelf e
    (tallyAdd p 1 1 s, eOK, v.setWidth 32, (v >>> 32).setWidth 32)
  | .inr a =>
    if spillOk s d a then
      match memRead (.mover d) a 8 s with
      | (s1, 0, bs) => (tallyAdd p 3 1 s1, eOK, BitVec.ofNat 32 (leNat (bs.take 4)), BitVec.ofNat 32 (leNat (bs.drop 4)))
      | (s1, c, _) => (s1, c, 0, 0)
    else (raise p 1 (tallyAdd p 4 1 s), eSPILL_FULL, 0, 0)

/-! ### Row functions (R195) -/

/-- The terms of lane j of 256, in ascending element order; a masked element is absent. -/
def rowLane {α : Type} (xs : Array (Option α)) (j : Nat) : List α :=
  (List.range (cdiv xs.size 256)).filterMap fun q => (xs.getD (j + 256 * q) none)

/-- row_sum. -/
def rowSum (xs : List (Option W)) : W :=
  let a := xs.toArray
  (treeFold xAdd 8 ((List.range 256).map fun j => (rowLane a j).foldl xAdd 0)).headD 0

/-- row_dot. -/
def rowDot (xs ys : List (Option W)) : W :=
  let a := ((xs.zip ys).map fun e => match e.1, e.2 with | some x, some y => some (x, y) | _, _ => none).toArray
  (treeFold xAdd 8 ((List.range 256).map fun j => (rowLane a j).foldl (fun p e => xFma e.1 e.2 p) 0)).headD 0

/-- row_max: absent when every element is masked. -/
def rowMaxOf (xs : List (Option W)) : Option W :=
  let a := xs.toArray
  (treeFold optMax 8 ((List.range 256).map fun j => (rowLane a j).foldl (fun p x => optMax p (some x)) none)).headD none

/-- A row without masked elements. -/
def whole (xs : List W) : List (Option W) := xs.map some

/-- Element by element over two rows. -/
def rowMap2 (f : W → W → W) (xs ys : List W) : List W := (xs.zip ys).map fun e => f e.1 e.2

/-! ### Row operations on one row (R196 to R199): outputs and statistics -/

/-- LN_FWD of one row: y, mu and rho. -/
def lnFwdRow (eps : W) (x gam bet : List W) : List W × W × W :=
  let n := xOfNat x.length
  let mu := xDiv (rowSum (whole x)) n
  let dv := x.map fun v => xSub v mu
  let rho := xRsqrt (xAdd (xDiv (rowDot (whole dv) (whole dv)) n) eps)
  ((dv.zip (gam.zip bet)).map fun e => xFma (xMul e.1 rho) e.2.1 e.2.2, mu, rho)

/-- LN_BWD of one row: dx, and the terms x̂. -/
def lnBwdRow (mu rho : W) (x dy gam : List W) : List W × List W :=
  let n := xOfNat x.length
  let xh := x.map fun v => xMul (xSub v mu) rho
  let g := rowMap2 xMul dy gam
  let ma := xDiv (rowSum (whole g)) n
  let mb := xDiv (rowDot (whole g) (whole xh)) n
  (rowMap2 (fun h v => xMul (xFma (xNeg h) mb (xSub v ma)) rho) xh g, xh)

/-- RMS_FWD of one row: y and rho. -/
def rmsFwdRow (eps : W) (x gam : List W) : List W × W :=
  let rho := xRsqrt (xAdd (xDiv (rowDot (whole x) (whole x)) (xOfNat x.length)) eps)
  (rowMap2 (fun v g => xMul (xMul v rho) g) x gam, rho)

/-- RMS_BWD of one row: dx, and the terms x̂. -/
def rmsBwdRow (rho : W) (x dy gam : List W) : List W × List W :=
  let xh := x.map fun v => xMul v rho
  let g := rowMap2 xMul dy gam
  let mb := xDiv (rowDot (whole g) (whole xh)) (xOfNat x.length)
  (rowMap2 (fun h v => xMul (xFma (xNeg h) mb v) rho) xh g, xh)

/-- The exponentials of a row and its statistics (m, s), as SMAX_FWD forms them; masked elements are absent. -/
def smaxTerms (scale : W) (x : List (Option W)) : List (Option W) × W × W :=
  let xs := x.map fun o => o.map fun v => xMul v scale
  match rowMaxOf xs with
  | none => (xs, 0, 0)
  | some m =>
    let e := xs.map fun o => o.map fun v => xExp (xSub v m)
    (e, m, rowSum e)

/-- SMAX_FWD of one row: y, m and s. -/
def smaxFwdRow (scale : W) (x : List (Option W)) : List W × W × W :=
  let r := smaxTerms scale x
  (r.1.map fun o => match o with | some e => xDiv e r.2.2 | none => 0, r.2.1, r.2.2)

/-- SMAX_BWD of one row: dx, y being recomputed from x and the statistics. -/
def smaxBwdRow (scale m sm : W) (x dy : List (Option W)) : List W :=
  let y := x.map fun o => o.map fun v => xDiv (xExp (xSub (xMul v scale) m)) sm
  let c := rowDot y dy
  (y.zip dy).map fun e => match e.1, e.2 with
    | some a, some b => xMul (xMul a (xSub b c)) scale
    | _, _ => 0

/-! ### Row tasks -/

/-- The PARAMS of a row-engine task (R193). -/
structure RowP where
  rows : Nat
  org : Nat
  n : Nat
  eps : W
  scale : W
  off : Int
  causal : Bool
  deriving DecidableEq, Repr

/-- R193. -/
def rowP (tk : Task) : RowP :=
  { rows := tk.p 64 4, org := tk.p 68 4, n := tk.p 72 4, eps := tk.px 76, scale := tk.px 80, off := (tk.px 84).toInt
    causal := bit (tk.p 88 1) 0 }

/-- What a row task works with. -/
structure RowCtx where
  d : DieId
  t : Nat
  i : Img
  tk : Task
  p : RowP
  deriving DecidableEq, Repr

/-- The reader and writer of the row engine. -/
def RowCtx.eng (c : RowCtx) : MemReq := .engine c.d

/-- Reads a row of operand `k` as X32, counting non-finite elements (R200) and elements that saturate as they widen (R133). -/
def rowIn (c : RowCtx) (k row n : Nat) (s : State) : State × Nat × List W :=
  let v := operView s c.d c.i c.tk k false
  match readVals (memRead c.eng) v row 0 n s with
  | (s1, 0, vs) =>
    let nf := (vs.filter fun v => !v.isFin).length
    let s2 := tallyQty (pgRE c.d) 6 1024 nf (tallyQty (pgRE c.d) 5 1024 (widenCnt v.fmt vs).sat s1)
    (if 0 < nf then raise (pgRE c.d) 0 s2 else s2, eOK, vs.map (widenElem v.fmt))
  | (s1, e, _) => (s1, e, [])

/-- Reads an optional vector operand, absent elements reading `z`. -/
def rowOpt (c : RowCtx) (k : Nat) (z : W) (s : State) : State × Nat × List W :=
  if c.tk.role k = 0 then (s, eOK, List.replicate c.p.n z) else rowIn c k 0 c.p.n s

/-- Writes X32 words to a row of operand `k` in its format, with the counts of R200 and R244. -/
def rowOut (c : RowCtx) (k row : Nat) (xs : List W) (s : State) : State × Nat :=
  let v := operView s c.d c.i c.tk k true
  match storeX32 c.d c.t (memWrite c.eng) v row 0 xs s with
  | (s1, 0, n) =>
    let p := pgRE c.d
    let s2 := watchWrite c.d c.tk.frame v.t.watch n s1
    if v.fmt = 0 then (s2, eOK) else
    (tallyQty p 8 1024 n.bad (tallyQty p 7 1024 n.zero (tallyQty p 6 1024 n.nonf (tallyQty p 5 1024 n.sat s2))), eOK)
  | (s1, e, _) => (s1, e)

/-- Counts a completed row. -/
def rowDone (d : DieId) (s : State) : State :=
  tallyAdd (pgRE d) 1 1 (sf (pgRE d) RE_ROW_DONE (min (gf s (pgRE d) RE_ROW_DONE + 1) 0xFFFFFF) s)

/-- A row with the elements that CAUSAL masks made absent (R193). -/
def causalRow (p : RowP) (row : Nat) (xs : List W) : List (Option W) :=
  xs.zipIdx.map fun e => if p.causal && decide ((row : Int) + p.off < (e.2 : Nat)) then none else some e.1

/-- Runs `f` on each row of the task in ascending order, carrying `acc`. -/
def rowLoop {α : Type} (c : RowCtx) (f : Nat → α → State → State × Nat × α) : List Nat → α → State → State × Nat × α
  | [], a, s => (s, eOK, a)
  | r :: rs, a, s =>
    match f (c.p.org + r) a s with
    | (s1, 0, a1) => rowLoop c f rs a1 (rowDone c.d s1)
    | (s1, e, a1) => (s1, e, a1)

/-- Sequencing of reads that may fail. -/
def andThen {α β : Type} (x : State × Nat × α) (z : β) (f : α → State → State × Nat × β) : State × Nat × β :=
  match x with
  | (s, 0, a) => f a s
  | (s, c, _) => (s, c, z)

/-- A write that may fail, before what follows it. -/
def andDo {β : Type} (x : State × Nat) (z : β) (f : State → State × Nat × β) : State × Nat × β :=
  match x with
  | (s, 0) => f s
  | (s, c) => (s, c, z)

/-- The STATS tensor of a row task. -/
def statsTensor (s : State) (c : RowCtx) : Tensor := readTensor s c.i (c.tk.tensor 2)

/-- Writes the accumulated dγ or dβ, when the task names it. DEDUCED: a W16 operand is converted once, at the end. -/
def accOut (c : RowCtx) (k : Nat) (xs : List W) (s : State) : State × Nat :=
  if c.tk.role k = 0 then (s, eOK) else rowOut c k 0 xs s

/-- LN_FWD (R196). -/
def lnFwd (c : RowCtx) (s : State) : State × Nat :=
  let r := andThen (rowOpt c 3 xOne s) () fun gam s => andThen (rowOpt c 4 0 s) () fun bet s =>
    rowLoop c (fun row _ s => andThen (rowIn c 0 row c.p.n s) () fun x s =>
      let y := lnFwdRow c.p.eps x gam bet
      andDo (rowOut c 1 row y.1 s) () fun s =>
        andDo (statsWrite c.d c.i (statsTensor s c) row y.2.1 y.2.2 s) () fun s => (s, eOK, ())) (List.range c.p.rows) () s
  (r.1, r.2.1)

/-- LN_BWD (R196). -/
def lnBwd (c : RowCtx) (s : State) : State × Nat :=
  let r := andThen (rowOpt c 3 xOne s) () fun gam s =>
    andThen (rowOpt c 5 0 s) () fun dg0 s => andThen (rowOpt c 6 0 s) () fun db0 s =>
    andThen (rowLoop c (fun row (acc : List W × List W) s =>
      andThen (rowIn c 0 row c.p.n s) acc fun x s => andThen (rowIn c 1 row c.p.n s) acc fun dy s =>
      andThen (statsRead c.d c.i (statsTensor s c) row s) acc fun st s =>
        let y := lnBwdRow st.1 st.2 x dy gam
        andDo (rowOut c 4 row y.1 s) acc fun s =>
          (s, eOK, ((dy.zip (y.2.zip acc.1)).map fun e => xFma e.1 e.2.1 e.2.2, rowMap2 xAdd acc.2 dy)))
      (List.range c.p.rows) (dg0, db0) s) () fun acc s =>
    andDo (accOut c 5 acc.1 s) () fun s => andDo (accOut c 6 acc.2 s) () fun s => (s, eOK, ())
  (r.1, r.2.1)

/-- RMS_FWD (R197). -/
def rmsFwd (c : RowCtx) (s : State) : State × Nat :=
  let r := andThen (rowOpt c 3 xOne s) () fun gam s =>
    rowLoop c (fun row _ s => andThen (rowIn c 0 row c.p.n s) () fun x s =>
      let y := rmsFwdRow c.p.eps x gam
      andDo (rowOut c 1 row y.1 s) () fun s =>
        andDo (statsWrite c.d c.i (statsTensor s c) row 0 y.2 s) () fun s => (s, eOK, ())) (List.range c.p.rows) () s
  (r.1, r.2.1)

/-- RMS_BWD (R197). -/
def rmsBwd (c : RowCtx) (s : State) : State × Nat :=
  let r := andThen (rowOpt c 3 xOne s) () fun gam s => andThen (rowOpt c 5 0 s) () fun dg0 s =>
    andThen (rowLoop c (fun row (acc : List W) s =>
      andThen (rowIn c 0 row c.p.n s) acc fun x s => andThen (rowIn c 1 row c.p.n s) acc fun dy s =>
      andThen (statsRead c.d c.i (statsTensor s c) row s) acc fun st s =>
        let y := rmsBwdRow st.2 x dy gam
        andDo (rowOut c 4 row y.1 s) acc fun s =>
          (s, eOK, (dy.zip (y.2.zip acc)).map fun e => xFma e.1 e.2.1 e.2.2))
      (List.range c.p.rows) dg0 s) () fun acc s => andDo (accOut c 5 acc s) () fun s => (s, eOK, ())
  (r.1, r.2.1)

/-- SMAX_FWD (R198). -/
def smaxFwd (c : RowCtx) (s : State) : State × Nat :=
  let r := rowLoop c (fun row _ s => andThen (rowIn c 0 row c.p.n s) () fun x s =>
    let y := smaxFwdRow c.p.scale (causalRow c.p row x)
    andDo (rowOut c 1 row y.1 s) () fun s =>
      andDo (statsWrite c.d c.i (statsTensor s c) row y.2.1 y.2.2 s) () fun s => (s, eOK, ())) (List.range c.p.rows) () s
  (r.1, r.2.1)

/-- SMAX_BWD (R198). -/
def smaxBwd (c : RowCtx) (s : State) : State × Nat :=
  let r := rowLoop c (fun row _ s => andThen (rowIn c 0 row c.p.n s) () fun x s =>
    andThen (rowIn c 1 row c.p.n s) () fun dy s => andThen (statsRead c.d c.i (statsTensor s c) row s) () fun st s =>
      andDo (rowOut c 3 row (smaxBwdRow c.p.scale st.1 st.2 (causalRow c.p row x) (causalRow c.p row dy)) s) () fun s =>
        (s, eOK, ())) (List.range c.p.rows) () s
  (r.1, r.2.1)

/-- The TARGET of a row: an ignored row, an element index, or the code the task faults with (R199). -/
def lossTarget (n : Nat) (t : W) : Except Nat (Option Nat) :=
  match x32 t with
  | .fin sg m e =>
    if fEq (.fin sg m e) (.fin true 1 0) then .ok none
    else
      let k := fToInt (.fin sg m e)
      if !fEq (ofInt k) (.fin sg m e) then .error eBAD_ENCODING
      else if k < 0 ∨ (n : Int) ≤ k then .error eBAD_INDEX
      else .ok (some k.toNat)
  | _ => .error eBAD_ENCODING

/-- LOSS (R199). DEDUCED: TARGET and LOSS give one element a row, at DIM0 index 0. -/
def loss (c : RowCtx) (s : State) : State × Nat :=
  let w : W := match scalarIn s c.d c.tk 0 with | some v => v.setWidth 32 | none => xOne
  let r := rowLoop c (fun row (acc : W × Nat) s =>
    andThen (rowIn c 0 row c.p.n s) acc fun x s => andThen (rowIn c 1 row 1 s) acc fun tg s =>
    match lossTarget c.p.n (tg.headD 0) with
    | .error e => (s, e, acc)
    | .ok tgt =>
      let y := smaxTerms c.p.scale (whole x)
      let e := y.1.map (·.getD 0)
      andDo (statsWrite c.d c.i (statsTensor s c) row y.2.1 y.2.2 s) acc fun s =>
      match tgt with
      | none =>
        andDo (rowOut c 3 row [0] s) acc fun s =>
        andDo (if c.tk.role 4 = 0 then (s, eOK) else rowOut c 4 row (List.replicate c.p.n 0) s) acc fun s =>
          (tallyAdd (pgRE c.d) 9 1 s, eOK, acc)
      | some k =>
        let l := xSub (xAdd y.2.1 (xLog y.2.2)) (xMul (x.getD k 0) c.p.scale)
        let ws := xMul w c.p.scale
        let dx := e.zipIdx.map fun q => xMul (xSub (xDiv q.1 y.2.2) (if q.2 = k then xOne else 0)) ws
        andDo (rowOut c 3 row [l] s) acc fun s =>
        andDo (if c.tk.role 4 = 0 then (s, eOK) else rowOut c 4 row dx s) acc fun s =>
          (s, eOK, (xAdd acc.1 l, acc.2 + 1)))
    (List.range c.p.rows) ((0 : W), 0) s
  (setSout c.d c.t (BitVec.ofNat 64 (r.2.2.1.toNat + r.2.2.2 % 2 ^ 32 * 2 ^ 32)) r.1, r.2.1)

/-- Issues a row-engine task with the given opcode. -/
def rowIssue (d : DieId) (t opcode : Nat) (f : RowCtx → State → State × Nat) (s : State) : State :=
  issueWith d t 1 (fun tk => tk.unit == 8 && tk.opcode == opcode) (fun _ _ _ => .none)
    (fun i tk s => f ⟨d, t, i, tk, rowP tk⟩ (wr (pgRE d + RE_ROW_DONE.off) 0 s)) s

/-- LN_FWD. -/
def doLnFwd (d : DieId) (t : Nat) (s : State) : State := rowIssue d t 1 lnFwd s
/-- LN_BWD. -/
def doLnBwd (d : DieId) (t : Nat) (s : State) : State := rowIssue d t 2 lnBwd s
/-- RMS_FWD. -/
def doRmsFwd (d : DieId) (t : Nat) (s : State) : State := rowIssue d t 3 rmsFwd s
/-- RMS_BWD. -/
def doRmsBwd (d : DieId) (t : Nat) (s : State) : State := rowIssue d t 4 rmsBwd s
/-- SMAX_FWD. -/
def doSmaxFwd (d : DieId) (t : Nat) (s : State) : State := rowIssue d t 5 smaxFwd s
/-- SMAX_BWD. -/
def doSmaxBwd (d : DieId) (t : Nat) (s : State) : State := rowIssue d t 6 smaxBwd s
/-- LOSS. -/
def doLoss (d : DieId) (t : Nat) (s : State) : State := rowIssue d t 7 loss s

/-! ### Shelf registers (R209 to R211) -/

/-- SHELF_Q and SHELF_Q_ROWS of the queried tensor. -/
def shelfQ (s : State) (d : DieId) : Nat × Nat :=
  match activeImg s d with
  | none => (0, 0)
  | some i =>
    match shelfPlace s i (gf s (pgSHELF d) SHELF_Q_SEL_V) with
    | some (f, h) => (f % 2 ^ 22 + 2 ^ 22, h)
    | none => (0, 0)

/-- The home of the row that a peek names, when it is spilled (R211). -/
def shelfHome (s : State) (d : DieId) : Option Nat :=
  match activeImg s d with
  | none => none
  | some i =>
    let t := readTensor s i (gf s (pgSHELF d) SHELF_PEEK_T_V)
    let row := gf s (pgSHELF d) SHELF_PEEK_ROW_V
    if gf s (pgSHELF d) SHELF_PEEK_T_V < i.tensors ∧ t.cls = 6 ∧ row < t.dim 0 / 2 then
      match statsHome s i t row with
      | .inl _ => none
      | .inr a => some a
    else none

/-- The pair that a peek reads (R211): a spilled row from its home. -/
def shelfPeek (s : State) (d : DieId) : D :=
  match activeImg s d with
  | none => 0
  | some i =>
    let t := readTensor s i (gf s (pgSHELF d) SHELF_PEEK_T_V)
    let row := gf s (pgSHELF d) SHELF_PEEK_ROW_V
    if gf s (pgSHELF d) SHELF_PEEK_T_V < i.tensors ∧ t.cls = 6 ∧ row < t.dim 0 / 2 then
      match statsHome s i t row with
      | .inl e => sget z64 s.dies[d].shelf e
      | .inr a => BitVec.ofNat 64 (memNat s a 8)
    else 0

/-- What activation records of the placement (R203, R209): SHELF_USED and SHELF_SPILLED. -/
def shelfActivate (d : DieId) (i : Img) (s : State) : State :=
  let ps := shelfPlaces s i
  let used := (ps.map fun e => e.2.2).foldl (· + ·) 0
  let rows := (ps.map fun e => (readTensor s i e.1).dim 0 / 2).foldl (· + ·) 0
  wr (pgSHELF d + SHELF_SPILLED_V.off) (BitVec.ofNat 32 (min (rows - used) (2 ^ 32 - 1)))
    (wr (pgSHELF d + SHELF_USED_V.off) (BitVec.ofNat 32 used) s)

/-! ### Meanings of the commands -/

/-- LN_FWD (R196). -/
def execLnFwd (d : DieId) (task : Nat) (s : State) : Host.Outcome State Fault Refusal :=
  .next (dieStep d (doLnFwd d task) s)
/-- LN_BWD (R196). -/
def execLnBwd (d : DieId) (task : Nat) (s : State) : Host.Outcome State Fault Refusal :=
  .next (dieStep d (doLnBwd d task) s)
/-- RMS_FWD (R197). -/
def execRmsFwd (d : DieId) (task : Nat) (s : State) : Host.Outcome State Fault Refusal :=
  .next (dieStep d (doRmsFwd d task) s)
/-- RMS_BWD (R197). -/
def execRmsBwd (d : DieId) (task : Nat) (s : State) : Host.Outcome State Fault Refusal :=
  .next (dieStep d (doRmsBwd d task) s)
/-- SMAX_FWD (R198). -/
def execSmaxFwd (d : DieId) (task : Nat) (s : State) : Host.Outcome State Fault Refusal :=
  .next (dieStep d (doSmaxFwd d task) s)
/-- SMAX_BWD (R198). -/
def execSmaxBwd (d : DieId) (task : Nat) (s : State) : Host.Outcome State Fault Refusal :=
  .next (dieStep d (doSmaxBwd d task) s)
/-- LOSS (R199). -/
def execLoss (d : DieId) (task : Nat) (s : State) : Host.Outcome State Fault Refusal :=
  .next (dieStep d (doLoss d task) s)

end Sys2Proof.Machine
end

