-- ==== Sys2Proof/Machine/Mover.lean ====
section
/-!
DEFINITION. Mover.lean: mover tasks (R220 to R225), line requests and responses between dies (R25, R228), and the loft's events
(R228).
-/
namespace Sys2Proof.Machine

/-- The PARAMS of a mover task (R221). -/
structure MvP where
  rows : Nat
  len : Nat
  srcRow : Nat
  dstRow : Nat
  srcK : Nat
  dstK : Nat
  listOrg : Nat
  deriving DecidableEq, Repr

/-- R221. -/
def mvP (tk : Task) : MvP :=
  { rows := tk.p 64 4, len := tk.p 68 4, srcRow := tk.p 72 4, dstRow := tk.p 76 4, srcK := tk.p 80 4, dstK := tk.p 84 4
    listOrg := tk.p 88 4 }

/-- Records the device address of a failing access (R224). -/
def mvFaultAddr (p a : Nat) (s : State) : State := wr64 (p + MV_FAULT_ADDR_LO_V.off) a s

/-- A mover's reads of one operand: counted, and a failure recorded on its page. -/
def mvReader (d : DieId) (p : Nat) (t : Tensor) : Reader := fun a n s =>
  match moverRead d t.uncached t.stable a n s with
  | (s1, 0, bs) => (tallyQty p 1 256 n s1, eOK, bs)
  | (s1, c, bs) => (mvFaultAddr p a s1, c, bs)

/-- A mover's writes: counted, and a failure recorded on its page. -/
def mvWriter (d : DieId) (p : Nat) : Writer := fun a bs s =>
  match memWrite (.mover d) a bs s with
  | (s1, 0) => (tallyQty p 2 256 bs.length s1, eOK)
  | (s1, c) => (mvFaultAddr p a s1, c)

/-- What a mover task works with. -/
structure MvCtx where
  d : DieId
  t : Nat
  tk : Task
  p : MvP
  src : View
  dst : View
  list : View
  page : Nat
  deriving DecidableEq, Repr

/-- Counts a conversion on the mover's page, and the elements written in the destination's entry (R223, R239, R244). -/
def mvCount (c : MvCtx) (conv : Bool) (n : Cnt) (s : State) : State :=
  let p := c.page
  let s1 := watchWrite c.d c.tk.frame c.dst.t.watch n s
  if !conv then s1 else
  let s2 := tallyQty p 7 1024 n.bad (tallyQty p 6 1024 n.zero (tallyQty p 5 1024 n.nonf (tallyQty p 4 1024 n.sat s1)))
  let s3 := if 0 < n.sat then raise p 0 s2 else s2
  if 0 < n.nonf then raise p 1 s3 else s3

/-- What a copy without conversion counts (R244). -/
def copyCnt (fmt : Nat) (codes : List (Nat × Nat × Nat)) : Cnt :=
  let vs := codes.map fun e => if fmtGrouped fmt then groupVal fmt e.2.2 e.2.1 e.1 else elemVal fmt 0 e.1
  ⟨vs.length, 0, (vs.filter fun v => !v.isFin).length, (vs.filter fun v => fEq v (.fin false 0 0)).length, 0⟩

/-- Copies a row of one ungrouped format, bit for bit (R223). -/
def mvRaw (c : MvCtx) (sr dr : Nat) (s : State) : State × Nat :=
  match readCodes (mvReader c.d c.page c.src.t) c.src sr c.p.srcK c.p.len s with
  | (s1, 0, cs) =>
    match storeCodes c.d c.t (mvWriter c.d c.page) c.dst dr c.p.dstK cs s1 with
    | (s2, 0) => (mvCount c false (copyCnt c.src.fmt (cs.map fun x => (x, 127, 0))) s2, eOK)
    | (s2, e) => (s2, e)
  | (s1, e, _) => (s1, e)

/-- Copies a row of one grouped format with its scales and zero points (R223). -/
def mvGroups (c : MvCtx) (sr dr : Nat) (s : State) : State × Nat :=
  let rdr := mvReader c.d c.page c.src.t
  match readCodes rdr c.src sr c.p.srcK c.p.len s with
  | (s1, 0, cs) =>
    if c.src.fmt = 7 ∧ cs.any (· == 2) then (s1, eBAD_ENCODING) else
    match readScales rdr c.src sr c.p.srcK c.p.len s1 with
    | (s2, 0, sc) =>
      match storeCodes c.d c.t (mvWriter c.d c.page) c.dst dr c.p.dstK cs s2 with
      | (s3, 0) =>
        let gs := (List.range (c.p.len / c.dst.t.g)).map fun g => (g, sc.getD (g * c.dst.t.g) (127, 0))
        match forUntil (fun (e : Nat × Nat × Nat) s => writeScale (mvWriter c.d c.page) c.dst
            (c.dst.group dr (c.p.dstK + e.1 * c.dst.t.g)) e.2.1 e.2.2 s) gs s3 with
        | (s4, 0) =>
          let n := copyCnt c.src.fmt ((cs.zip sc).map fun e => (e.1, e.2.1, e.2.2))
          (mvCount c false { n with bad := (gs.filter fun e => e.2.1 == 0xFF).length } s4, eOK)
        | (s4, e) => (s4, e)
      | (s3, e) => (s3, e)
    | (s2, e, _) => (s2, e)
  | (s1, e, _) => (s1, e)

/-- Decodes a row and converts or encodes it (R223). DEDUCED: a non-finite element counts once, as the conversion to the destination meets it,
or as it widens to an X32 destination. -/
def mvConvert (c : MvCtx) (sr dr : Nat) (s : State) : State × Nat :=
  match readX32 (mvReader c.d c.page c.src.t) c.src sr c.p.srcK c.p.len s with
  | (s1, 0, xs, w) =>
    match storeX32 c.d c.t (mvWriter c.d c.page) c.dst dr c.p.dstK xs s1 with
    | (s2, 0, n) => (mvCount c true { n with sat := n.sat + w.sat } s2, eOK)
    | (s2, e, _) => (s2, e)
  | (s1, e, _, _) => (s1, e)

/-- Whether a row is copied as it stands in a grouped format. -/
def mvSameGroups (c : MvCtx) : Bool :=
  c.src.grouped && c.src.fmt == c.dst.fmt && c.src.t.g == c.dst.t.g && c.src.gaxis == 0 && c.dst.gaxis == 0 &&
    c.p.srcK % c.src.t.g == 0 && c.p.dstK % c.src.t.g == 0 && c.p.len % c.src.t.g == 0

/-- Moves one row (R223). -/
def mvRow (c : MvCtx) (sr dr : Nat) (s : State) : State × Nat :=
  if !c.src.grouped && c.src.fmt == c.dst.fmt then mvRaw c sr dr s
  else if mvSameGroups c then mvGroups c sr dr s
  else mvConvert c sr dr s

/-- List entry `r`, with the address it lies at (R222). -/
def listEntry (c : MvCtx) (r : Nat) (s : State) : State × Nat × Int × Nat :=
  let n := c.list.t.dim 0
  let k := c.p.listOrg + r
  let a := c.list.rowAddr (k / n) + 4 * (k % n)
  match mvReader c.d c.page c.list.t a 4 s with
  | (s1, 0, bs) => (s1, eOK, (BitVec.ofNat 32 (leNat bs)).toInt, a)
  | (s1, e, _) => (s1, e, 0, a)

/-- Counts a completed row in MV_ROW. -/
def mvRowDone (p : Nat) (s : State) : State := sf p MV_ROW_V (min (gf s p MV_ROW_V + 1) 0xFFFFFF) s

/-- One task row: a copied row, or the row a list entry names; −1 skips it (R220, R222). -/
def mvTaskRow (c : MvCtx) (op r : Nat) (s : State) : State × Nat :=
  let go (sr dr : Nat) (s : State) : State × Nat :=
    match mvRow c sr dr s with
    | (s1, 0) => (mvRowDone c.page s1, eOK)
    | (s1, e) => (s1, e)
  if op = 1 then go (c.p.srcRow + r) (c.p.dstRow + r) s else
  match listEntry c r s with
  | (s1, 0, v, a) =>
    let view := if op = 2 then c.src else c.dst
    if v = -1 then (mvRowDone c.page (tallyAdd c.page 8 1 s1), eOK)
    else if v < -1 ∨ (view.t.rows : Int) ≤ v then (mvFaultAddr c.page a s1, eBAD_INDEX)
    else if op = 2 then go v.toNat (c.p.dstRow + r) s1 else go (c.p.srcRow + r) v.toNat s1
  | (s1, e, _, _) => (s1, e)

/-- A mover task's work. -/
def mvWork (d : DieId) (t op : Nat) (i : Img) (tk : Task) (s : State) : State × Nat :=
  let page := pgMVof d (tk.unit - 16)
  let c : MvCtx := ⟨d, t, tk, mvP tk, operView s d i tk 0 false, operView s d i tk 1 true,
    if op = 1 then operView s d i tk 0 false else operView s d i tk 2 false, page⟩
  forUntil (fun r s => mvTaskRow c op r s) (List.range c.p.rows) (wr (page + MV_ROW_V.off) 0 s)

/-- Whether a mover task has an operand on a die to which the stairway holds traffic (R396). -/
def mvHeld (s : State) (d : DieId) (i : Img) (tk : Task) : Bool :=
  decide (16 ≤ tk.unit) && (List.range 3).any fun k =>
    tk.role k != 0 && fabricHeld s d (homeDie (operView s d i tk k (k == 1)).base)

/-- Issues a mover task of the given opcode. A mover accepts a second task once it has issued its last read (R225). A task whose requests
would wait for an edge to train again waits (R396). -/
def mvIssue (d : DieId) (t op : Nat) (s : State) : State :=
  match activeImg s d with
  | none => s
  | some i =>
    if mvHeld s d i (readTask s i t) then s
    else issueWith d t 2 (fun tk => decide (16 ≤ tk.unit) && tk.opcode == op) (fun _ _ _ => .none) (mvWork d t op) s

/-- MV_COPY. -/
def doMvCopy (d : DieId) (t : Nat) (s : State) : State := mvIssue d t 1 s
/-- MV_GATHER. -/
def doMvGather (d : DieId) (t : Nat) (s : State) : State := mvIssue d t 2 s
/-- SCATTER. -/
def doScatter (d : DieId) (t : Nat) (s : State) : State := mvIssue d t 3 s

/-! ### Requests between dies (R25, R228) -/

/-- LINE_REQUEST (R25, R228): a mover of die `src` asks home `d` for bytes, or writes bytes there. The request and its response cross the
stairway as units; while an edge of the route trains again the request waits (R396). A read that may fill stays open in the requester until
LINE_RESPONSE. -/
def doLineRequest (d src : DieId) (addr : Nat) (k : LineKind) (s : State) : State :=
  if !dieLive s src || src == d || homeDie addr != d || fabricHeld s src d then s else
  let ask (s : State) : State :=
    swPost src d kREQ 1 addr (match k with | .read _ _ _ => [] | .write data => data) (emit (.lineRequest d src addr k) s)
  let answer (c : Nat) (bs : List Byte) (s : State) : State := swPost d src kRSP 2 addr bs (emit (.lineResponse src addr c bs) s)
  match k with
  | .read len stable unc =>
    match accessCheck (.mover src) addr len false s with
    | 0 =>
      match readRange (.mover src) addr len s with
      | (s1, c) =>
        let q : LineReq := ⟨addr, stable, unc || isStore addr, false, routeVia s src d⟩
        answer c (if c = 0 then peek s1 addr len else [])
          (ask (if c = 0 ∧ !isStore addr then onDie src (fun x => { x with lineReqs := x.lineReqs ++ [q] }) s1 else s1))
    | c => emits [.lineRequest d src addr k, .lineResponse src addr c []] s
  | .write data =>
    match accessCheck (.mover src) addr data.length true s with
    | 0 => match memWrite (.mover src) addr data s with | (s1, c) => answer c [] (ask s1)
    | c => emits [.lineRequest d src addr k, .lineResponse src addr c []] s

/-- LINE_RESPONSE (R227, R228): a line's data comes back to the die that asked. It fills the loft, unless an event since the
request has invalidated it. -/
def doLineResponse (d : DieId) (addr : Nat) (data : List Byte) (s : State) : State :=
  match s.dies[d].lineReqs.find? fun r => r.addr == addr with
  | none => s
  | some r =>
    let s1 := onDie d (fun x => { x with lineReqs := x.lineReqs.erase r }) s
    if !dieLive s d || r.uncached || gf s (pgLOFT d) LOFT_CFG_ENABLE == 0 || data.length != 256 || addr % 256 != 0 then s1
    else if r.killed then tallyAdd (pgLOFT d) 8 1 s1
    else loftFill d (addr / 256) r.stepStable data s1

/-- LOFT_FLUSH (R228): every line of die `d` is invalidated. -/
def loftFlushAll (d : DieId) (s : State) : State := loftDrop d (fun _ _ => true) (fun _ => true) s

/-- The loft at a tick edge (R228, R236): frame-scoped lines go; at COMMIT, an abandon tick or the end of a re-shard frame,
every line goes. -/
def loftTick (d : DieId) (all : Bool) (s : State) : State :=
  let p := pgLOFT d
  let fs := loftCount s d fun _ l => !l.stepStable
  let s1 := tallyQty p 3 1024 fs s
  let s2 := if all then tallyQty p 4 1024 (loftCount s d fun _ _ => true) s1 else s1
  loftDrop d (fun _ l => all || !l.stepStable) (fun r => all || !r.stepStable) s2

/-- A lost home: its lines go (R228). -/
def loftDropHome (d h : DieId) (s : State) : State :=
  loftDrop d (fun k _ => homeDie (k * 256) == h) (fun r => homeDie r.addr == h) s

/-- The mover's side of a task's completion. -/
def mvComplete (d : DieId) (tk : Task) (s : State) : State := tallyAdd (pgMVof d (tk.unit - 16)) 0 1 s

/-! ### Meanings of the commands -/

/-- MV_COPY (R220). -/
def execMvCopy (d : DieId) (task : Nat) (s : State) : Host.Outcome State Fault Refusal :=
  .next (dieStep d (doMvCopy d task) s)
/-- MV_GATHER (R222). -/
def execMvGather (d : DieId) (task : Nat) (s : State) : Host.Outcome State Fault Refusal :=
  .next (dieStep d (doMvGather d task) s)
/-- SCATTER (R222). -/
def execScatter (d : DieId) (task : Nat) (s : State) : Host.Outcome State Fault Refusal :=
  .next (dieStep d (doScatter d task) s)
/-- LINE_REQUEST (R25). -/
def execLineRequest (d : DieId) (src : DieId) (addr : Nat) (k : LineKind) (s : State) : Host.Outcome State Fault Refusal :=
  .next (dieStep d (doLineRequest d src addr k) s)
/-- LINE_RESPONSE (R228). -/
def execLineResponse (d : DieId) (addr : Nat) (data : List Byte) (s : State) : Host.Outcome State Fault Refusal :=
  .next (dieStep d (doLineResponse d addr data) s)

end Sys2Proof.Machine
end

