-- ==== Sys2Proof/Machine/Update.lean ====
section
/-!
DEFINITION. Update.lean: the update operations (R273 to R280), the version table (R268 to R272) and its events at ticks (R282).
-/
namespace Sys2Proof.Machine

/-- The PARAMS of an update task (R274). -/
structure UpdP where
  rows : Nat
  len : Nat
  base : Nat
  stride : Nat
  key : Nat
  sr : Bool
  decay : Bool
  divTokens : Bool
  lrTable : Bool
  lr : W
  b1 : W
  b2 : W
  eps : W
  lam : W
  dv : W
  deriving DecidableEq, Repr

/-- R274. -/
def updP (tk : Task) : UpdP :=
  let f := tk.p 86 1
  { rows := tk.p 64 4, len := tk.p 68 4, base := tk.p 72 5, stride := tk.p 80 4, key := tk.p 84 2, sr := bit f 0
    decay := bit f 1, divTokens := bit f 2, lrTable := bit f 3, lr := tk.px 88, b1 := tk.px 92, b2 := tk.px 96
    eps := tk.px 100, lam := tk.px 104, dv := tk.px 108 }

/-- t of R276: the optimiser's count of the step. -/
def updT (s : State) (d : DieId) : Int :=
  (s.dies[d].disp.attStep : Int) - (rd64 s (pgUPD d + UPD_T0_LO_V.off) : Nat) + 1

/-- TOKENS of the reduced side bucket, when the die holds one for the step (R277). -/
def bucketTokens (s : State) (d : DieId) : Option Nat := s.dies[d].watch.bucket.map (·.tokens)

/-- R277: t below 1, or DIV_TOKENS without a positive TOKENS. -/
def updBad (s : State) (d : DieId) (tk : Task) : Bool :=
  decide (updT s d < 1) || (updP tk).divTokens && (bucketTokens s d).getD 0 == 0

/-- pow_r (R276); `n` bounds the loop. -/
def powGo : Nat → W → W → Nat → W
  | 0, p, _, _ => p
  | n + 1, p, q, t => if t = 0 then p else powGo n (if t % 2 = 1 then xMul p q else p) (xMul q q) (t / 2)

/-- R276. -/
def powR (b : W) (t : Nat) : W := powGo (t.log2 + 1) xOne b t

/-- The factors an update uses for every element. -/
structure UpdK where
  lr : W
  d : W
  k1 : W
  k2 : W
  deriving DecidableEq, Repr

/-- One element's update (R276): the new master value before storing, m and v. -/
def updElem (adam : Bool) (p : UpdP) (k : UpdK) (g w m v : W) : W × W × W :=
  let gs := xDiv g k.d
  let m1 := if adam then xFma p.b1 m (xMul (xSub xOne p.b1) gs) else xFma p.b1 m gs
  let v1 := if adam then xFma p.b2 v (xMul (xSub xOne p.b2) (xMul gs gs)) else 0
  let s0 := if adam then xDiv (xMul m1 k.k1) (xAdd (xSqrt (xMul v1 k.k2)) p.eps) else m1
  let s1 := if p.decay then xFma p.lam w s0 else s0
  (xFma (xNeg k.lr) s1 w, m1, v1)

/-- Stochastic rounding of one X32 word into a master of format `fmt` (R280): the code, its counts, and whether the element
moved and whether its low part was non-zero. -/
def stochastic (fmt : Nat) (u x : W) : Nat × Cnt × Bool × Bool :=
  if (x32 x).isFin then
    let f := if fmt = 2 then 16 else 8
    let mag := x.toNat % 2 ^ 31
    let low := mag % 2 ^ f
    let up := decide (2 ^ f ≤ low + u.toNat / 2 ^ (32 - f))
    let mag1 := mag - low + (if up then 2 ^ f else 0)
    let sat := decide (0x7F800000 ≤ mag1)
    let mag2 := if sat then 0x7F800000 - 2 ^ f else mag1
    (((x.toNat / 2 ^ 31) * 2 ^ 31 + mag2) / 2 ^ f, ⟨1, b2n sat, 0, b2n (mag2 == 0), 0⟩, up, low != 0)
  else
    let r := convertElem fmt x
    (r.1, r.2, false, false)

/-- Counts of stochastic rounding on the UPD page (R288). -/
def countSr (d : DieId) (rs : List (Nat × Cnt × Bool × Bool)) (s : State) : State :=
  tallyQty (pgUPD d) 3 1048576 (rs.filter fun r => !r.2.2.1 && r.2.2.2).length
    (tallyQty (pgUPD d) 2 1048576 (rs.filter fun r => r.2.2.1).length s)

/-- Items in ascending order of an address, equal ones as they stand. -/
def byAddr (addr : Nat → Nat) (xs : List Nat) : List Nat :=
  xs.foldl (fun ys x => ys.takeWhile (fun y => decide (addr y ≤ addr x)) ++ x :: ys.dropWhile fun y => decide (addr y ≤ addr x)) []

/-- One row of an update task: the tiles are read, each widening counted, and written in ascending address (R351). -/
def updRow (d : DieId) (x : Fin 2) (t : Nat) (i : Img) (tk : Task) (adam : Bool) (p : UpdP) (k : UpdK) (r : Nat) (s : State) :
    State × Nat :=
  let rdr : Reader := memRead (.engine d)
  let row (o : Nat) (s : State) : State × Nat × List W :=
    match readX32 rdr (operView s d i tk o false) r 0 p.len s with
    | (s1, 0, xs, c) => (countConv d x c s1, eOK, xs)
    | (s1, c, _, _) => (s1, c, [])
  let out := andThen (row 0 s) () fun g s => andThen (row 1 s) () fun w s => andThen (row 2 s) () fun m s =>
    andThen (if adam then row 3 s else (s, eOK, List.replicate p.len (0 : W))) () fun v s =>
      let e := (g.zip (w.zip (m.zip v))).map fun q => updElem adam p k q.1 q.2.1 q.2.2.1 q.2.2.2
      let vw := operView s d i tk 1 true
      let master (s : State) : State × Nat :=
        if p.sr then
          let step := BitVec.ofNat 64 s.dies[d].disp.attStep
          let seed := BitVec.ofNat 64 (rd64 s (pgUPD d + UPD_SEED_LO_V.off))
          let rs := e.zipIdx.map fun q => stochastic vw.fmt (gen seed step p.key (p.base + r * p.stride + q.2)) q.1.1
          match storeCodes d t (memWrite (.engine d)) vw r 0 (rs.map Prod.fst) s with
          | (s1, 0) => (countSr d rs (countStore d x t vw true ((rs.map fun q => q.2.1).foldl Cnt.add Cnt.none) s1), eOK)
          | (s1, c) => (s1, c)
        else
          match storeX32 d t (memWrite (.engine d)) vw r 0 (e.map Prod.fst) s with
          | (s1, 0, c) => (countStore d x t vw true c s1, eOK)
          | (s1, c, _) => (s1, c)
      let put (o : Nat) (xs : List W) (s : State) : State × Nat :=
        let v := operView s d i tk o true
        match storeX32 d t (memWrite (.engine d)) v r 0 xs s with
        | (s1, 0, c) => (countStore d x t v true c s1, eOK)
        | (s1, c, _) => (s1, c)
      let store (o : Nat) (s : State) : State × Nat :=
        if o = 1 then master s else put o (e.map fun q => if o = 2 then q.2.1 else q.2.2) s
      let addr (o : Nat) : Nat := (operView s d i tk o true).rowAddr r
      andDo (forUntil store (byAddr addr (if adam then [1, 2, 3] else [1, 2])) s) () fun s =>
        (tallyQty (pgUPD d) 1 1048576 p.len s, eOK, ())
  (out.1, out.2.1)

/-- An update task's work (R276). -/
def updWork (d : DieId) (t : Nat) (adam : Bool) (i : Img) (tk : Task) (s : State) : State × Nat :=
  let p := updP tk
  let x : Fin 2 := if tk.unit = 6 then 0 else 1
  let n := (updT s d).toNat
  let lr : State × Nat × List W :=
    if p.lrTable then
      let v := operView s d i tk 4 false
      let r := readX32 (memRead (.engine d)) v 0 (min n (v.t.dim 0) - 1) 1 s
      (r.1, r.2.1, r.2.2.1)
    else (s, eOK, [p.lr])
  match lr with
  | (s1, 0, ls) =>
    let k : UpdK :=
      { lr := ls.headD 0, d := if p.divTokens then xOfNat ((bucketTokens s d).getD 0) else p.dv
        k1 := xDiv xOne (xSub xOne (powR p.b1 n)), k2 := xDiv xOne (xSub xOne (powR p.b2 n)) }
    forUntil (updRow d x t i tk adam p k) (List.range p.rows) s1
  | (s1, c, _) => (s1, c)

/-- Issues an update task. -/
def updIssue (d : DieId) (t : Nat) (adam : Bool) (s : State) : State :=
  issueWith d t 1 (fun tk => (tk.unit == 6 || tk.unit == 7) && tk.opcode == (if adam then 0x101 else 0x100))
    (fun s _ tk => ⟨false, updBad s d tk, false⟩) (updWork d t adam) s

/-- MOM. -/
def doMom (d : DieId) (t : Nat) (s : State) : State := updIssue d t false s
/-- ADAM. -/
def doAdam (d : DieId) (t : Nat) (s : State) : State := updIssue d t true s

/-! ### The version table (R268 to R272, R286) -/

/-- Weights of an image, ascending. -/
def weightIds (s : State) (i : Img) : List Nat := (List.range i.tensors).filter fun n => (readTensor s i n).cls == 1

/-- Every entry of the version table becomes `f` of itself. -/
def mapEntries (d : DieId) (ids : List Nat) (f : VEntry → VEntry) (s : State) : State :=
  forEach (fun k s => onDie d (fun x => { x with vtab := sset zv x.vtab k (f (sget zv x.vtab k)) }) s) ids s

/-- The flip of a tick with COMMIT (R269): the entries flipped are counted; `step` is the step committed. -/
def flipEntries (d : DieId) (step : Nat) (s : State) : State :=
  let n := (s.dies[d].vtab.filter fun e => e.2.pending).length
  let s1 := onDie d (fun x => { x with vtab := (x.vtab.foldl (fun m e =>
    if e.2.pending then sset zv m e.1 { e.2 with cur := !e.2.cur, pending := false, reshard := false, version := step + 1 } else m)
    x.vtab) }) s
  sf (pgUPD d) UPD_COUNTS_FLIPPED n (tallyAdd (pgUPD d) 4 n s1)

/-- An abandon tick, or any tick that discards them, makes every PENDING entry CLEAN (R269). -/
def dropPending (d : DieId) (s : State) : State :=
  mapEntries d (s.dies[d].vtab.map (·.1)) (fun e => { e with pending := false, reshard := false }) s

/-- The version table taken over at activation (R271): a weight of the old image with the same BASE and VSPAN hands on its
entry. -/
def takeOver (d : DieId) (old : Option Img) (new : Img) (s : State) : State :=
  let was (k : Nat) : VEntry :=
    match old with
    | none => zv 0
    | some o =>
      let t := readTensor s new k
      match (weightIds s o).find? fun j => let u := readTensor s o j; u.base == t.base && u.vspan == t.vspan with
      | some j => ventry s d j
      | none => zv 0
  onDie d (fun x => { x with vtab := (weightIds s new).foldl (fun m k => sset zv m k (was k)) [] }) s

/-- UPD_VALID (R272, R287): the table becomes valid. -/
def updSetValid (d : DieId) (s : State) : State := sf (pgUPD d) UPD_VCTL_VALID 1 s

/-- UPD_INIT (R272, R287): every entry CUR 0, PENDING 0, VERSION 0, and VALID. -/
def updInitTable (d : DieId) (s : State) : State := updSetValid d (onDie d (fun x => { x with vtab := [] }) s)

/-- UPD_FORGET (R272, R287): VALID becomes 0. -/
def updForgetTable (d : DieId) (s : State) : State := sf (pgUPD d) UPD_VCTL_VALID 0 s

/-- The engine's side of an update task's completion. -/
def updComplete (d : DieId) (tk : Task) (s : State) : State := tallyAdd (pgUPD d) 0 1 (vxComplete d tk s)

/-! ### Meanings of the commands -/

/-- MOM (R276). -/
def execMom (d : DieId) (task : Nat) (s : State) : Host.Outcome State Fault Refusal :=
  .next (dieStep d (doMom d task) s)
/-- ADAM (R276). -/
def execAdam (d : DieId) (task : Nat) (s : State) : Host.Outcome State Fault Refusal :=
  .next (dieStep d (doAdam d task) s)

end Sys2Proof.Machine
end

