-- ==== Sys2Proof/Machine/Queue.lean ====
section
/-!
DEFINITION. Queue.lean: the queues (R418 to R424, R431 to R433): their counts, gap markers, feed rings in cellars, the FEED
task, and what ticks do to feed queues (R283).
-/
namespace Sys2Proof.Machine

/-- PROD, RD, MARK and REL of queue `q` (R419). -/
def qProd (s : State) (q : Nat) : Nat := rd64 s (pgQ q + Q_PROD_LO_V.off)
/-- R419. -/ def qRd (s : State) (q : Nat) : Nat := rd64 s (pgQ q + Q_RD_LO_V.off)
/-- R419. -/ def qMark (s : State) (q : Nat) : Nat := rd64 s (pgQ q + Q_MARK_LO_V.off)
/-- R419. -/ def qRel (s : State) (q : Nat) : Nat := rd64 s (pgQ q + Q_REL_LO_V.off)

/-- Sets a count. -/
def setProd (q v : Nat) (s : State) : State := wr64 (pgQ q + Q_PROD_LO_V.off) v s
/-- Sets MARK. -/
def setMark (q v : Nat) (s : State) : State := wr64 (pgQ q + Q_MARK_LO_V.off) v s
/-- Sets RD; the queue may interrupt again once RD changes (R424). -/
def setRd (q v : Nat) (s : State) : State :=
  let s1 := wr64 (pgQ q + Q_RD_LO_V.off) v s
  if v = qRd s q then s1 else onQueue q (fun k => { k with irqSent := false }) s1

/-- Whether a queue is a feed queue (R418). -/
def isFeed (q : Nat) : Bool := decide (8 ≤ q) && decide (q < 16)

/-- Home die of a feed queue. -/
def feedHome (s : State) (q : Nat) : DieId := ⟨gf s (pgQ q) Q_CFG_HOME % 4, Nat.mod_lt _ (by decide)⟩

/-- Bytes of a feed slot, and the address of slot `n` (R431). -/
def feedSlotSize (s : State) (q : Nat) : Nat := 4096 * 2 ^ gf s (pgQ q) Q_CFG_SLOT
/-- R431. -/
def feedAddr (s : State) (q n : Nat) : Nat :=
  rd64 s (pgQ q + Q_BASE_LO_V.off) + n % max 1 (gf s (pgQ q) Q_CFG_SIZE) * feedSlotSize s q

/-- A slot header (R431). -/
def feedHeader (type len tag dropped ts : Nat) : List Byte :=
  leBytes 4 type ++ leBytes 4 len ++ leBytes 8 tag ++ leBytes 8 dropped ++ leBytes 8 ts ++ leBytes 32 0

/-- Writes one slot, payload first and header last, and advances PROD (R431). -/
def feedPut (q type tag dropped : Nat) (payload : List Byte) (s : State) : State × Nat :=
  let a := feedAddr s q (qProd s q)
  match memWrite .steward (a + 64) payload s with
  | (s1, 0) =>
    match memWrite .steward a (feedHeader type payload.length tag dropped (timeStamp s 4)) s1 with
    | (s2, 0) => (tallyAdd (pgQ q) 0 1 (setProd q (qProd s2 q + 1) s2), eOK)
    | (s2, c) => (s2, c)
  | (s1, c) => (s1, c)

/-- Writes the pending gap marker of a feed queue (R420). -/
def feedGap (q : Nat) (s : State) : State :=
  match feedPut q 2 0 (qDrops s q) [] s with
  | (s1, 0) => raise (pgQ q) 0 (tallyAdd (pgQ q) 2 1 (onQueue q (fun k => { k with drops := 0 }) s1))
  | (s1, _) => s1

/-- Places an item in a feed queue under R420: OK, QUEUE_FULL for a dropped item, or the code of a failing write. -/
def feedItem (q tag : Nat) (payload : List Byte) (s : State) : State × Nat :=
  let s1 := if 0 < qDrops s q ∧ 2 ≤ qFree s q then feedGap q s else s
  if qDrops s1 q = 0 ∧ 2 ≤ qFree s1 q then feedPut q 1 tag 0 payload s1
  else (tallyAdd (pgQ q) 1 1 (onQueue q (fun k => { k with drops := min (k.drops + 1) (2 ^ 32 - 1) }) s1), eQUEUE_FULL)

/-- After a release, the pending gap marker is written when a slot is free (R420). -/
def gapOnRelease (q : Nat) (s : State) : State :=
  if isFeed q then (if 0 < qDrops s q ∧ 1 ≤ qFree s q then feedGap q s else s) else qGapOnRelease q s

/-- REL := v and MARK := max(MARK, v) (R422). -/
def releaseTo (q v : Nat) (s : State) : State :=
  let n := v - qRel s q
  let s1 := setMark q (max (qMark s q) v) (wr64 (pgQ q + Q_REL_LO_V.off) v s)
  if n = 0 then s1 else gapOnRelease q (tallyAdd (pgQ q) 5 n s1)

/-- MARK := RD (R422). -/
def markQueue (q : Nat) (s : State) : State := setMark q (qRd s q) s

/-- RD := MARK (R422). -/
def rewindQueue (q : Nat) (s : State) : State := tallyAdd (pgQ q) 4 1 (setRd q (qMark s q) s)

/-- TRUNCATE of a feed queue (R433): PROD := RD, and the pending drops are discarded. -/
def truncateQueue (q : Nat) (s : State) : State :=
  onQueue q (fun k => { k with drops := 0 }) (setProd q (qRd s q) s)

/-- A doorbell of `n` on a queue the host consumes (R422): RD and REL advance together. -/
def doorbellConsume (q n : Nat) (s : State) : State :=
  releaseTo q (qRel s q + n) (setRd q (qRd s q + n) s)

/-- An EN that goes from 0 to 1 clears the four counts of a queue other than a feed queue (R419). -/
def clearCounts (q : Nat) (s : State) : State :=
  setProd q 0 (setMark q 0 (wr64 (pgQ q + Q_REL_LO_V.off) 0 (setRd q 0 s)))

/-! ### Feed queues at ticks (R283) -/

/-- Feed queues homed on die `d`. -/
def feedsOf (s : State) (d : DieId) : List Nat := [8, 9, 10, 11, 12, 13, 14, 15].filter fun q => feedHome s q == d

/-- Releases every feed queue of the die up to its read position. -/
def feedRelease (d : DieId) (s : State) : State := forEach (fun q s => releaseTo q (qRd s q) s) (feedsOf s d) s
/-- Marks every feed queue of the die. -/
def feedMark (d : DieId) (s : State) : State := forEach markQueue (feedsOf s d) s
/-- Rewinds every feed queue of the die. -/
def feedRewind (d : DieId) (s : State) : State := forEach rewindQueue (feedsOf s d) s

/-! ### The FEED task (R432, R433) -/

/-- Whether entry `n` of a feed queue is a gap marker. -/
def feedIsGap (s : State) (q n : Nat) : Bool := memNat s (feedAddr s q n) 1 == 2

/-- Whether a FEED task holds its unit back: too few entries from RD, and no gap marker among them. -/
def feedHeld (s : State) (q items : Nat) : Bool :=
  let n := qProd s q - qRd s q
  decide (n < items) && !((List.range n).any fun k => feedIsGap s q (qRd s q + k))

/-- Whether a gap marker stands among the entries a FEED task would take. -/
def feedGapAhead (s : State) (q items : Nat) : Bool :=
  (List.range (min items (qProd s q - qRd s q))).any fun k => feedIsGap s q (qRd s q + k)

/-- Copies item `n` of a feed queue to `a`, zero-filled up to `stride`; answers its LEN. -/
def feedCopy (d : DieId) (t : Nat) (v : View) (q n a stride : Nat) (s : State) : State × Nat × Nat :=
  match memRead (.cc d) (feedAddr s q n) 64 s with
  | (s1, 0, h) =>
    let len := leNat ((h.drop 4).take 4)
    if stride < len then (s1, eBAD_INDEX, 0) else
    match memRead (.cc d) (feedAddr s q n + 64) len s1 with
    | (s2, 0, bs) =>
      match memWrite (.cc d) a (bs ++ leBytes (stride - len) 0) s2 with
      | (s3, 0) => (crcFeed d t v a stride s3, eOK, len)
      | (s3, c) => (s3, c, 0)
    | (s2, c, _) => (s2, c, 0)
  | (s1, c, _) => (s1, c, 0)

/-- A FEED task's work: it takes its items and copies them; its scalar output is the sum of their lengths. -/
def feedWork (d : DieId) (t : Nat) (i : Img) (tk : Task) (s : State) : State × Nat :=
  let q := 8 + tk.p 64 1 % 8
  let items := tk.p 68 4
  let stride := tk.p 72 4
  let v := operView s d i tk 0 true
  let rd0 := qRd s q
  let s1 := setRd q (rd0 + items) s
  let r := (List.range items).foldl (fun (acc : State × Nat × Nat) k =>
    if acc.2.1 = 0 then
      let x := feedCopy d t v q (rd0 + k) (v.base + tk.p 76 4 + k * stride) stride acc.1
      (x.1, x.2.1, acc.2.2 + x.2.2)
    else acc) (s1, eOK, 0)
  (setSout d t (BitVec.ofNat 64 r.2.2) r.1, r.2.1)

/-- FEED (R432): a FEED task issues on the control core. -/
def doFeed (d : DieId) (t : Nat) (s : State) : State :=
  issueWith d t 1
    (fun tk => tk.unit == 10 && tk.opcode == 0x20 && !feedHeld s (8 + tk.p 64 1 % 8) (tk.p 68 4))
    (fun s _ tk =>
      let q := 8 + tk.p 64 1 % 8
      ⟨gf s (pgQ q) Q_CTRL_EN == 0 || feedHome s q != d, false, feedGapAhead s q (tk.p 68 4)⟩)
    (feedWork d t) s

/-! ### Meanings of the commands -/

/-- FEED (R432). -/
def execFeed (d : DieId) (task : Nat) (s : State) : Host.Outcome State Fault Refusal :=
  .next (dieStep d (doFeed d task) s)

end Sys2Proof.Machine
end

