-- ==== Sys2Proof/Machine/Link.lean ====
section
/-!
DEFINITION. Link.lean: the link ports (R289 to R319): flits, sequence numbers, replay, credits and arbitration, training,
port failure and failover, and the routing of messages.
-/
namespace Sys2Proof.Machine

/-! ### Flits (R292) -/

/-- A list of bytes padded with zeros to `n` bytes, or cut to them. -/
def padTo (n : Nat) (bs : List Byte) : List Byte := (bs ++ List.replicate n 0).take n

/-- The 28 trailer bytes before the CRC. -/
def Flit.trailer (f : Flit) : List Byte :=
  leBytes 2 f.seq ++ leBytes 2 f.ack ++
  leBytes 1 (f.cls % 4 + b2n f.null * 4 + b2n f.nak * 8 + b2n f.first * 16 + b2n f.last * 32) ++
  leBytes 1 (f.hops % 16 + f.kind % 8 * 16) ++ (padTo 4 (f.cred.map fun c => BitVec.ofNat 8 c)) ++
  leBytes 2 f.slice ++ leBytes 2 (f.dst % 4096) ++ leBytes 2 (f.src % 4096) ++ leBytes 2 f.flow ++ leBytes 2 f.epoch ++
  leBytes 2 f.pgen ++ leBytes 2 f.oseq ++ leBytes 1 (b2n f.fo + f.orig % 16 * 2) ++ [0, 0, 0]

/-- The 288 bytes of a flit. -/
def Flit.bytes (f : Flit) : List Byte :=
  let b := padTo 256 f.payload ++ f.trailer
  b ++ leBytes 4 (crc32c b).toNat

/-- Bytes `lo` to `lo + n - 1` as a number. -/
def field (bs : List Byte) (lo n : Nat) : Nat := leNat ((bs.drop lo).take n)

/-- The fields of 288 bytes. -/
def readFlit (bs : List Byte) : Flit :=
  let t := bs.drop 256
  let fl := field t 4 1
  let fo := field t 24 1
  { payload := bs.take 256, seq := field t 0 2, ack := field t 2 2, cls := fl % 4, null := bit fl 2, nak := bit fl 3
    first := bit fl 4, last := bit fl 5, hops := field t 5 1 % 16, kind := field t 5 1 / 16 % 8
    cred := ((t.drop 6).take 4).map (·.toNat), slice := field t 10 2, dst := field t 12 2 % 4096
    src := field t 14 2 % 4096, flow := field t 16 2, epoch := field t 18 2, pgen := field t 20 2, oseq := field t 22 2
    fo := bit fo 0, orig := fo / 2 % 16, use := .other }

/-- Whether the CRC of 288 bytes is right. -/
def flitCrcOk (bs : List Byte) : Bool := bs.length == 288 && field bs 284 4 == (crc32c (bs.take 284)).toNat

/-- Whether a flit is well formed (R293): reserved bits zero, a known KIND, and a CLASS that R296 allows the KIND. -/
def flitFormOk (bs : List Byte) : Bool :=
  let f := readFlit bs
  let t := bs.drop 256
  field t 4 1 < 64 && field t 5 1 < 128 && field t 12 2 < 4096 && field t 14 2 < 4096 && field t 24 1 < 32 &&
    field t 25 3 == 0 && decide (f.kind ≤ 3) && (!(f.kind == 1 || f.kind == 2) || f.cls == 0) && (f.kind != 3 || f.null)

/-! ### Ports -/

/-- Training state of a port (R318). -/
def portState (s : State) (p : PortId) : Nat := gf s (pgLPof p) LP_STATE_STATE

/-- An ACTIVE port; a port on a lost or absent die is not ACTIVE (R311). -/
def portActive (s : State) (p : PortId) : Bool := dieLive s (portDie p) && portState s p == 5

/-- The package's member index as die `d` holds it. -/
def ownMember (s : State) (d : DieId) : Nat := gf s (pgLP d) LS_SLICE_MEMBER

/-- Receive buffer of a class (R296). -/
def classBuf (c : Nat) : Nat := match c with | 0 => 16 | 1 => 64 | 2 => 96 | _ => 256

/-- Ports in ascending order. -/
def allPorts : List PortId := List.finRange 16

/-- What the flits of a message are part of: an export stream names its die in its header, and a message of the collective engine starts
with the header of R341. -/
def flitUse (m : LinkMsg) : FlitUse :=
  if m.kind ≠ 0 then .other
  else if m.cls = 1 then .stream (field m.payload 12 1 % 4)
  else if m.cls = 3 then
    .ce ⟨field m.payload 0 1, field m.payload 4 8, field m.payload 12 2 % 4096, field m.payload 14 2, m.src,
      field m.payload 2 1 / 16 % 4, field m.payload 16 4⟩
  else .other

/-- The flits of a message (R295). -/
def msgFlits (m : LinkMsg) : List Flit :=
  let n := max 1 (cdiv m.payload.length 256)
  (List.range n).map fun i =>
    { payload := padTo 256 ((m.payload.drop (256 * i)).take 256), seq := 0, ack := 0, cls := m.cls, null := false
      nak := false, first := i == 0, last := i + 1 == n, hops := m.hops, kind := m.kind, cred := [0, 0, 0, 0]
      slice := m.slice, dst := m.dst, src := m.src, flow := m.flow, epoch := m.epoch, pgen := m.pgen, oseq := 0
      fo := false, orig := 0, use := flitUse m }

/-- Flits of the message at the head of a queue, its LAST flit included. -/
def headLen : List Flit → Nat
  | [] => 0
  | f :: fs => if f.last then 1 else 1 + headLen fs

/-- Whether the head flit of class `c` may leave (R297, R299). -/
def canSend (x : Port) (c : Nat) : Bool :=
  match x.txq.toList.getD c [] with
  | [] => false
  | f :: fs =>
    decide (x.replay.length < 227) && decide ((if f.first then headLen (f :: fs) else 1) ≤ x.credits.toList.getD c 0)

/-- The class whose flit leaves next (R298): class 0 first, then the round robin from the class whose turn it is. -/
def nextClass (x : Port) : Option Nat :=
  if canSend x 0 then some 0
  else
    let order := (List.range 4).map fun i => (x.arbCls - 1 + i) % 3 + 1
    (if x.arbLeft = 0 then order.drop 1 else order.take 3).find? (canSend x)

/-- The control fields a port puts into a flit it sends now: ACK and the credits freed since the last return. -/
def stamped (x : Port) (f : Flit) : Flit :=
  { f with seq := x.txSeq, ack := (x.rxNext + 65535) % 65536, cred := x.freed.toList.map (min 255) }

/-- A port that has returned its freed credits. -/
def Port.returned (x : Port) : Port := { x with freed := x.freed.map fun c => c - min 255 c }

/-- Weight of a class (R318). -/
def arbWeight (s : State) (p : PortId) (c : Nat) : Nat :=
  match c with
  | 1 => gf s (pgLPof p) LP_ARB_W1
  | 2 => gf s (pgLPof p) LP_ARB_W2
  | _ => gf s (pgLPof p) LP_ARB_W3

/-- Sends one flit of class `c`. -/
def sendOne (p : PortId) (c : Nat) (s : State) : State :=
  let x := s.ports[p]
  match x.txq.toList.getD c [] with
  | [] => s
  | f :: fs =>
    let g := stamped x f
    let w := arbWeight s p c
    let x1 : Port := { x.returned with
      txSeq := (x.txSeq + 1) % 65536, txq := x.txq.setIfInBounds c fs, credits := x.credits.setIfInBounds c (x.credits.toList.getD c 0 - 1)
      replay := x.replay ++ [⟨g, s.time⟩]
      arbCls := if c = 0 then x.arbCls else c
      arbLeft := if c = 0 then x.arbLeft else if c = x.arbCls && decide (0 < x.arbLeft) then x.arbLeft - 1 else w - 1 }
    tallyQty (pgLPof p) 0 1024 1 (emit (.flit p g.bytes) (onPort p (fun _ => x1) s))

/-- Sends flits while one may leave. -/
def pumpN (p : PortId) : Nat → State → State
  | 0, s => s
  | n + 1, s =>
    match nextClass s.ports[p] with
    | some c => pumpN p n (sendOne p c s)
    | none => s

/-- Sends what an ACTIVE port can send. -/
def pump (p : PortId) (s : State) : State :=
  if portActive s p then pumpN p ((s.ports[p].txq.toList.map List.length).foldl (· + ·) 0) s else s

/-- The package's tick die as die `d` holds it (R78). -/
def tickDie (s : State) (d : DieId) : DieId := ⟨gf s (pgTICK d) TICK_CFG_TICK_DIE % 4, Nat.mod_lt _ (by decide)⟩

/-- The tick die of the package, when it is live (R78). -/
def pkgTickDie (s : State) : Option DieId :=
  match liveDies s with
  | [] => none
  | d :: _ => if dieLive s (tickDie s d) then some (tickDie s d) else none

/-- The twin port (R367). -/
def twinPort (s : State) (d : DieId) : PortId := ⟨gf s (pgJRNL d) JRNL_TWIN_PORT % 16, Nat.mod_lt _ (by decide)⟩

/-- Whether the twin port meets R367. -/
def twinPortOk (s : State) (d : DieId) : Bool :=
  let p := twinPort s d
  let pg := pgLPof p
  portActive s p && gf s pg LP_PEER_MEMBER == ownMember s d && gf s pg LP_PEER_SLICE == gf s (pgJRNL d) JRNL_TWIN_SLICE &&
    gf s pg LP_EXPECT_CHECK == 0 &&
    (liveDies s).all fun h =>
      !(s.dies[h].rt.any fun e => decide (e.1 < 4096) && (bit e.2.toNat p.val || bit e.2.toNat (16 + p.val))) &&
        !(gf s (pgTICK h) TICK_PARENT_PARENT_PORT == p.val && gf s (pgTICK h) TICK_CFG_IS_MASTER == 0) &&
        !bit (gf s (pgTICK h) TICK_CHILDREN_CHILD_PORTS) p.val

/-- Whether twin comparison runs on the package's tick die (R360). -/
def twinOn (s : State) (d : DieId) : Bool := gf s (pgJRNL d) JRNL_TWIN_EN == 1 && !replaying s d

/-- The payload of the twin's null flits (R368). -/
def twinPayload (s : State) (d : DieId) (x : TwinDig) : List Byte :=
  padTo 256 (leBytes 8 1 ++ leBytes 8 x.step ++ padTo 16 x.pkg ++ leBytes 8 x.e.toNat ++
    leBytes 2 (gf s (pgLP d) LS_SLICE_SLICE_ID) ++ leBytes 2 (ownMember s d))

/-- What a null flit of port `p` carries beside its control fields: on the twin port the digest of the last commit frame (R368). -/
def nullPayload (s : State) (p : PortId) : List Byte :=
  match pkgTickDie s with
  | none => []
  | some d =>
    if twinOn s d && twinPort s d == p && twinPortOk s d then ((s.dies[d].jrnl.own.map (twinPayload s d)).getD []) else []

/-- A null flit (R294): the port's ACK and credits, and the payload of R368 on the twin port. -/
def sendNull (p : PortId) (nak : Bool) (s : State) : State :=
  let x := s.ports[p]
  let f : Flit :=
    { payload := padTo 256 (nullPayload s p), seq := 0, ack := 0, cls := 0, null := true, nak := nak, first := false, last := false
      hops := 0, kind := 3, cred := [], slice := gf s (pgLP (portDie p)) LS_SLICE_SLICE_ID, dst := 0
      src := ownMember s (portDie p), flow := 0, epoch := 0, pgen := gf s (pgLP (portDie p)) LS_PGEN_CUR, oseq := 0
      fo := false, orig := 0, use := .other }
  emit (.flit p (stamped x f).bytes) (onPort p (fun x => x.returned) s)

/-- Sends a NAK that names the first SEQ not received in order, as ACK + 1 (R299). -/
def sendNak (p : PortId) (s : State) : State :=
  sendNull p true (tallyAdd (pgLPof p) 6 1 (onPort p (fun x => { x with seeking := true }) s))

/-- Queues a whole message on a port. -/
def sendOn (p : PortId) (m : LinkMsg) (s : State) : State :=
  pump p (emit (.link p m) (onPort p (fun x => { x with txq := x.txq.setIfInBounds m.cls (x.txq.toList.getD m.cls [] ++ msgFlits m) }) s))

/-! ### Routing (R311) -/

/-- Ports of a bitmap, ascending. -/
def portsIn (v : Nat) : List PortId := allPorts.filter fun p => bit v p.val

/-- The port a message for member `m` with key `flow` leaves die `d`'s routing by. -/
def routePort (s : State) (d : DieId) (m flow : Nat) : Option PortId :=
  let e := sget z32 s.dies[d].rt (m % 4096)
  let main := (portsIn (fld e RT_ENTRY_PORTS)).filter (portActive s)
  let take := if main.isEmpty then (portsIn (fld e RT_ENTRY_ALT)).filter (portActive s) else main
  if take.isEmpty then none else take[flow % take.length]?

/-- Sends a message that this package originates on die `d`, to another member, under an epoch: NO_ROUTE when R311 finds no port. A port of
another die is reached over the stairway. A stopped package originates nothing in classes 1 to 3 (R473). -/
def originate (d : DieId) (cls kind dst flow epoch : Nat) (payload : List Byte) (s : State) : State × Nat :=
  if stopped s && decide (1 ≤ cls) then (s, eCOOLANT_STOP) else
  match routePort s d dst flow with
  | none => (s, eNO_ROUTE)
  | some p =>
    (sendOn p { cls := cls, kind := kind, hops := 0, slice := gf s (pgLP d) LS_SLICE_SLICE_ID, dst := dst
                src := ownMember s d, flow := flow, epoch := epoch, pgen := gf s (pgLP d) LS_PGEN_CUR
                payload := payload } (swPost d (portDie p) kLINK cls 0 payload s), eOK)

/-- The layout epoch in force on a die (R343). -/
def curEpoch (s : State) (d : DieId) : Nat := gf s (pgCE d) CE_EPOCH_V

/-! ### Port failure (R305 to R308) -/

/-- The alternate of port `p` (R306): the lowest other ACTIVE port at minor version 1 or above with the same peer. -/
def alternate (s : State) (p : PortId) : Option PortId :=
  allPorts.find? fun q => q != p && portActive s q && decide (1 ≤ gf s (pgLPof q) LP_STATE_MINOR) &&
    gf s (pgLPof q) LP_PEER_MEMBER == gf s (pgLPof p) LP_PEER_MEMBER

/-- Numbers the flits that had not left, on from the last SEQ used. -/
def numberOn : Nat → List Flit → List Flit
  | _, [] => []
  | n, f :: fs => { f with seq := n % 65536 } :: numberOn (n + 1) fs

/-- The flits a failing port still owes, in SEQ order: those not acknowledged, and those queued behind them. -/
def owedFlits (x : Port) : List Flit :=
  x.replay.map (·.flit) ++ numberOn x.txSeq (x.txq.toList.flatMap id)

/-- Takes the flits of class `c` of a failed port before the new flits of the class (R306). -/
def handClass (fs : List Flit) (c : Nat) (x : Port) : Port :=
  let old := x.txq.toList.getD c []
  { x with txq := x.txq.setIfInBounds c (old.filter (·.fo) ++ fs.filter (fun f => f.cls == c) ++ old.filter (fun f => !f.fo)) }

/-- A lost message of class 1 that this package sent is part of the export stream of its die, and fails that die's frame (R308, R366).
A lost message of class 2 is an ACK or a REFUSE (R341), which no task issued or awaits: the message it answers is resent (R337). -/
def lostExport (fs : List Flit) (s : State) : State :=
  let mine (d : DieId) : Bool := fs.any fun f => f.use == .stream d.val && f.src == ownMember s d
  forEach (fun d s => if s.dies[d].jrnl.streaming && mine d then failCause d eLINK_DOWN s else s) (liveDies s) s

/-- What identifies a message of the collective engine (R337). -/
def seenOf (op : Nat) (m : CeMsg) : CeSeen := ⟨op, m.att, m.frame, m.bucket, m.srcMember, m.srcDie, m.offset⟩

/-- Whether a flit is part of a message that waits for its acknowledgement. -/
def Flit.carries (f : Flit) (o : CeOut) : Bool := f.use == .ce (seenOf o.op o.msg) && f.dst == o.dst

/-- Messages of the collective engine of which a port has dropped a flit have not reached the link peer (R308, R328). -/
def lostCe (fs : List Flit) (s : State) : State :=
  forEach (fun d s => onDie d (fun x => { x with ce := { x.ce with
    out := x.ce.out.map fun o => if fs.any fun f => f.carries o then { o with lost := true } else o } }) s) (liveDies s) s

/-- A port leaves ACTIVE (R306, R308): its unacknowledged flits go to the alternate, or are dropped. -/
def leaveActive (p : PortId) (s : State) : State :=
  let x := s.ports[p]
  let fs := owedFlits x
  let pg := pgLPof p
  let s1 := tallyAdd pg 16 1 (sf pg LP_RXSEQ_V (x.rxNext + 65535)
    (onPort p (fun x => { x with replay := [], txq := Vector.replicate 4 [], seeking := false, nakCount := 0, unc := [] }) s))
  if fs.isEmpty then s1
  else
    match if gf s pg LP_STATE_MINOR = 0 then none else alternate s p with
    | none => lostCe fs (lostExport fs s1)
    | some q =>
      let marked := fs.map fun f => { f with fo := true, oseq := f.seq, orig := gf s pg LP_PEER_PORT }
      let s2 := sf pg LP_REPLAY_ALT q.val (sf pg LP_REPLAY_ALT_VALID 1 (raise pg 2 (tallyAdd pg 8 fs.length s1)))
      pump q (onPort q (fun x => handClass marked 0 (handClass marked 1 (handClass marked 2 (handClass marked 3 x)))) s2)

/-- Sets a port's training state. -/
def setPortState (p : PortId) (st : Nat) (s : State) : State := sf (pgLPof p) LP_STATE_STATE st s

/-- Sets a port's training state and cause. -/
def setPortCause (p : PortId) (st cause : Nat) (s : State) : State :=
  setPortState p st (sf (pgLPof p) LP_STATE_CAUSE cause s)

/-- An ACTIVE port fails with a cause (R305). -/
def failPort (p : PortId) (cause : Nat) (s : State) : State :=
  if portActive s p then raise (pgLPof p) 1 (leaveActive p (setPortCause p 6 cause s)) else s

/-- A port is disabled or fenced (R301). -/
def stopPort (p : PortId) (s : State) : State :=
  match portState s p with
  | 0 => s
  | 5 => leaveActive p (setPortCause p 0 1 s)
  | _ => setPortState p 0 s

/-- A port starts training (R301), unless it is fenced or disabled. -/
def startPort (p : PortId) (s : State) : State :=
  if gf s (pgLPof p) LP_CTRL_ENABLE = 1 ∧ gf s (pgLPof p) FENCE_REQ = 0 ∧ (portState s p = 0 ∨ portState s p = 6) then
    setPortState p 1 (tallyAdd (pgLPof p) 15 1 s)
  else s

/-! ### Training (R301 to R304) -/

/-- PMD_TRAINED (R301). -/
def doPmdTrained (p : PortId) (s : State) : State :=
  if dieLive s (portDie p) && portState s p == 1 then setPortState p 2 s else s

/-- The hello a port sends (R302). -/
def helloOf (s : State) (p : PortId) : Hello :=
  let d := portDie p
  { slice := gf s (pgLP d) LS_SLICE_SLICE_ID, member := ownMember s d, port := p.val, role := gf s (pgLPof p) LP_CFG_ROLE
    pgen := gf s (pgLP d) LS_PGEN_CUR, major := 1, minor := 1 }

/-- AM_LOCK (R301): the port enters HELLO and sends its first hello. -/
def doAmLock (p : PortId) (s : State) : State :=
  if dieLive s (portDie p) && portState s p == 2 then emit (.hello p (helloOf s p)) (setPortState p 3 s) else s

/-- TRAIN_TIMEOUT (R301). -/
def doTrainTimeout (p : PortId) (s : State) : State :=
  if !dieLive s (portDie p) then s else
  match portState s p with
  | 1 => setPortCause p 6 2 s
  | 2 => setPortCause p 6 3 s
  | 3 | 4 => setPortCause p 6 4 s
  | _ => s

/-- HELLO_SEND (R302). -/
def doHelloSend (p : PortId) (s : State) : State :=
  if dieLive s (portDie p) && portState s p == 3 then emit (.hello p (helloOf s p)) s else s

/-- HELLO (R301 to R303): the version check of R303 comes first, as the table of R301 lists it first. -/
def doHello (p : PortId) (h : Hello) (s : State) : State :=
  let d := portDie p
  let pg := pgLPof p
  if !(dieLive s d && portState s p == 3) then s
  else if h.major ≠ 1 then
    setPortCause p 6 5 (raise pg 4 (blockErr pg eLINK_VERSION s))
  else if gf s pg LP_EXPECT_CHECK = 1 ∧ (h.member ≠ gf s pg LP_EXPECT_PEER ∨ h.slice ≠ gf s (pgLP d) LS_SLICE_SLICE_ID) then
    setPortCause p 6 6 (raise pg 3 s)
  else
    let v := BitVec.ofNat 32 (h.member % 4096 + h.port % 16 * 4096 + h.slice % 65536 * 65536)
    let s1 := wr (pg + LP_PEER_GEN_V.off) (BitVec.ofNat 32 (h.pgen % 65536)) (wr (pg + LP_PEER_MEMBER.off) v s)
    let s2 := sf pg LP_RXSEQ_V 0 (sf pg LP_STATE_MINOR (min 1 h.minor) (onPort p (fun x => { x with probes := [] }) s1))
    setPortState p 4 (emits (List.replicate 16 (.probe p (timeStamp s d.val) 0 0)) s2)

/-- The lower of the two middle values of 16 latencies. -/
def median16 (xs : List Nat) : Nat := (xs.mergeSort (· ≤ ·)).getD 7 0

/-- A port reaches ACTIVE (R301): credits under R296, SEQ from 0. -/
def activatePort (p : PortId) (lat : Nat) (s : State) : State :=
  let pg := pgLPof p
  let s1 := onPort p (fun x => { Port.reset with
    credits := #v[16, 64, 96, 256], probes := x.probes, inbox := x.inbox.map fun r => { r with buf := none } }) s
  let s2 := sf pg LP_REPLAY_ALT_VALID 0 (sf pg LP_LAT_V (min 65535 lat) s1)
  raise pg 0 (setPortState p 5 s2)

/-- PROBE (R304). -/
def doProbe (p : PortId) (pr : Probe) (s : State) : State :=
  let d := portDie p
  if !dieLive s d then s else
  match pr with
  | .request t1 =>
    if portState s p = 4 ∨ portState s p = 5 then emit (.probe p t1 (timeStamp s d.val) (timeStamp s d.val)) s else s
  | .result t1 t2 t3 =>
    if portState s p ≠ 4 then s
    else
      let t4 := timeStamp s d.val
      let xs := ((t4 - t1) - (t3 - t2)) / 2 :: s.ports[p].probes
      let s1 := onPort p (fun x => { x with probes := xs }) s
      if xs.length = 16 then activatePort p (median16 xs) s1 else s1

/-- LOSS_OF_LOCK (R305). -/
def doLossOfLock (p : PortId) (s : State) : State := failPort p 7 s

/-- DEAD (R305). -/
def doDead (p : PortId) (s : State) : State := failPort p 8 s

/-- AUTO_RETRAIN (R301). -/
def doAutoRetrain (p : PortId) (s : State) : State :=
  if dieLive s (portDie p) && portState s p == 6 && gf s (pgLPof p) LP_CTRL_AUTO_RETRAIN == 1 then startPort p s else s

/-- Writes of LP_CTRL.ENABLE and RETRAIN act on the port (R301); the register holds its new value. -/
def lpCtrlAction (p : PortId) (retrain : Bool) (s : State) : State :=
  if gf s (pgLPof p) LP_CTRL_ENABLE = 0 then stopPort p s
  else if portState s p = 0 ∨ (portState s p = 6 ∧ retrain) then startPort p s
  else s

/-! ### Receiving flits (R293 to R299, R307) -/

/-- SEQ `a` is at or after SEQ `b`. -/
def seqGe (a b : Nat) : Bool := decide ((a + 65536 - b) % 65536 < 32768)

/-- An ACK covers flits of the replay buffer (R299). -/
def takeAck (p : PortId) (a : Nat) (s : State) : State :=
  onPort p (fun x => { x with
    replay := x.replay.filter fun k => !seqGe a k.flit.seq
    nakCount := if seqGe a x.nakSeq then 0 else x.nakCount }) s

/-- Credits return (R297). -/
def takeCredits (p : PortId) (cs : List Nat) (s : State) : State :=
  onPort p (fun x => { x with credits := x.credits.mapIdx fun i c => min (classBuf i) (c + cs.getD i 0) }) s

/-- A kept flit as it is resent: a tick adds the time since its first transmission to its ACC (R300). DEDUCED: ACC saturates. -/
def resent (now : Nat) (k : Kept) : Flit :=
  if k.flit.kind = 1 ∧ k.flit.first then
    let bs := k.flit.payload
    { k.flit with payload := bs.take 24 ++ leBytes 2 (min 65535 (field bs 24 2 + (now - k.sentAt))) ++ bs.drop 26 }
  else k.flit

/-- NAK (R299): the port resends in order from the named SEQ; a NAK count that reaches REPLAY_MAX fails the port (R305). -/
def doNak (p : PortId) (seq : Nat) (s : State) : State :=
  if !portActive s p then s else
  let s1 := takeAck p ((seq + 65535) % 65536) s
  let x := s1.ports[p]
  let n := if x.nakSeq = seq ∧ 0 < x.nakCount then x.nakCount + 1 else 1
  let s2 := onPort p (fun x => { x with nakSeq := seq, nakCount := n }) s1
  if gf s (pgLPof p) LP_CFG_REPLAY_MAX < n then failPort p 9 s2
  else
    let ks := s2.ports[p].replay
    pump p (tallyAdd (pgLPof p) 7 ks.length (emits (ks.map fun k => .flit p (resent s.time k).bytes) s2))

/-- The message a run of flits carries (R295, R312): the trailer of its FIRST flit and the payloads in order. -/
def flitsMsg (fs : List Flit) : Option LinkMsg :=
  match fs with
  | [] => none
  | f :: _ => some { cls := f.cls, kind := f.kind, hops := f.hops, slice := f.slice, dst := f.dst, src := f.src
                     flow := f.flow, epoch := f.epoch, pgen := f.pgen, payload := fs.flatMap (·.payload) }

/-- Counts `n` receive-buffer entries of a class as free. -/
def freeCredits (p : PortId) (c n : Nat) (s : State) : State :=
  onPort p (fun x => { x with freed := x.freed.setIfInBounds c (x.freed.toList.getD c 0 + n) }) s

/-- Reassembles an accepted flit in the context of port `q` (R295, R307); a flit that continues no message is let go. The message keeps
the port it crossed last, and whether that is a failover, in which case its flits have left the buffer already. -/
def reassemble (p q : PortId) (f : Flit) (s : State) : State :=
  let old := s.ports[q].reasm.toList.getD f.cls []
  if !f.first && old.isEmpty then (if f.fo then s else freeCredits p f.cls 1 s)
  else
    let fs := if f.first then [f] else old ++ [f]
    if f.last then
      let r := (flitsMsg fs).toList.map fun m => (⟨m, if f.fo then none else some p, p⟩ : Arrived)
      onPort q (fun x => { x with reasm := x.reasm.setIfInBounds f.cls [], inbox := x.inbox ++ r }) s
    else onPort q (fun x => { x with reasm := x.reasm.setIfInBounds f.cls fs }) s

/-- FAILOVER_FLIT (R307): a duplicate of port ORIG is dropped; any other is reassembled in ORIG's context. -/
def failoverFlit (p : PortId) (f : Flit) (s : State) : State :=
  let q : PortId := ⟨f.orig % 16, Nat.mod_lt _ (by decide)⟩
  let last := (s.ports[q].rxNext + 65535) % 65536
  if (last + 65536 - f.oseq) % 65536 < 227 then freeCredits p f.cls 1 (tallyAdd (pgLPof p) 10 1 s)
  else
    let s1 := onPort q (fun x => { x with rxNext := (f.oseq + 1) % 65536 }) (tallyAdd (pgLPof p) 9 1 s)
    freeCredits p f.cls 1 (reassemble p q f (if portState s q = 5 then s1 else sf (pgLPof q) LP_RXSEQ_V f.oseq s1))

/-- A non-null flit that arrives in order. -/
def acceptFlit (p : PortId) (f : Flit) (s : State) : State :=
  let s1 := tallyQty (pgLPof p) 1 1024 1
    (onPort p (fun x => { x with rxNext := (x.rxNext + 1) % 65536, seeking := false }) (takeCredits p f.cred (takeAck p f.ack s)))
  if f.fo then failoverFlit p f s1 else reassemble p p f s1

/-- The FEC tallies (R319), and the port's failure after more than 64 uncorrectable codewords within 1 ms (R305). -/
def fecCount (p : PortId) (fec : Fec) (s : State) : State :=
  let pg := pgLPof p
  let ts := List.replicate fec.lost s.time ++ s.ports[p].unc.filter fun t => decide (s.time - t < 1000000)
  let s1 := tallyQty pg 3 1024 fec.symbols (tallyAdd pg 2 fec.fixed (tallyAdd pg 4 fec.lost s))
  let s2 := onPort p (fun x => { x with unc := ts }) s1
  if 64 < ts.length then failPort p 10 s2 else s2

/-- FLIT_RECEIVE (R293 to R299) without the payload of a null flit. -/
def takeFlit (p : PortId) (bytes : List Byte) (fec : Fec) (s0 : State) : State :=
  if !portActive s0 p then s0 else
  let f := readFlit bytes
  let s := fecCount p fec s0
  if fec.bad || !flitCrcOk bytes || !flitFormOk bytes then
    let s1 := tallyAdd (pgLPof p) 5 1 s
    if portActive s1 p then sendNak p s1 else s1
  else if !portActive s p then s
  else if f.null then
    let s1 := takeCredits p f.cred (takeAck p f.ack s)
    pump p (if f.nak then doNak p ((f.ack + 1) % 65536) s1 else s1)
  else
    let x := s.ports[p]
    if f.seq = x.rxNext then
      let s1 := pump p (acceptFlit p f s)
      let s2 := if f.nak then doNak p ((f.ack + 1) % 65536) s1 else s1
      if portActive s2 p then sendNull p false s2 else s2
    else if seqGe f.seq x.rxNext && !x.seeking then sendNak p s
    else s

/-! ### Routing banks (R313) -/

/-- RT_CTRL.SWAP (R313). -/
def rtSwapArm (d : DieId) (s : State) : State := sf (pgLP d) RT_CTRL_PENDING 1 s

/-- RT_CTRL.COPY (R313): the active bank into the shadow bank. -/
def rtCopyBank (d : DieId) (s : State) : State :=
  onDie d (fun x =>
    let act := x.rt.filter fun e => decide (e.1 < 4096)
    { x with rt := act ++ act.map fun e => (e.1 + 4096, e.2) }) s

/-- The exchange of the banks at a tick edge (R313). -/
def rtExchange (d : DieId) (s : State) : State :=
  if gf s (pgLP d) RT_CTRL_PENDING = 1 then
    let s1 := onDie d (fun x =>
      let act := x.rt.filter fun e => decide (e.1 < 4096)
      let sh := x.rt.filter fun e => decide (4096 ≤ e.1)
      { x with rt := (sh.map fun e => (e.1 - 4096, e.2)) ++ act.map fun e => (e.1 + 4096, e.2) }) s
    forEach (fun k s => raise (pgLP d + k * 0x1000) 5 s) [0, 1, 2, 3] (sf (pgLP d) RT_CTRL_PENDING 0 s1)
  else s

/-- RT_DIGEST (R318): CRC-A over the 4,096 entries of the active bank, ascending. -/
def rtDigest (s : State) (d : DieId) : D :=
  crcA ((sgetList z32 s.dies[d].rt 0 4096).flatMap fun e => leBytes 4 e.toNat)

/-! ### Meanings of the commands -/

/-- NAK (R299). -/
def execNak (p : PortId) (seq : Nat) (s : State) : Host.Outcome State Fault Refusal :=
  .next (dieStep (portDie p) (doNak p seq) s)
/-- PMD_TRAINED (R301). -/
def execPmdTrained (p : PortId) (s : State) : Host.Outcome State Fault Refusal :=
  .next (dieStep (portDie p) (doPmdTrained p) s)
/-- AM_LOCK (R301). -/
def execAmLock (p : PortId) (s : State) : Host.Outcome State Fault Refusal :=
  .next (dieStep (portDie p) (doAmLock p) s)
/-- TRAIN_TIMEOUT (R301). -/
def execTrainTimeout (p : PortId) (s : State) : Host.Outcome State Fault Refusal :=
  .next (dieStep (portDie p) (doTrainTimeout p) s)
/-- HELLO_SEND (R302). -/
def execHelloSend (p : PortId) (s : State) : Host.Outcome State Fault Refusal :=
  .next (dieStep (portDie p) (doHelloSend p) s)
/-- HELLO (R302). -/
def execHello (p : PortId) (h : Hello) (s : State) : Host.Outcome State Fault Refusal :=
  .next (dieStep (portDie p) (doHello p h) s)
/-- PROBE (R304). -/
def execProbe (p : PortId) (pr : Probe) (s : State) : Host.Outcome State Fault Refusal :=
  .next (dieStep (portDie p) (doProbe p pr) s)
/-- LOSS_OF_LOCK (R305). -/
def execLossOfLock (p : PortId) (s : State) : Host.Outcome State Fault Refusal :=
  .next (dieStep (portDie p) (doLossOfLock p) s)
/-- DEAD (R305). -/
def execDead (p : PortId) (s : State) : Host.Outcome State Fault Refusal :=
  .next (dieStep (portDie p) (doDead p) s)
/-- AUTO_RETRAIN (R301). -/
def execAutoRetrain (p : PortId) (s : State) : Host.Outcome State Fault Refusal :=
  .next (dieStep (portDie p) (doAutoRetrain p) s)

end Sys2Proof.Machine
end

