-- ==== Sys2Proof/Machine/Collective.lean ====
section
/-!
DEFINITION. Collective.lean: the collective engine (R320 to R349): its tasks, its messages, the excluded set, side records,
gathers, trees and re-shard moves.
-/
namespace Sys2Proof.Machine

/-! ### Group, tree and die (R320, R321) -/

/-- Changes the collective engine of a die. -/
def onCe (d : DieId) (f : Ce → Ce) (s : State) : State := onDie d (fun x => { x with ce := f x.ce }) s

/-- GSIZE, own position, and the member at a position. -/
def gsize (s : State) (d : DieId) : Nat := gf s (pgCE d) CE_CFG_GSIZE
/-- R320. -/ def ownPos (s : State) (d : DieId) : Nat := gf s (pgCE d) CE_GSELF_V
/-- R320. -/ def groupMember (s : State) (d : DieId) (p : Nat) : Nat := gf s (pgCE d + 4 * p) CE_GROUP_V

/-- Positions 0 to GSIZE − 1. -/
def positions (s : State) (d : DieId) : List Nat := List.range (gsize s d)

/-- Valid tree children, as (slot, member), in ascending slot. -/
def treeChildren (s : State) (d : DieId) : List (Nat × Nat) :=
  ((List.range 8).filter fun n => gf s (pgCE d + 4 * n) CE_TCHILD_VALID == 1).map fun n =>
    (n, gf s (pgCE d + 4 * n) CE_TCHILD_MEMBER)

/-- The tree parent; none on the root. -/
def treeParent (s : State) (d : DieId) : Option Nat :=
  if gf s (pgCE d) CE_TPARENT_VALID = 1 then some (gf s (pgCE d) CE_TPARENT_MEMBER) else none

/-- Whether member `m` is in E (R329). -/
def inE (s : State) (d : DieId) (m : Nat) : Bool := s.dies[d].ce.excl.contains m

/-! ### Tasks by opcode -/

/-- CE tasks of an opcode in the active image, ascending, with their descriptors. -/
def ceTasks (s : State) (i : Img) (op : Nat) : List (Nat × Task) :=
  ((List.range i.tasks).map fun t => (t, readTask s i t)).filter fun e => e.2.unit == 9 && e.2.opcode == op

/-- BUCKET and LEN of a CE task (R323). -/
def Task.bucket (tk : Task) : Nat := tk.p 64 2
/-- R323. -/ def Task.clen (tk : Task) : Nat := tk.p 68 4
/-- R323. -/ def Task.wire (tk : Task) : Nat := tk.p 66 1

/-- The REDUCE of a bucket in an image. -/
def reduceOf (s : State) (i : Img) (bucket : Nat) : Option (Nat × Task) :=
  (ceTasks s i 1).find? fun e => e.2.bucket == bucket

/-- The frame in which the last tick edge left the die, and whether that tick held (R73). -/
def frameOver (s : State) (d : DieId) (f : Nat) : Bool :=
  match s.dies[d].tick.last with
  | none => true
  | some t => if t.hold then decide (f ≤ t.frame) else decide (f < t.frame)

/-! ### Messages (R341) -/

/-- The 64-byte header of a message. -/
def ceHeader (op : Nat) (m : CeMsg) : List Byte :=
  leBytes 1 op ++ leBytes 1 (m.wire % 4 + b2n m.resend * 4) ++ leBytes 1 (m.srcPos % 8 + m.srcDie % 4 * 16) ++
  leBytes 1 (m.dstDie % 4) ++ leBytes 8 m.att ++ leBytes 2 m.frame ++ leBytes 2 m.bucket ++ leBytes 4 m.offset ++
  leBytes 4 m.count ++ leBytes 8 m.version ++ leBytes 8 m.digest ++ leBytes 2 m.reason ++ leBytes 1 (if op = 9 then m.offset / 2 ^ 32 else 0) ++
  leBytes 1 m.ansOp ++ leBytes 4 m.slen ++ leBytes 16 0

/-- Data bytes of a message, by its OP, WIRE and COUNT. -/
def ceDataLen (op wire count : Nat) (room : Nat) : Nat :=
  match op with
  | 1 => if wire = 1 then 2 * count else 4 * count
  | 4 | 5 => 4 * count
  | 6 | 7 | 8 => count
  | 9 => room
  | _ => 0

/-- A message read from the payload of a link message: its OP and its fields. -/
def ceParse (l : LinkMsg) : Nat × CeMsg :=
  let f (o n : Nat) : Nat := field l.payload o n
  let op := f 0 1
  (op, { srcMember := l.src, epoch := l.epoch, wire := f 1 1 % 4, resend := bit (f 1 1) 2, srcPos := f 2 1 % 8
         srcDie := f 2 1 / 16 % 4, dstDie := f 3 1 % 4, att := f 4 8, frame := f 12 2 % 4096, bucket := f 14 2
         offset := f 16 4 + (if op = 9 then f 42 1 * 2 ^ 32 else 0), count := f 20 4, version := f 24 8, digest := f 32 8
         reason := f 40 2, ansOp := f 43 1, slen := f 44 4
         data := (l.payload.drop 64).take (ceDataLen op (f 1 1 % 4) (f 20 4) (l.payload.length - 64)) })

/-- A message of die `d` with nothing in it but what every message of a frame carries. -/
def ceBase (s : State) (d : DieId) (frame : Nat) : CeMsg :=
  { srcMember := ownMember s d, epoch := gf s (pgCE d) CE_EPOCH_V, wire := 0, resend := false, srcPos := ownPos s d
    srcDie := d.val, dstDie := d.val, att := s.dies[d].disp.att, frame := frame, bucket := 0, offset := 0, count := 0
    version := 0, digest := 0, reason := 0, ansOp := 0, slen := 0, data := [] }

/-- FLOW of a message (R326, R335); a CHECK takes one more than the message with its block's data. -/
def ceFlow (op : Nat) (m : CeMsg) : Nat :=
  match op with
  | 1 | 4 | 5 => m.offset / 2048
  | 2 => (if m.wire = 1 then m.offset / 4096 * 2 else m.offset / 2048) + 1
  | 8 => m.offset / 8192
  | _ => 0

/-- Puts a message on its way: within the package over the stairway, else by R311, class 2 for an answer and class 3 for
every other (R341). -/
def ceTransmit (d : DieId) (op dst : Nat) (m : CeMsg) (s : State) : State × Nat :=
  let s1 := emit (.ce d op dst m) s
  let cls := if op = 3 ∨ op = 10 then 2 else 3
  let bs := ceHeader op m ++ m.data
  if dst = ownMember s d then (swPost d ⟨m.dstDie % 4, Nat.mod_lt _ (by decide)⟩ kCE cls 0 bs s1, eOK)
  else originate d cls 0 dst (ceFlow op m) m.epoch bs s1

/-- The task number of a message that no task of the die waits for; task IDs are below it (R94). -/
def noTask : Nat := 2 ^ 18

/-- Sends a message of task `t` and waits for its acknowledgement (R328, R337). A message of no task that finds no route is kept, and goes
when its time-out finds one. -/
def ceSend (d : DieId) (op t dst : Nat) (m : CeMsg) (s : State) : State × Nat :=
  let keep (lost : Bool) (s : State) : State := onCe d (fun c => { c with out := c.out ++ [⟨op, t, dst, m, lost⟩] }) s
  match ceTransmit d op dst m s with
  | (s1, 0) =>
    (keep false (if op = 1 ∨ op = 2 ∨ op = 6 ∨ op = 7 then tallyAdd (pgCE d) 0 1 s1 else s1), eOK)
  | (s1, c) => if t = noTask then (keep true s1, eOK) else (s1, c)

/-- Answers a message: an ACK, or a REFUSE with its reason (R327, R341). An answer without a route is not sent. -/
def ceAnswer (d : DieId) (op ansOp reason : Nat) (m : CeMsg) (s : State) : State :=
  let a : CeMsg := { ceBase s d m.frame with
    dstDie := m.srcDie, att := m.att, bucket := m.bucket, offset := m.offset % 2 ^ 32, ansOp := ansOp, reason := reason }
  (ceTransmit d op m.srcMember a s).1

/-- Acknowledges a message. -/
def ceAck (d : DieId) (ansOp : Nat) (m : CeMsg) (s : State) : State := ceAnswer d 3 ansOp 0 m s

/-- Refuses a message. -/
def ceRefuse (d : DieId) (ansOp reason : Nat) (m : CeMsg) (s : State) : State := ceAnswer d 10 ansOp reason m s

/-! ### Taking messages (R337, R342) -/

/-- Whether a SIDE_UP comes up the tree from another group, after the tick that ended the SIDE task's frame (R333). -/
def fromChild (s : State) (d : DieId) (m : CeMsg) : Bool := (treeChildren s d).any fun c => c.2 == m.srcMember

/-- The drops of R342: the tally that counts the message, when it is dropped. MOVE is held against the armed epoch. -/
def ceDrop (s : State) (d : DieId) (op : Nat) (m : CeMsg) : Option Nat :=
  let armed := gf s (pgCE d) CE_STATE_LSTATE != 0
  if op = 9 then
    if armed && m.epoch != s.dies[d].ce.armEpoch then some 2 else none
  else if m.epoch ≠ gf s (pgCE d) CE_EPOCH_V then some 2
  else if m.att ≠ s.dies[d].disp.att then some 3
  else if (op == 1 || op == 2 || op == 4 || (op == 6 && !fromChild s d m)) && frameOver s d m.frame then some 4
  else none

/-- Takes a message: nothing on a die that is not live; dropped and counted under R342; acknowledged again and dropped when
the CE already holds it (R337); else `body`, which answers it. -/
def ceTake (d : DieId) (op : Nat) (m : CeMsg) (body : State → State) (s : State) : State :=
  if !dieLive s d then s else
  match ceDrop s d op m with
  | some k => let s1 := tallyAdd (pgCE d) k 1 s; if k = 2 then raise (pgCE d) 5 s1 else s1
  | none =>
    if s.dies[d].ce.seen.contains (seenOf op m) then ceAck d op m (tallyAdd (pgCE d) 5 1 s)
    else body s

/-- Marks a message as held. -/
def ceHold (d : DieId) (op : Nat) (m : CeMsg) (s : State) : State :=
  onCe d (fun c => { c with seen := seenOf op m :: c.seen }) s

/-- Adds to what has come of a transfer; answers the part as it stands after. -/
def addPart (d : DieId) (op key : Nat) (m : CeMsg) (bytes : List Byte) (n : Nat) (s : State) : State × CePart :=
  let same (p : CePart) : Bool := p.op == op && p.key == key && p.src == m.srcMember && p.die == m.srcDie
  let old := (s.dies[d].ce.parts.find? same).getD ⟨op, key, m.srcMember, m.srcDie, [], 0, false⟩
  let new := { old with bytes := ssetList zb old.bytes m.offset bytes, n := old.n + n, head := old.head || m.offset == 0 }
  (onCe d (fun c => { c with parts := new :: c.parts.filter fun p => !same p }) s, new)

/-! ### X32 vectors in memory -/

/-- `n` X32 words from address `a`. -/
def readWords (d : DieId) (a n : Nat) (s : State) : State × Nat × List W :=
  match memRead (.ce d) a (4 * n) s with
  | (s1, 0, bs) => (s1, eOK, (chunks 4 n bs).map fun b => BitVec.ofNat 32 (leNat b))
  | (s1, c, _) => (s1, c, [])

/-- Writes X32 words from address `a`. -/
def writeWords (d : DieId) (a : Nat) (xs : List W) (s : State) : State × Nat :=
  memWrite (.ce d) a (xs.flatMap fun x => leBytes 4 x.toNat) s

/-- Counts of X32 elements stored without conversion (R244). -/
def rawCnt (xs : List W) : Cnt :=
  ⟨xs.length, 0, (xs.filter fun x => !(x32 x).isFin).length, (xs.filter fun x => x.toNat % 2 ^ 31 == 0).length, 0⟩

/-- The exact sum of values, rounded once to X32 (R335, R336). -/
def sumOnce (xs : List FVal) : W := r32 (xs.foldl fAdd (.fin false 0 0))

/-! ### REDUCE (R326 to R328) -/

/-- Address of the tensor of operand `k`. -/
def operBase (s : State) (i : Img) (tk : Task) (k : Nat) : Nat := (readTensor s i (tk.tensor k)).base

/-- A sampled block (R335). -/
def blockSampled (s : State) (d : DieId) (bucket q b : Nat) : Bool :=
  gf s (pgCE d) CE_CFG_CHK_EN == 1 &&
    (gen (BitVec.ofNat 64 (rd64 s (pgUPD d + UPD_SEED_LO_V.off))) (BitVec.ofNat 64 s.dies[d].disp.attStep) bucket
      (q * 2 ^ 24 + b)).toNat % 2 ^ gf s (pgCE d) CE_CFG_CHK_SHIFT == 0

/-- What travels of an X32 element on a wire of R323, and the X32 word its owner decodes. -/
def wireCode (wire : Nat) (x : W) : Nat × Cnt := if wire = 1 then convertElem 2 x else (x.toNat, Cnt.none)
/-- R327. -/ def wireWord (wire c : Nat) : W := if wire = 1 then BitVec.ofNat 32 (c * 65536) else BitVec.ofNat 32 c

/-- Sends shard `p` of a REDUCE's range to position `p`, with the checksums of its sampled blocks (R326, R335). -/
def sendShard (d : DieId) (t : Nat) (i : Img) (tk : Task) (p : Nat) (s : State) : State × Nat :=
  let len := tk.clen
  let w := tk.wire
  match readWords d (operBase s i tk 0 + 4 * (p * len)) len s with
  | (s1, 0, xs) =>
    let cs := xs.map (wireCode w)
    let s2 := if w = 1 then
        watchWrite d tk.frame (readTensor s i (tk.tensor 0)).watch ((cs.map Prod.snd).foldl Cnt.add Cnt.none) s1 else s1
    let per := if w = 1 then 4096 else 2048
    let base := { ceBase s d tk.frame with bucket := tk.bucket, wire := w, slen := len }
    let data (k : Nat) : List Byte :=
      ((cs.drop (k * per)).take per).flatMap fun c => leBytes (if w = 1 then 2 else 4) c.1
    let dst := groupMember s d p
    match forUntil (fun k s => ceSend d 1 t dst
        { base with offset := k * per, count := min per (len - k * per), data := data k } s) (List.range (cdiv len per)) s2 with
    | (s3, 0) =>
      let bl := (List.range (cdiv len 1024)).filter (blockSampled s d tk.bucket p)
      forUntil (fun b s => ceSend d 2 t dst
        { base with
          offset := b * 1024, count := min 1024 (len - b * 1024)
          version := (sumOnce (((cs.drop (b * 1024)).take 1024).map fun c => x32 (wireWord w c.1))).toNat + b * 2 ^ 32 } s) bl s3
    | (s3, c) => (s3, c)
  | (s1, c, _) => (s1, c)

/-- Issues a CE task of an opcode; the CE executes up to 16 (R325). -/
def ceIssue (d : DieId) (t op : Nat) (ready : State → Img → Task → Bool) (bad : State → Img → Task → Bool)
    (body : Img → Task → State → State × Nat) (s : State) : State :=
  match activeImg s d with
  | none => s
  | some i =>
    if !ready s i (readTask s i t) then s
    else issueWith d t 16 (fun tk => tk.unit == 9 && tk.opcode == op) (fun s i tk => ⟨bad s i tk, false, false⟩) body s

/-- REDUCE (R326): BAD_DESCRIPTOR when G does not hold GSIZE × LEN elements. -/
def doReduce (d : DieId) (t : Nat) (s : State) : State :=
  ceIssue d t 1 (fun _ _ _ => true)
    (fun s i tk => (readTensor s i (tk.tensor 0)).elems != gsize s d * tk.clen)
    (fun i tk s => forUntil (sendShard d t i tk) ((positions s d).filter (· != ownPos s d)) s) s

/-! ### FOLD (R331, R336) -/

/-- The vector of position `p` for the own shard: from G for the own position, else from its receive slot. -/
def foldInput (d : DieId) (i : Img) (rk : Task) (p : Nat) (s : State) : State × Nat × List W :=
  let q := ownPos s d
  let len := rk.clen
  if p = q then readWords d (operBase s i rk 0 + 4 * (q * len)) len s
  else readWords d (operBase s i rk 1 + 4 * ((if q < p then p - 1 else p) * len)) len s

/-- The inputs of the included positions, ascending, as (position, vector). -/
def foldInputs (d : DieId) (i : Img) (rk : Task) : List Nat → State → State × Nat × List (Nat × List W)
  | [], s => (s, eOK, [])
  | p :: ps, s =>
    match foldInput d i rk p s with
    | (s1, 0, x) =>
      match foldInputs d i rk ps s1 with
      | (s2, 0, r) => (s2, eOK, (p, x) :: r)
      | (s2, c, _) => (s2, c, [])
    | (s1, c, _) => (s1, c, [])

/-- The fold of the included vectors (R331): the first stands, and each later one is added in order. -/
def foldSum (len : Nat) : List (List W) → List W
  | [] => List.replicate len 0
  | x :: xs => xs.foldl (fun acc y => List.zipWith xAdd acc y) x

/-- The result of the dual-path check of one block. -/
inductive Dual where
  | agree
  | skip
  | disagree
  deriving DecidableEq, Repr

/-- Evaluates block `b` (R336): sums C, S and A, and the comparison. `cs` gives each included position's checksum. -/
def dualBlock (tol b : Nat) (sum : List W) (ins : List (Nat × List W)) (cs : List (Option W)) : Dual :=
  if cs.any Option.isNone then .disagree else
  let part (x : List W) : List FVal := ((x.drop (1024 * b)).take 1024).map x32
  let css := cs.filterMap id
  let inputs := ins.flatMap fun e => part e.2
  let c := sumOnce (part sum)
  let sv := sumOnce (css.map x32)
  let a := sumOnce (inputs.map fAbs)
  if !((part sum ++ inputs ++ css.map x32 ++ [x32 c, x32 sv, x32 a]).all FVal.isFin) then .skip
  else
    let lim := match x32 a with | .fin _ m e => FVal.fin false m (e - tol) | v => v
    if fLt lim (fAbs (fAdd (x32 sv) (fNeg (x32 c)))) then .disagree else .agree

/-- The checksum of a block from position `p`: the owner's own from G, a contributor's from its CHECK message. -/
def blockCs (s : State) (d : DieId) (bucket b : Nat) (e : Nat × List W) : Option W :=
  if e.1 = ownPos s d then some (sumOnce (((e.2.drop (1024 * b)).take 1024).map x32))
  else (s.dies[d].ce.checks.find? fun k => k.bucket == bucket && k.pos == e.1 && k.block == b).map (·.cs)

/-- Checks the sampled blocks in ascending order and stops at the first disagreement. -/
def dualCheck (d : DieId) (bucket : Nat) (sum : List W) (ins : List (Nat × List W)) (b : Nat) (s : State) : State × Nat :=
  match dualBlock (gf s (pgCE d) CE_CFG_CHK_TOL) b sum ins (ins.map (blockCs s d bucket b)) with
  | .skip => (tallyAdd (pgCE d) 10 1 s, eOK)
  | .agree => (tallyAdd (pgCE d) 8 1 s, eOK)
  | .disagree =>
    (raise (pgCE d) 0 (tallyAdd (pgCE d) 9 1 (tallyAdd (pgCE d) 8 1
      (wr (pgCE d + CE_DIS_BUCKET.off) (BitVec.ofNat 32 (bucket + b % 2 ^ 14 * 2 ^ 12 + 2 ^ 31)) s))), eREDUCE_DISAGREE)

/-- FOLD's work. -/
def foldWork (d : DieId) (i : Img) (tk : Task) (s : State) : State × Nat :=
  match reduceOf s i tk.bucket with
  | none => (s, eBAD_DESCRIPTOR)
  | some (_, rk) =>
    let inc := (positions s d).filter fun p => !inE s d (groupMember s d p)
    match foldInputs d i rk inc s with
    | (s1, 0, ins) =>
      let sum := foldSum rk.clen (ins.map Prod.snd)
      match writeWords d (operBase s i tk 0) sum s1 with
      | (s2, 0) =>
        let s3 := tallyQty (pgCE d) 7 1048576 sum.length
          (watchWrite d tk.frame (readTensor s i (tk.tensor 0)).watch (rawCnt sum) s2)
        forUntil (dualCheck d tk.bucket sum ins)
          ((List.range (cdiv rk.clen 1024)).filter (blockSampled s d tk.bucket (ownPos s d))) s3
      | (s2, c) => (s2, c)
    | (s1, c, _) => (s1, c)

/-- FOLD. -/
def doFold (d : DieId) (t : Nat) (s : State) : State :=
  ceIssue d t 2 (fun _ _ _ => true) (fun _ _ _ => false) (foldWork d) s

/-! ### Contributions at the owner (R327, R335) -/

/-- CONTRIB: written into the sender's receive slot, and acknowledged. -/
def doContrib (d : DieId) (m : CeMsg) (s : State) : State :=
  ceTake d 1 m (fun s =>
    match activeImg s d with
    | none => ceRefuse d 1 eBAD_DESCRIPTOR m s
    | some i =>
      match reduceOf s i m.bucket with
      | none => ceRefuse d 1 eBAD_DESCRIPTOR m s
      | some (_, tk) =>
        if tk.frame ≠ m.frame ∨ tk.clen ≠ m.slen ∨ tk.clen < m.offset + m.count ∨ m.srcPos = ownPos s d then
          ceRefuse d 1 eBAD_DESCRIPTOR m s
        else
          let k := if ownPos s d < m.srcPos then m.srcPos - 1 else m.srcPos
          let b := if m.wire = 1 then 2 else 4
          let xs := (chunks b m.count m.data).map fun c => wireWord m.wire (leNat c)
          match writeWords d (operBase s i tk 1 + 4 * (k * tk.clen + m.offset)) xs s with
          | (s1, 0) =>
            let s2 := if m.wire = 1 then s1 else watchWrite d tk.frame (readTensor s i (tk.tensor 1)).watch (rawCnt xs) s1
            ceAck d 1 m (tallyAdd (pgCE d) 1 1 (ceHold d 1 m s2))
          | (s1, _) => s1) s

/-- CHECK: a contributor's checksum of a block (R335). -/
def doCheck (d : DieId) (m : CeMsg) (s : State) : State :=
  ceTake d 2 m (fun s =>
    match (activeImg s d).bind fun i => reduceOf s i m.bucket with
    | none => ceRefuse d 2 eBAD_DESCRIPTOR m s
    | some (_, tk) =>
      if tk.frame ≠ m.frame ∨ tk.clen ≠ m.slen then ceRefuse d 2 eBAD_DESCRIPTOR m s
      else ceAck d 2 m (ceHold d 2 m (onCe d (fun c => { c with
        checks := ⟨m.bucket, m.srcPos, m.version / 2 ^ 32, BitVec.ofNat 32 m.version⟩ :: c.checks }) s))) s

/-! ### TREE (R332) -/

/-- The TREE of a bucket, frame and length on a die. -/
def treeOf (s : State) (i : Img) (m : CeMsg) : Option (Nat × Task) :=
  (ceTasks s i 3).find? fun e => e.2.bucket == m.bucket && e.2.frame == m.frame && e.2.clen == m.slen

/-- Sends X32 words of a shard in messages of at most 2,048 elements. -/
def sendWords (d : DieId) (op t dst : Nat) (tk : Task) (xs : List W) (s : State) : State × Nat :=
  let base := { ceBase s d tk.frame with bucket := tk.bucket, slen := tk.clen }
  forUntil (fun k s => ceSend d op t dst { base with
    offset := k * 2048, count := min 2048 (xs.length - k * 2048)
    data := ((xs.drop (k * 2048)).take 2048).flatMap fun x => leBytes 4 x.toNat } s) (List.range (cdiv xs.length 2048)) s

/-- Reads the up-messages of the children in slot order, adding each to the sum. -/
def treeAdd (d : DieId) (i : Img) (tk : Task) : List (Nat × Nat) → List W → State → State × Nat × List W
  | [], acc, s => (s, eOK, acc)
  | c :: cs, acc, s =>
    match readWords d (operBase s i tk 1 + 4 * (c.1 * tk.clen)) tk.clen s with
    | (s1, 0, xs) => treeAdd d i tk cs (List.zipWith xAdd acc xs) s1
    | (s1, e, _) => (s1, e, [])

/-- The result stands in SUM: it goes to every child. -/
def treeResult (d : DieId) (t : Nat) (tk : Task) (res : List W) (s : State) : State × Nat :=
  forUntil (fun c s => sendWords d 5 t c.2 tk res s) (treeChildren s d)
    (onCe d (fun x => { x with treeDone := t :: x.treeDone }) s)

/-- A TREE that executes and has every child's sum forms its own, and sends it up, or on the root takes it as the result. -/
def treeAdvance (d : DieId) (t : Nat) (i : Img) (tk : Task) (s : State) : State × Nat :=
  let ce := s.dies[d].ce
  let come := (treeChildren s d).all fun c => ce.parts.any fun p =>
    p.op == 4 && p.key == t && p.src == c.2 && decide (tk.clen ≤ p.n)
  if !come || ce.treeUp.contains t then (s, eOK) else
  match readWords d (operBase s i tk 0) tk.clen s with
  | (s1, 0, x) =>
    match treeAdd d i tk (treeChildren s d) x s1 with
    | (s2, 0, acc) =>
      let s3 := onCe d (fun x => { x with treeUp := t :: x.treeUp }) s2
      match treeParent s d with
      | some par => sendWords d 4 t par tk acc s3
      | none =>
        match writeWords d (operBase s i tk 0) acc s3 with
        | (s4, 0) => treeResult d t tk acc (watchWrite d tk.frame (readTensor s i (tk.tensor 0)).watch (rawCnt acc) s4)
        | (s4, c) => (s4, c)
    | (s2, c, _) => (s2, c)
  | (s1, c, _) => (s1, c)

/-- TREE. -/
def doTree (d : DieId) (t : Nat) (s : State) : State :=
  ceIssue d t 3 (fun _ _ _ => true) (fun _ _ _ => false) (fun i tk s => treeAdvance d t i tk s) s

/-- A task that executes goes on, and faults with the code its work meets. -/
def goOn (d : DieId) (t : Nat) (f : State → State × Nat) (s : State) : State :=
  if tstat s d t = .executing then
    match f s with
    | (s1, 0) => s1
    | (s1, c) => taskFault d t c s1
  else s

/-- TREE_UP: a child's partial sum, into its CRECV slot (R332). -/
def doTreeUp (d : DieId) (m : CeMsg) (s : State) : State :=
  ceTake d 4 m (fun s =>
    match activeImg s d with
    | none => ceRefuse d 4 eBAD_DESCRIPTOR m s
    | some i =>
      match treeOf s i m, (treeChildren s d).find? fun c => c.2 == m.srcMember with
      | some (t, tk), some (n, _) =>
        if tk.clen < m.offset + m.count then ceRefuse d 4 eBAD_DESCRIPTOR m s else
        let xs := (chunks 4 m.count m.data).map fun c => BitVec.ofNat 32 (leNat c)
        match writeWords d (operBase s i tk 1 + 4 * (n * tk.clen + m.offset)) xs s with
        | (s1, 0) =>
          let s2 := watchWrite d tk.frame (readTensor s i (tk.tensor 1)).watch (rawCnt xs) s1
          let s3 := ceAck d 4 m (ceHold d 4 m (addPart d 4 t m [] m.count s2).1)
          goOn d t (treeAdvance d t i tk) s3
        | (s1, _) => s1
      | _, _ => ceRefuse d 4 eBAD_DESCRIPTOR m s) s

/-- TREE_DOWN: the root's result from the parent, into SUM, and on to the children (R332). -/
def doTreeDown (d : DieId) (m : CeMsg) (s : State) : State :=
  ceTake d 5 m (fun s =>
    match activeImg s d with
    | none => ceRefuse d 5 eBAD_DESCRIPTOR m s
    | some i =>
      match treeOf s i m with
      | none => ceRefuse d 5 eBAD_DESCRIPTOR m s
      | some (t, tk) =>
        if tk.clen < m.offset + m.count ∨ treeParent s d ≠ some m.srcMember then ceRefuse d 5 eBAD_DESCRIPTOR m s else
        let xs := (chunks 4 m.count m.data).map fun c => BitVec.ofNat 32 (leNat c)
        match writeWords d (operBase s i tk 0 + 4 * m.offset) xs s with
        | (s1, 0) =>
          let s2 := watchWrite d tk.frame (readTensor s i (tk.tensor 0)).watch (rawCnt xs) s1
          match addPart d 5 t m [] m.count s2 with
          | (s3, p) =>
            let s4 := ceAck d 5 m (ceHold d 5 m s3)
            if tk.clen ≤ p.n then
              goOn d t (fun s =>
                match readWords d (operBase s i tk 0) tk.clen s with
                | (s5, 0, res) => treeResult d t tk res s5
                | (s5, c, _) => (s5, c)) s4
            else s4
        | (s1, _) => s1) s

/-! ### GATHER (R338 to R340) -/

/-- A shard as GATHER copies it: per row the element codes, then scale codes and zero points in group order, and the rows
and scales of a second grouping. -/
structure Shard where
  rows : List (List Nat)
  scales : List Nat
  zps : List Nat
  rows2 : List (List Nat)
  scales2 : List Nat
  deriving DecidableEq, Repr

/-- Elements of a view per second or first group count: groups of the whole tensor. -/
def groupCount (v : View) : Nat := if v.grouped then v.t.elems / v.t.g else 0

/-- Bytes of a shard of tensor view `v`: packed rows, scale bytes, zero points, and the second grouping (R338). DESIGN
CHOICE: the order in which a SHARD transfer carries them; the rule gives it for the digest. -/
def shardBytes (v : View) (x : Shard) : List Byte :=
  let b := fmtBits v.fmt
  let row (cs : List Nat) : List Byte := pack b 0 cs (List.replicate (cdiv (cs.length * b) 8) 0)
  x.rows.flatMap row ++ x.scales.flatMap (leBytes 1) ++ pack 4 0 x.zps (List.replicate (cdiv x.zps.length 2) 0) ++
    x.rows2.flatMap row ++ x.scales2.flatMap (leBytes 1)

/-- How many bytes a shard of tensor view `v` has. -/
def shardLen (v : View) : Nat :=
  let one := v.t.rows * v.rowBytes + groupCount v
  let z := if v.fmt = 6 then cdiv (groupCount v) 2 else 0
  one + z + if v.grouped && v.t.aft == 2 then one else 0

/-- A shard read back from its bytes. -/
def shardParse (v : View) (bs : List Byte) : Shard :=
  let b := fmtBits v.fmt
  let rb := v.rowBytes
  let n := v.t.rows
  let g := groupCount v
  let rowsAt (o : Nat) : List (List Nat) := (List.range n).map fun r => unpack b 0 (v.t.dim 0) ((bs.drop (o + r * rb)).take rb)
  let z := if v.fmt = 6 then cdiv g 2 else 0
  let o2 := n * rb + g + z
  let two := v.grouped && v.t.aft == 2
  { rows := rowsAt 0, scales := ((bs.drop (n * rb)).take g).map (·.toNat)
    zps := if v.fmt = 6 then unpack 4 0 g ((bs.drop (n * rb + g)).take z) else []
    rows2 := if two then rowsAt o2 else [], scales2 := if two then ((bs.drop (o2 + n * rb)).take g).map (·.toNat) else [] }

/-- Codes of a row; T2 code 0b10 answers BAD_ENCODING (R128). -/
def ceCodes (d : DieId) (v : View) (row i n : Nat) (s : State) : State × Nat × List Nat :=
  match readCodes (memRead (.ce d)) v row i n s with
  | (s1, 0, cs) => if v.fmt = 7 && cs.any (· == 2) then (s1, eBAD_ENCODING, []) else (s1, eOK, cs)
  | (s1, c, _) => (s1, c, [])

/-- Reads codes of every row of a view. -/
def readRowsCodes (d : DieId) (v : View) : List Nat → State → State × Nat × List (List Nat)
  | [], s => (s, eOK, [])
  | r :: rs, s =>
    match ceCodes d v r 0 (v.t.dim 0) s with
    | (s1, 0, cs) =>
      match readRowsCodes d v rs s1 with
      | (s2, 0, l) => (s2, eOK, cs :: l)
      | (s2, c, _) => (s2, c, [])
    | (s1, c, _) => (s1, c, [])

/-- Reads bytes, or none when there are none to read. -/
def readSome (d : DieId) (a n : Nat) (s : State) : State × Nat × List Byte :=
  if n = 0 then (s, eOK, []) else memRead (.ce d) a n s

/-- Reads SRC of a GATHER. -/
def shardRead (d : DieId) (v : View) (s : State) : State × Nat × Shard :=
  let no : Shard := ⟨[], [], [], [], []⟩
  let g := groupCount v
  let rs := List.range v.t.rows
  match readRowsCodes d v rs s with
  | (s1, 0, rows) =>
    match readSome d v.scaleBase g s1 with
    | (s2, 0, sc) =>
      match readSome d v.t.auxBase (if v.fmt = 6 then cdiv g 2 else 0) s2 with
      | (s3, 0, zs) =>
        let x : Shard := ⟨rows, sc.map (·.toNat), if v.fmt = 6 then unpack 4 0 g zs else [], [], []⟩
        if v.grouped && v.t.aft == 2 then
          let u := secondView s d v
          match readRowsCodes d u rs s3 with
          | (s4, 0, rows2) =>
            match readSome d u.scaleBase g s4 with
            | (s5, 0, sc2) => (s5, eOK, { x with rows2 := rows2, scales2 := sc2.map (·.toNat) })
            | (s5, c, _) => (s5, c, no)
          | (s4, c, _) => (s4, c, no)
        else (s3, eOK, x)
      | (s3, c, _) => (s3, c, no)
    | (s2, c, _) => (s2, c, no)
  | (s1, c, _) => (s1, c, no)

/-- Writes shard `p` of DST: the p-th part of its highest used dimension (R338). -/
def shardWrite (d : DieId) (tk : Task) (src v : View) (p : Nat) (x : Shard) (s : State) : State × Nat :=
  let wtr : Writer := memWrite (.ce d)
  let n := src.t.rows
  let at_ (r : Nat) : Nat × Nat := if v.t.rank = 1 then (0, p * src.t.dim 0) else (p * n + r, 0)
  let g := groupCount src
  let put (v : View) (rows : List (List Nat)) (s : State) : State × Nat :=
    forUntil (fun e s => writeCodes wtr v (at_ e.2).1 (at_ e.2).2 e.1 s) rows.zipIdx s
  let bytesAt (a : Nat) (bs : List Byte) (s : State) : State × Nat := if bs.isEmpty then (s, eOK) else wtr a bs s
  match put v x.rows s with
  | (s1, 0) =>
    match bytesAt (v.scaleBase + p * g) (x.scales.map (BitVec.ofNat 8)) s1 with
    | (s2, 0) =>
      let a := v.t.auxBase + p * g / 2
      let zb' := if x.zps.isEmpty then [] else pack 4 (4 * (p * g % 2)) x.zps (peek s2 a (cdiv (p * g % 2 + x.zps.length) 2))
      match bytesAt a zb' s2 with
      | (s3, 0) =>
        let u := secondView s d v
        match put u x.rows2 s3 with
        | (s4, 0) =>
          match bytesAt (u.scaleBase + p * g) (x.scales2.map (BitVec.ofNat 8)) s4 with
          | (s5, 0) =>
            let sc (r i : Nat) : Nat := if v.grouped then x.scales.getD (src.group r i) 127 else 127
            let zp (r i : Nat) : Nat := if v.fmt = 6 then x.zps.getD (src.group r i) 0 else 0
            let es := x.rows.zipIdx.flatMap fun e => e.1.zipIdx.map fun c => (c.1, sc e.2 c.2, zp e.2 c.2)
            let cnt := { copyCnt v.fmt es with bad := (x.scales.filter (· == 0xFF)).length }
            (watchWrite d tk.frame v.t.watch cnt s5, eOK)
          | (s5, c) => (s5, c)
        | (s4, c) => (s4, c)
      | (s3, c) => (s3, c)
    | (s2, c) => (s2, c)
  | (s1, c) => (s1, c)

/-- The version a GATHER tags for W (R338). -/
def gatherVersion (s : State) (d : DieId) (tk : Task) : Nat :=
  if tk.ver 2 = 1 then s.dies[d].disp.attStep + 1 else (ventry s d (tk.tensor 2)).version

/-- RECORD and VERIFY of a shard (R340): the code the task faults with, or OK. -/
def gatherKeep (d : DieId) (tk : Task) (pos version : Nat) (digest : D) (s : State) : State × Nat :=
  let key := tk.bucket
  let f := tk.p 67 1
  let s1 :=
    if bit f 0 then
      tallyAdd (pgCE d) 11 1 (onCe d (fun c => { c with
        records := ⟨key, pos, version, digest⟩ :: c.records.filter fun r => !(r.key == key && r.pos == pos) }) s)
    else s
  if bit f 1 then
    let s2 := tallyAdd (pgCE d) 12 1 s1
    if s2.dies[d].ce.records.contains ⟨key, pos, version, digest⟩ then (s2, eOK)
    else (raise (pgCE d) 1 (tallyAdd (pgCE d) 13 1 s2), eGATHER_MISMATCH)
  else (s1, eOK)

/-- The highest used dimension of a tensor. -/
def Tensor.high (t : Tensor) : Nat := t.dim (t.rank - 1)

/-- Sends the bytes of a shard to position `p`, in messages of at most 8,192 bytes. DESIGN CHOICE: OFFSET and COUNT of a SHARD
count the bytes of the transfer, as the rules do not say how scales and AUX bytes are numbered. -/
def sendShardBytes (d : DieId) (t : Nat) (tk : Task) (version : Nat) (digest : D) (bs : List Byte) (p : Nat) (s : State) :
    State × Nat :=
  forUntil (fun k s => ceSend d 8 t (groupMember s d p) { ceBase s d tk.frame with
    bucket := tk.bucket, offset := k * 8192, count := min 8192 (bs.length - k * 8192), version := version
    digest := digest.toNat, data := (bs.drop (k * 8192)).take 8192 } s) (List.range (max 1 (cdiv bs.length 8192))) s

/-- GATHER's work. -/
def gatherWork (d : DieId) (t : Nat) (i : Img) (tk : Task) (s : State) : State × Nat :=
  let src := operView s d i tk 0 false
  let dst := operView s d i tk 1 true
  let q := ownPos s d
  match s.dies[d].ce.waiting.find? fun w => w.1 == t with
  | some w => (s, w.2)
  | none =>
    match shardRead d src s with
    | (s1, 0, x) =>
      let bs := shardBytes src x
      match shardWrite d tk src dst q x s1 with
      | (s2, 0) =>
        let s3 := onCe d (fun c => { c with shards := (t, q) :: c.shards }) s2
        match gatherKeep d tk q (gatherVersion s d tk) (crcA bs) s3 with
        | (s4, 0) =>
          forUntil (sendShardBytes d t tk (gatherVersion s d tk) (crcA bs) bs) ((positions s d).filter (· != q)) s4
        | (s4, c) => (s4, c)
      | (s2, c) => (s2, c)
    | (s1, c, _) => (s1, c)

/-- CE_GATHER (R338): BAD_DESCRIPTOR when DST's highest dimension is not GSIZE times SRC's. -/
def doCeGather (d : DieId) (t : Nat) (s : State) : State :=
  ceIssue d t 4 (fun _ _ _ => true)
    (fun s i tk => (readTensor s i (tk.tensor 1)).high != gsize s d * (readTensor s i (tk.tensor 0)).high)
    (gatherWork d t) s

/-- A GATHER faults: at once when it executes, or as it issues (R339). -/
def gatherFault (d : DieId) (t code : Nat) (s : State) : State :=
  if tstat s d t = .executing then taskFault d t code s
  else onCe d (fun c => { c with waiting := c.waiting ++ [(t, code)] }) s

/-- SHARD (R338, R339): a gathered shard; whole, it is written into the whole copy. -/
def doShard (d : DieId) (m : CeMsg) (s : State) : State :=
  ceTake d 8 m (fun s =>
    match activeImg s d with
    | none => ceRefuse d 8 eBAD_DESCRIPTOR m s
    | some i =>
      match (ceTasks s i 4).find? fun e => e.2.bucket == m.bucket && e.2.frame == m.frame with
      | none => ceRefuse d 8 eBAD_DESCRIPTOR m s
      | some (t, tk) =>
        if m.version ≠ gatherVersion s d tk then
          gatherFault d t eSTALE_VERSION (ceRefuse d 8 eSTALE_VERSION m s)
        else
          let src := operView s d i tk 0 false
          let total := shardLen src
          match addPart d 8 t m m.data m.data.length s with
          | (s1, p) =>
            let s2 := ceAck d 8 m (ceHold d 8 m s1)
            if p.n < total then s2
            else
              let x := shardParse src (sgetList zb p.bytes 0 total)
              match shardWrite d tk src (operView s d i tk 1 true) m.srcPos x s2 with
              | (s3, 0) =>
                let s4 := onCe d (fun c => { c with shards := (t, m.srcPos) :: c.shards }) s3
                match gatherKeep d tk m.srcPos m.version (BitVec.ofNat 64 m.digest) s4 with
                | (s5, 0) => s5
                | (s5, c) => gatherFault d t c s5
              | (s3, c) => gatherFault d t c s3) s

/-! ### Side records (R249, R250, R333, R334) -/

/-- The SIDE task of an image. -/
def sideTask (s : State) (i : Img) : Option (Nat × Task) := (ceTasks s i 5).head?

/-- Live dies whose images hold a SIDE, ascending. -/
def sideDies (s : State) : List DieId :=
  (liveDies s).filter fun d => (activeImg s d).any fun i => (sideTask s i).isSome

/-- A record with the die's own declaration and nothing counted. -/
def sideZero (s : State) (d : DieId) : SideRec := { sideForm s d with tokens := 0, counts := [] }

/-- Inserts a record by its key, ascending. -/
def sidePut (k : Nat) (r : SideRec) (l : List (Nat × SideRec)) : List (Nat × SideRec) :=
  (l.filter fun e => decide (e.1 < k)) ++ [(k, r)] ++ l.filter fun e => decide (k < e.1)

/-- Combines records in ascending key with the own declaration (R250). -/
def sideCombineAll (s : State) (d : DieId) (l : List (Nat × SideRec)) : SideRec :=
  l.foldl (fun a e => sideCombine a e.2) (sideZero s d)

/-- Sends a record in messages of at most 8,192 bytes (R333). -/
def sendSide (d : DieId) (op t dst : Nat) (dstDie : DieId) (frame : Nat) (r : SideRec) (s : State) : State × Nat :=
  let bs := sideBytes r
  let dest := if dst = ownMember s d then dstDie.val else 0
  forUntil (fun k s => ceSend d op t dst { ceBase s d frame with
    dstDie := dest, offset := k * 8192, count := min 8192 (bs.length - k * 8192)
    data := (bs.drop (k * 8192)).take 8192 } s) (List.range (cdiv bs.length 8192)) s

/-- The die holds the step's reduced bucket (R334). -/
def sideHold (d : DieId) (r : SideRec) (s : State) : State :=
  sf (pgCE d) CE_SIDE_MISMATCH (b2n r.mismatch) (sf (pgCE d) CE_SIDE_HELD 1
    (onDie d (fun x => { x with watch := { x.watch with bucket := some r } }) s))

/-- The reduced record reaches a package's tick die (R333): from a position-0 package it goes down the tree and to the
group; then to every live die of the package. -/
def sideDeliver (d : DieId) (frame : Nat) (r : SideRec) (s : State) : State :=
  let go (dst : Nat) (s : State) : State := (sendSide d 7 noTask dst 0 frame r s).1
  let s1 := if ownPos s d = 0 then
      forEach go (((positions s d).filter (· != 0)).map (groupMember s d)) (forEach (fun c s => go c.2 s) (treeChildren s d) s)
    else s
  let s2 := forEach (fun h s => (sendSide d 7 noTask (ownMember s d) h frame r s).1) ((liveDies s).filter (· != d)) s1
  sideHold d r s2

/-- Step 3 of R333: the group's record goes to the tree parent, and at the root it is delivered. -/
def sideUpSend (d : DieId) (frame : Nat) (all : SideRec) (s : State) : State :=
  match treeParent s d with
  | some par => (sendSide d 6 noTask par 0 frame all s).1
  | none => sideDeliver d frame all s

/-- Steps 1 to 3 of R333 on the tick die of a position-0 package, once the tick that ends the SIDE task's frame has passed. -/
def sideUp (d : DieId) (frame : Nat) (s : State) : State :=
  let ce := s.dies[d].ce
  let need := ((positions s d).map (groupMember s d)).filter fun m => !inE s d m
  let have_ (l : List (Nat × SideRec)) (m : Nat) : Bool := l.any fun e => e.1 == m
  if ce.upSent || !ce.sideGo || ownPos s d != 0 || !(need.all (have_ ce.memberSides)) ||
      !((treeChildren s d).all fun c => have_ ce.childSides c.2) then s
  else
    let grp := sideCombineAll s d (ce.memberSides.filter fun e => need.contains e.1)
    let all := ce.childSides.foldl (fun a e => sideCombine a e.2) grp
    let s1 := onCe d (fun c => { c with upSent := true }) s
    sideUpSend d frame all s1

/-- The package record cannot go (R311): the SIDE tasks whose records it carries fault. -/
def sideFail (code : Nat) (s : State) : State :=
  forEach (fun d s =>
    match (activeImg s d).bind (sideTask s) with
    | some (t, _) => if tstat s d t = .executing then taskFault d t code s else s
    | none => s) (sideDies s) s

/-- The tick die forms the package record once every live die with a SIDE has given its own (R333). -/
def sidePackage (d : DieId) (frame : Nat) (t : Nat) (s : State) : State × Nat :=
  let ce := s.dies[d].ce
  if ce.pkgSent || !((sideDies s).all fun h => ce.dieSides.any fun e => e.1 == h.val) then (s, eOK)
  else
    let r := sideCombineAll s d ce.dieSides
    let s1 := onCe d (fun c => { c with pkgSent := true }) s
    if ownPos s d = 0 then
      (sideUp d frame (onCe d (fun c => { c with memberSides := sidePut (ownMember s d) r c.memberSides }) s1), eOK)
    else if (routePort s d (groupMember s d 0) 0).isNone then (sideFail eNO_ROUTE s1, eOK)
    else sendSide d 6 t (groupMember s d 0) 0 frame r s1

/-- SIDE's work: the record is formed and given to the tick die. -/
def sideWork (d : DieId) (t : Nat) (tk : Task) (s : State) : State × Nat :=
  let r := sideForm s d
  let td := tickDie s d
  let s1 := tallyAdd (pgWATCH d) 4 1 s
  if td = d then sidePackage d tk.frame t (onCe d (fun c => { c with dieSides := sidePut d.val r c.dieSides }) s1)
  else sendSide d 6 t (ownMember s d) td tk.frame r s1

/-- Every task of a lower FRAME on the die has ended and delivered its samples (R249). -/
def sideReady (s : State) (d : DieId) (i : Img) (tk : Task) : Bool :=
  s.dies[d].shadow.isEmpty && (List.range i.tasks).all fun t =>
    decide (tk.frame ≤ (readTask s i t).frame) || (match tstat s d t with | .ended _ => true | _ => false)

/-- SIDE. -/
def doSide (d : DieId) (t : Nat) (s : State) : State :=
  ceIssue d t 5 (fun s i tk => sideReady s d i tk) (fun _ _ _ => false) (fun _ tk s => sideWork d t tk s) s

/-- SIDEWAIT (R334). -/
def doSidewait (d : DieId) (t : Nat) (s : State) : State :=
  ceIssue d t 6 (fun _ _ _ => true) (fun _ _ _ => false) (fun _ _ s => (s, eOK)) s

/-- SIDE_UP (R333): from a die of the package, from a member of the group, or from a child of column 0's tree. -/
def doSideUp (d : DieId) (m : CeMsg) (s : State) : State :=
  ceTake d 6 m (fun s =>
    match addPart d 6 0 m m.data m.data.length s with
    | (s1, p) =>
      let s2 := ceAck d 6 m (ceHold d 6 m s1)
      let n := 64 + 64 * leNat (sgetList zb p.bytes 16 2)
      if !p.head ∨ p.n < 64 ∨ p.n < n then s2
      else
        let r := sideParse (sgetList zb p.bytes 0 n)
        if m.srcMember = ownMember s d then
          (sidePackage d m.frame noTask (onCe d (fun c => { c with dieSides := sidePut m.srcDie r c.dieSides }) s2)).1
        else if fromChild s d m then
          sideUp d m.frame (onCe d (fun c => { c with childSides := sidePut m.srcMember r c.childSides }) s2)
        else sideUp d m.frame (onCe d (fun c => { c with memberSides := sidePut m.srcMember r c.memberSides }) s2)) s

/-- SIDE_DOWN (R333): the reduced bucket reaches the tick die of a package, or a die of it. -/
def doSideDown (d : DieId) (m : CeMsg) (s : State) : State :=
  ceTake d 7 m (fun s =>
    match addPart d 7 0 m m.data m.data.length s with
    | (s1, p) =>
      let s2 := ceAck d 7 m (ceHold d 7 m s1)
      let n := 64 + 64 * leNat (sgetList zb p.bytes 16 2)
      if !p.head ∨ p.n < 64 ∨ p.n < n then s2
      else
        let r := sideParse (sgetList zb p.bytes 0 n)
        if m.srcMember = ownMember s d then sideHold d r s2 else sideDeliver d m.frame r s2) s

/-! ### RESHARD (R343 to R346) -/

/-- An entry of a move list (R345). -/
structure MoveRow where
  src : Nat
  dst : Nat
  member : Nat
  die : Nat
  srcElem : Nat
  dstElem : Nat
  count : Nat
  deriving DecidableEq, Repr

/-- R345. -/
def moveRow (w : List W) : MoveRow :=
  let f (k : Nat) : Nat := (w.getD k 0).toNat
  { src := f 0 % 65536, dst := f 0 / 65536, member := f 1 % 4096, die := f 1 / 4096 % 4, srcElem := f 2 + f 3 % 256 * 2 ^ 32
    dstElem := f 4 + f 5 % 256 * 2 ^ 32, count := f 6 }

/-- Elements `e` to `e + n - 1` of a view in row-major order, as runs within a row: (row, first element, elements). -/
def elemRuns (v : View) : Nat → Nat → Nat → List (Nat × Nat × Nat)
  | 0, _, _ => []
  | fuel + 1, e, n =>
    if n = 0 ∨ v.t.dim 0 = 0 then [] else
    let k := min n (v.t.dim 0 - e % v.t.dim 0)
    (e / v.t.dim 0, e % v.t.dim 0, k) :: elemRuns v fuel (e + k) (n - k)

/-- Reads the codes of runs of elements. -/
def readRuns (d : DieId) (v : View) : List (Nat × Nat × Nat) → State → State × Nat × List Nat
  | [], s => (s, eOK, [])
  | r :: rs, s =>
    match ceCodes d v r.1 r.2.1 r.2.2 s with
    | (s1, 0, cs) =>
      match readRuns d v rs s1 with
      | (s2, 0, l) => (s2, eOK, cs ++ l)
      | (s2, c, _) => (s2, c, [])
    | (s1, c, _) => (s1, c, [])

/-- Writes codes to runs of elements. -/
def writeRuns (d : DieId) (v : View) : List (Nat × Nat × Nat) → List Nat → State → State × Nat
  | [], _, s => (s, eOK)
  | r :: rs, cs, s =>
    match writeCodes (memWrite (.ce d)) v r.1 r.2.1 (cs.take r.2.2) s with
    | (s1, 0) => writeRuns d v rs (cs.drop r.2.2) s1
    | (s1, c) => (s1, c)

/-- Elements of one MOVE message of a format: at most 8,192 bytes of data. -/
def moveChunk (fmt : Nat) : Nat := 8192 * 8 / max 1 (fmtBits fmt)

/-- The format and class of a moved tensor, which its destination compares with its own (R345). DESIGN CHOICE: they travel in bytes 32 and
33 of the header, the DIGEST of a SHARD, since R341 names no field of a MOVE for them. -/
def moveForm (x : Tensor) : Nat := x.fmt + 256 * x.cls

/-- Sends the elements of one move-list entry (R345). A source that is no weight or optimiser state, or a range outside it,
faults with BAD_VALUE as a mismatch at the destination does. -/
def moveSend (d : DieId) (t : Nat) (i : Img) (tk : Task) (mv : MoveRow) (s : State) : State × Nat :=
  let x := readTensor s i mv.src
  match weightOf x with
  | none => (s, eBAD_VALUE)
  | some w =>
    if i.tensors ≤ mv.src ∨ x.elems < mv.srcElem + mv.count ∨ mv.count = 0 then (s, eBAD_VALUE) else
    let v := viewOf s d x (slotAddr s i x (b2n (ventry s d w).cur))
    let per := moveChunk v.fmt
    let b := fmtBits v.fmt
    let r := forUntil (fun k s =>
      let n := min per (mv.count - k * per)
      match readRuns d v (elemRuns v (n + 1) (mv.srcElem + k * per) n) s with
      | (s1, 0, cs) =>
        ceSend d 9 t mv.member { ceBase s1 d tk.frame with
          dstDie := mv.die, epoch := s.dies[d].ce.armEpoch, bucket := mv.dst, offset := mv.dstElem + k * per
          count := n, version := (ventry s d w).version, digest := moveForm x
          data := pack b 0 cs (List.replicate (cdiv (n * b) 8) 0) } s1
      | (s1, c, _) => (s1, c)) (List.range (cdiv mv.count per)) s
    match r with
    | (s1, 0) => (tallyQty (pgCE d) 14 1048576 mv.count s1, eOK)
    | (s1, c) => (s1, c)

/-- RESHARD's work: on an unarmed die it moves nothing. -/
def reshardWork (d : DieId) (t : Nat) (i : Img) (tk : Task) (s : State) : State × Nat :=
  if gf s (pgCE d) CE_STATE_LSTATE ≠ 2 then (s, eOK) else
  let list := readTensor s i (tk.tensor 0)
  forUntil (fun r s =>
    match readWords d ((viewOf s d list list.base).rowAddr r) 8 s with
    | (s1, 0, ws) => moveSend d t i tk (moveRow ws) s1
    | (s1, c, _) => (s1, c)) (List.range list.rows) s

/-- RESHARD. -/
def doReshard (d : DieId) (t : Nat) (s : State) : State :=
  ceIssue d t 7 (fun _ _ _ => true) (fun _ _ _ => false) (reshardWork d t) s

/-- MOVE (R345): moved elements enter the next slot of the destination, whose entry is marked re-shard written. -/
def doMove (d : DieId) (m : CeMsg) (s : State) : State :=
  ceTake d 9 m (fun s =>
    let no (s : State) : State := ceRefuse d 9 eBAD_VALUE m (tallyAdd (pgCE d) 15 1 s)
    if gf s (pgCE d) CE_STATE_LSTATE = 0 then no s else
    match activeImg s d with
    | none => no s
    | some i =>
      let x := readTensor s i m.bucket
      match weightOf x with
      | none => no s
      | some w =>
        let v := viewOf s d x (slotAddr s i x (1 - b2n (ventry s d w).cur))
        let b := fmtBits v.fmt
        if i.tensors ≤ m.bucket ∨ x.elems < m.offset + m.count ∨ m.data.length < cdiv (m.count * b) 8 ∨
            m.digest ≠ moveForm x then no s
        else
          let cs := unpack b 0 m.count m.data
          match writeRuns d v (elemRuns v (m.count + 1) m.offset m.count) cs s with
          | (s1, 0) =>
            let s2 := onDie d (fun x =>
              let e := sget zv x.vtab w
              { x with vtab := sset zv x.vtab w { e with reshard := true, moved := max e.moved m.version } })
              (watchWrite d m.frame x.watch (copyCnt v.fmt (cs.map fun c => (c, 127, 0))) s1)
            ceAck d 9 m (ceHold d 9 m s2)
          | (s1, _) => s1) s

/-! ### Answers and time-outs (R327, R328, R337) -/

/-- Whether an answer names an outstanding message (R341). -/
def answers (m : CeMsg) (o : CeOut) : Bool :=
  o.op == m.ansOp && o.msg.att == m.att && o.msg.frame == m.frame && o.msg.bucket == m.bucket &&
    o.msg.offset % 2 ^ 32 == m.offset % 2 ^ 32 && o.dst == m.srcMember &&
    (o.msg.dstDie == m.srcDie || ((o.op == 6 || o.op == 7) && o.msg.srcMember != o.dst))

/-- Whether an answer is dropped under R342; an answer to a MOVE is not held to the attempt. -/
def answerDrop (s : State) (d : DieId) (m : CeMsg) : Option Nat :=
  if m.epoch ≠ gf s (pgCE d) CE_EPOCH_V then some 2
  else if m.ansOp ≠ 9 ∧ m.att ≠ s.dies[d].disp.att then some 3 else none

/-- Takes an answer: dropped and counted, or matched with the message it answers. -/
def takeAnswer (d : DieId) (m : CeMsg) (f : CeOut → State → State) (s : State) : State :=
  if !dieLive s d then s else
  match answerDrop s d m with
  | some k => let s1 := tallyAdd (pgCE d) k 1 s; if k = 2 then raise (pgCE d) 5 s1 else s1
  | none =>
    match s.dies[d].ce.out.find? (answers m) with
    | none => s
    | some o => f o (onCe d (fun c => { c with out := c.out.erase o }) s)

/-- ACK. -/
def doAck (d : DieId) (m : CeMsg) (s : State) : State := takeAnswer d m (fun _ s => s) s

/-- REFUSE (R327): the sending task faults with the reason. -/
def doRefuse (d : DieId) (m : CeMsg) (s : State) : State :=
  takeAnswer d m (fun o s => if tstat s d o.task = .executing then taskFault d o.task m.reason s else s) s

/-- CE_ACK_TIMEOUT (R337): the n-th unacknowledged message goes again, with RESEND set. Without a route it stays
unacknowledged. -/
def doCeAckTimeout (d : DieId) (n : Nat) (s : State) : State :=
  if !dieLive s d || stopped s then s else
  match s.dies[d].ce.out[n]? with
  | none => s
  | some o =>
    match ceTransmit d o.op o.dst { o.msg with resend := true } s with
    | (s1, 0) => tallyAdd (pgCE d) 6 1 (onCe d (fun c => { c with out := c.out.set n { o with lost := false } }) s1)
    | (s1, _) => s1

/-! ### Ends (R328, R332 to R334, R338) -/

/-- Whether some flit that a port still holds, waiting or not acknowledged by the link peer, is one. -/
def portsHold (s : State) (f : Flit → Bool) : Bool :=
  allPorts.any fun p => (s.ports[p].replay.any fun k => f k.flit) || (s.ports[p].txq.toList.flatMap id).any f

/-- An OP that is a contribution up to the end of its frame (R328): CONTRIB, CHECK and SIDE_UP. -/
def contribOp (op : Nat) : Bool := op == 1 || op == 2 || op == 6

/-- Whether a contribution of this package for frame `f` of the attempt has not left its ports (R328): a port holds a flit of it, or a port
has dropped one (R308). -/
def contribHeld (s : State) (d : DieId) (f : Nat) : Bool :=
  let own (x : Flit) : Bool := match x.use with
    | .ce i => contribOp i.op && i.src == ownMember s d && i.frame == f && i.att == s.dies[d].disp.att
    | _ => false
  portsHold s own || (liveDies s).any fun h => s.dies[h].ce.out.any fun o => contribOp o.op && o.msg.frame == f && o.lost

/-- Whether a message that waits for its acknowledgement has left its ports, or has no route (R328). -/
def ceGone (s : State) (d : DieId) (o : CeOut) : Bool :=
  o.dst == ownMember s d || (!o.lost && !portsHold s fun f => f.carries o) || (routePort s d o.dst (ceFlow o.op o.msg)).isNone

/-- Whether task `t` has unacknowledged messages. -/
def ceOwes (s : State) (d : DieId) (t : Nat) : Bool := s.dies[d].ce.out.any fun o => o.task == t && o.op != 7

/-- Whether a REDUCE or SIDE may end: acknowledged, or past its frame's tick with every message gone from its ports (R328). -/
def contribDone (s : State) (d : DieId) (t : Nat) (tk : Task) : Bool :=
  !ceOwes s d t || (frameOver s d tk.frame && (s.dies[d].ce.out.filter fun o => o.task == t).all (ceGone s d))

/-- The package record's messages that the position-0 package has not acknowledged (R333). -/
def pkgOwed (s : State) (d : DieId) : List CeOut :=
  s.dies[d].ce.out.filter fun o => o.op == 6 && o.dst != ownMember s d && o.dst == groupMember s d 0

/-- Whether an executing CE task has what its end needs. -/
def ceDone (s : State) (d : DieId) (t : Nat) (tk : Task) : Bool :=
  let ce := s.dies[d].ce
  match tk.opcode with
  | 1 => contribDone s d t tk
  | 3 => ce.treeDone.contains t && !(ce.out.any fun o => o.task == t && o.op == 5)
  | 4 => (positions s d).all (fun p => ce.shards.contains (t, p)) && !ceOwes s d t
  | 5 =>
    let td := tickDie s d
    contribDone s d t tk && (s.dies[td].ce.pkgSent || frameOver s d tk.frame) &&
      ((pkgOwed s td).isEmpty || (frameOver s d tk.frame && (pkgOwed s td).all (ceGone s td)))
  | 6 => s.dies[d].watch.bucket.isSome
  | 7 => !ceOwes s d t
  | _ => true

/-- A GATHER that has written a next slot feeds its CRC pair with the rows in ascending order (R351). Shards come in any order, so the pair is
formed over the whole copy as the GATHER ends. -/
def gatherFeed (d : DieId) (t : Nat) (v : View) (s : State) : State :=
  forEach (fun r s => crcFeed d t v (v.rowAddr r) v.rowBytes s) (List.range v.t.rows) s

/-- The CE's side of a task's completion: messages that no longer hold the task are forgotten. -/
def ceComplete (d : DieId) (i : Img) (tk : Task) (t : Nat) (s : State) : State :=
  let s1 := onCe d (fun c => { c with out := c.out.filter fun o => o.task != t || o.op == 7 }) s
  if tk.opcode = 4 then gatherFeed d t (operView s d i tk 1 true) s1 else s1

/-! ### Re-shard state at ticks and writes (R344, R346) -/

/-- RESHARD_ARM (R344): the code of a rejected request, or OK and the armed state. -/
def reshardArm (d : DieId) (epoch : Nat) (s : State) : State × Nat :=
  let p := pgCE d
  if epoch ≠ (gf s p CE_EPOCH_V + 1) % 65536 then (s, eBAD_VALUE)
  else if gf s p CE_STATE_OUTSTANDING = 1 then (s, eLAYOUT_BUSY)
  else
    (onCe d (fun c => { c with armEpoch := epoch }) (sf p CE_RESHARD_EPOCH epoch (sf p CE_RESHARD_ARMED 1
      (if gf s p CE_STATE_LSTATE = 0 then sf p CE_STATE_LSTATE 1 s else s))), eOK)

/-- Marks of re-shard writes are cleared. -/
def clearMarks (d : DieId) (s : State) : State :=
  mapEntries d (s.dies[d].vtab.map (·.1)) (fun e => { e with reshard := false, moved := 0 }) s

/-- RESHARD_DISARM (R346): an armed request is withdrawn. In MOVING the table has no such event. -/
def reshardDisarm (d : DieId) (s : State) : State :=
  let p := pgCE d
  if gf s p CE_STATE_LSTATE = 1 then sf p CE_STATE_LSTATE 0 (sf p CE_RESHARD_ARMED 0 s) else s

/-- A re-shard frame opens (R346). -/
def reshardOpen (d : DieId) (s : State) : State :=
  if gf s (pgCE d) CE_STATE_LSTATE = 1 then sf (pgCE d) CE_STATE_LSTATE 2 s else s

/-- RESHARD_END (R346): the tick that ends a re-shard frame carries `epoch`, FAILED and HOLD. DEDUCED: a tick that carries the armed
epoch without FAILED completes the re-shard even when STOP made it hold, since every member takes the epoch from it. -/
def reshardEnd (d : DieId) (epoch : Nat) (failed hold : Bool) (s : State) : State :=
  let p := pgCE d
  if gf s p CE_STATE_LSTATE ≠ 2 then s
  else if !failed && epoch == s.dies[d].ce.armEpoch then
    let s1 := mapEntries d (s.dies[d].vtab.map (·.1)) (fun e =>
      if e.reshard then { e with cur := !e.cur, version := e.moved, reshard := false, moved := 0 } else e) s
    raise p 3 (loftFlushAll d (sf p CE_RESHARD_ARMED 0 (sf p CE_STATE_LSTATE 0 s1)))
  else if failed || hold then raise p 4 (sf p CE_STATE_LSTATE 1 (clearMarks d s))
  else s

/-- The step's side buckets leave the die: no bucket of an attempt outlives it (R250, R258). -/
def dropBuckets (d : DieId) (s : State) : State :=
  sf (pgCE d) CE_SIDE_MISMATCH 0 (sf (pgCE d) CE_SIDE_HELD 0
    (onDie d (fun x => { x with watch := { x.watch with bucket := none } }) s))

/-- The CE at a step start tick (R329, R337, R340): nothing of the last attempt remains, and an armed epoch stays armed (R346). -/
def ceStepStart (d : DieId) (exclFrame : Nat) (s : State) : State :=
  let p := pgCE d
  sf p CE_STATE_EXCL_FRAME exclFrame
    (wr (p + CE_FAULT_CODE_V.off) 0 (wr (p + CE_FAULT_TASK.off) 0 (dropBuckets d (onCe d (fun c => { Ce.reset with armEpoch := c.armEpoch }) s))))

/-! ### Meanings of the commands -/

/-- REDUCE (R326). -/
def execReduce (d : DieId) (task : Nat) (s : State) : Host.Outcome State Fault Refusal :=
  .next (dieStep d (doReduce d task) s)
/-- FOLD (R331). -/
def execFold (d : DieId) (task : Nat) (s : State) : Host.Outcome State Fault Refusal :=
  .next (dieStep d (doFold d task) s)
/-- TREE (R332). -/
def execTree (d : DieId) (task : Nat) (s : State) : Host.Outcome State Fault Refusal :=
  .next (dieStep d (doTree d task) s)
/-- CE_GATHER (R338). -/
def execCeGather (d : DieId) (task : Nat) (s : State) : Host.Outcome State Fault Refusal :=
  .next (dieStep d (doCeGather d task) s)
/-- SIDE (R333). -/
def execSide (d : DieId) (task : Nat) (s : State) : Host.Outcome State Fault Refusal :=
  .next (dieStep d (doSide d task) s)
/-- SIDEWAIT (R334). -/
def execSidewait (d : DieId) (task : Nat) (s : State) : Host.Outcome State Fault Refusal :=
  .next (dieStep d (doSidewait d task) s)
/-- RESHARD (R345). -/
def execReshard (d : DieId) (task : Nat) (s : State) : Host.Outcome State Fault Refusal :=
  .next (dieStep d (doReshard d task) s)
/-- CONTRIB (R327). -/
def execContrib (d : DieId) (msg : CeMsg) (s : State) : Host.Outcome State Fault Refusal :=
  .next (dieStep d (doContrib d msg) s)
/-- CHECK (R335). -/
def execCheck (d : DieId) (msg : CeMsg) (s : State) : Host.Outcome State Fault Refusal :=
  .next (dieStep d (doCheck d msg) s)
/-- ACK (R328). -/
def execAck (d : DieId) (msg : CeMsg) (s : State) : Host.Outcome State Fault Refusal :=
  .next (dieStep d (doAck d msg) s)
/-- TREE_UP (R332). -/
def execTreeUp (d : DieId) (msg : CeMsg) (s : State) : Host.Outcome State Fault Refusal :=
  .next (dieStep d (doTreeUp d msg) s)
/-- TREE_DOWN (R332). -/
def execTreeDown (d : DieId) (msg : CeMsg) (s : State) : Host.Outcome State Fault Refusal :=
  .next (dieStep d (doTreeDown d msg) s)
/-- SIDE_UP (R333). -/
def execSideUp (d : DieId) (msg : CeMsg) (s : State) : Host.Outcome State Fault Refusal :=
  .next (dieStep d (doSideUp d msg) s)
/-- SIDE_DOWN (R333). -/
def execSideDown (d : DieId) (msg : CeMsg) (s : State) : Host.Outcome State Fault Refusal :=
  .next (dieStep d (doSideDown d msg) s)
/-- SHARD (R339). -/
def execShard (d : DieId) (msg : CeMsg) (s : State) : Host.Outcome State Fault Refusal :=
  .next (dieStep d (doShard d msg) s)
/-- MOVE (R345). -/
def execMove (d : DieId) (msg : CeMsg) (s : State) : Host.Outcome State Fault Refusal :=
  .next (dieStep d (doMove d msg) s)
/-- REFUSE (R327). -/
def execRefuse (d : DieId) (msg : CeMsg) (s : State) : Host.Outcome State Fault Refusal :=
  .next (dieStep d (doRefuse d msg) s)
/-- CE_ACK_TIMEOUT (R337). -/
def execCeAckTimeout (d : DieId) (n : Nat) (s : State) : Host.Outcome State Fault Refusal :=
  .next (dieStep d (doCeAckTimeout d n) s)

end Sys2Proof.Machine
end

