-- ==== Sys2Proof/Machine/Stairway.lean ====
section
/-!
DEFINITION. Stairway.lean: the stairway sides (R389 to R397), the loss, reset and rejoin of a die (R398 to R401), and the hatch
modules (R402, R403).
-/
namespace Sys2Proof.Machine

/-! ### Sides -/

/-- EP of a side. -/
def swEp (s : State) (d : DieId) (e : SideId) : Nat := gf s (pgSWof d e) SW_EPOCH_OWN

/-- Epoch `p` is higher than epoch `q` (R393). -/
def epHigher (p q : Nat) : Bool :=
  let n := (p % 65536 + 65536 - q % 65536) % 65536
  decide (1 ≤ n) && decide (n ≤ 32767)

/-- The advert a side sends: its epoch, state, and AW once it has one, else RXW (R393). -/
def advertOf (s : State) (d : DieId) (e : SideId) : Advert :=
  let a := s.dies[d].sides[e].aw
  ⟨swEp s d e, swState s d e, a.isSome, a.getD (rd s (pgSWof d e + SW_RXWIDTH_RXW.off))⟩

/-- Sends an advert. -/
def sendAdvert (d : DieId) (e : SideId) (s : State) : State := emit (.advert d e (advertOf s d e)) s

/-- A side enters a state: leaving ACTIVE raises SW_DOWN, and every change sends an advert (R393, R407). DEDUCED: SW_WIDTH shows the width
word in force (R405), so it and FLIGHTS are 0 from DOWN, CAL or FAILED until the sides agree on one. -/
def swEnter (d : DieId) (e : SideId) (st : Nat) (s : State) : State :=
  let p := pgSWof d e
  let s1 := if swState s d e = 5 ∧ st ≠ 5 then raise p 1 s else s
  let s2 := if st ≤ 1 ∨ st = 6 then wr (p + SW_WIDTH_AW.off) 0 (sf p SW_STATE_FLIGHTS 0 s1) else s1
  sendAdvert d e (sf p SW_STATE_STATE st s2)

/-- Sets a side's cause. -/
def swCause (d : DieId) (e : SideId) (c : Nat) (s : State) : State := sf (pgSWof d e) SW_STATE_CAUSE c s

/-- What a training forgets of the one before. -/
def swForget (d : DieId) (e : SideId) (s : State) : State :=
  onSide d e (fun x => { x with peerRxw := none, peerAw := none, aw := none }) s

/-- A side starts training on its own (R393): EP advances by 1. A side that leaves FAILED counts its tries anew. -/
def swTrain (d : DieId) (e : SideId) (cause : Nat) (s : State) : State :=
  let p := pgSWof d e
  let s1 := if swState s d e = 6 then sf p SW_STATE_TRIES 0 s else s
  swEnter d e 1 (swCause d e cause (tallyAdd p 4 1 (sf p SW_EPOCH_OWN (swEp s d e + 1) (swForget d e s1))))

/-- A side fails in training (R394): MISMATCH, or NO_WIDTH when no flight can work. -/
def swFailWidth (d : DieId) (e : SideId) (s : State) : State :=
  let p := pgSWof d e
  let none_ := rd s (p + SW_RXWIDTH_RXW.off) == 0 || s.dies[d].sides[e].aw == some 0
  swEnter d e 6 (swCause d e (if none_ then 4 else 5) (raise p 3 (blockErr p eWIDTH_MISMATCH s)))

/-- A width word from the codes of flights 0 to 15. -/
def widthWord (f : Nat → Nat) : W :=
  BitVec.ofNat 32 ((List.range 16).foldl (fun acc k => acc + f k * 4 ^ k) 0)

/-- Width code of a flight from its failing wires (R391). -/
def codeOf (fails : List Nat) : Nat :=
  let w := 68 - ((List.range 68).filter fun k => fails.contains k).length
  if fails.contains 68 ∨ fails.contains 69 ∨ w < 32 then 0 else if 64 ≤ w then 2 else 1

/-- Own and peer AW are compared (R394): MEASURE when equal and not zero; else another attempt, and FAILED at the eighth. -/
def swCompare (d : DieId) (e : SideId) (s : State) : State :=
  let x := s.dies[d].sides[e]
  let p := pgSWof d e
  match x.aw, x.peerAw with
  | some a, some b =>
    if a = b ∧ a ≠ 0 then swEnter d e 4 s
    else
      let n := gf s p SW_STATE_TRIES + 1
      let s1 := sf p SW_STATE_TRIES n (tallyAdd p 6 1 s)
      if 8 ≤ n then swFailWidth d e s1 else swEnter d e 1 (swForget d e s1)
  | _, _ => s

/-- Both RXW words are known: AW is the lower code per flight, and is sent (R394). -/
def swAgree (d : DieId) (e : SideId) (s : State) : State :=
  let p := pgSWof d e
  let x := s.dies[d].sides[e]
  match x.peerRxw with
  | none => s
  | some w =>
    let own := rd s (p + SW_RXWIDTH_RXW.off)
    let aw := widthWord fun f => min (flightCode own f) (flightCode w f)
    let n := ((List.range 16).filter fun f => flightCode aw f != 0).length
    let s1 := wr (p + SW_WIDTH_AW.off) aw (sf p SW_STATE_FLIGHTS n (onSide d e (fun x => { x with aw := some aw }) s))
    swCompare d e (sendAdvert d e s1)

/-- A side takes an advert (R394): a higher epoch restarts it at the peer's epoch; a word at the same epoch goes into the agreement. -/
def takeAdvert (d : DieId) (e : SideId) (a : Advert) (s : State) : State :=
  let p := pgSWof d e
  let keep (s : State) : State :=
    onSide d e (fun x => if a.isAw then { x with peerAw := some a.width } else { x with peerRxw := some a.width }) s
  let st := swState s d e
  let s1 := sf p SW_EPOCH_PEER a.ep s
  if st = 6 then s1
  else if epHigher a.ep (swEp s d e) then
    keep (swEnter d e 1 (swCause d e 3 (tallyAdd p 5 1 (sf p SW_EPOCH_OWN a.ep (swForget d e s1)))))
  else if st = 0 then keep (swEnter d e 1 (swForget d e s1))
  else if a.ep ≠ swEp s d e then s1
  else
    let s2 := if a.isAw ∨ 0 < a.state then keep s1 else s1
    if st = 3 then (if a.isAw then swCompare d e s2 else if (s2.dies[d].sides[e].aw).isNone then swAgree d e s2 else s2)
    else s2

/-- ADVERT_SEND (R393). -/
def doAdvertSend (d : DieId) (e : SideId) (s : State) : State := if swState s d e = 5 then s else sendAdvert d e s

/-- The wires' test sets a side's widths, and RXW is advertised (R391, R394). -/
def calDone (d : DieId) (e : SideId) (fails : List (List Nat)) (s : State) : State :=
  if swState s d e ≠ 1 then s else
  let p := pgSWof d e
  let w := widthWord fun f => codeOf (fails.getD f [])
  let s1 := wr (p + SW_RXWIDTH_RXW.off) w (onSide d e (fun x => { x with fails := Vector.ofFn fun f => fails.getD f.val [] }) s)
  swAgree d e (swEnter d e 3 s1)

/-- ERROR_LIMIT (R395). -/
def doErrorLimit (d : DieId) (e : SideId) (s : State) : State :=
  if swState s d e = 5 ∧ gf s (pgSWof d e) SW_CTRL_AUTO = 1 then swTrain d e 2 s else s

/-- SW_CTRL.RETRAIN (R394): training starts; a fenced side stays as it is. -/
def swRetrainAction (d : DieId) (e : SideId) (s : State) : State :=
  if gf s (pgSWof d e) FENCE_REQ = 1 then s else swTrain d e 1 s

/-- SW_REPAIR of the selected flight (R406); a wire number above 63 shows its low six bits. -/
def swRepair (s : State) (d : DieId) (e : SideId) (flight : Nat) : W :=
  let fs := ((s.dies[d].sides[e].fails.toList.getD flight []).filter fun k => decide (k < 68)).mergeSort (· ≤ ·)
  let w (k : Nat) : Nat := fs.getD k 0 % 64
  let n := min 4 fs.length
  BitVec.ofNat 32 (w 0 + w 1 * 2 ^ 6 + w 2 * 2 ^ 12 + w 3 * 2 ^ 18 + (2 ^ n - 1) * 2 ^ 24 +
    codeOf (s.dies[d].sides[e].fails.toList.getD flight []) * 2 ^ 28 + b2n (decide (4 < fs.length)) * 2 ^ 30)

/-- A unit of a message for another die goes on over the side across (R25): the FIRST unit's header names the destination. -/
def swOnward (d : DieId) (e : SideId) (u : SwUnit) (s : State) : State :=
  let t := u.track.toNat
  let c := t / 2 ^ 12 % 4
  let first := bit t 14
  let on := if first then Config.swDest u.data != d else s.dies[d].sides[e].onward.toList.getD c false
  let s1 := onSide d e (fun x => { x with onward := x.onward.setIfInBounds c on }) s
  if on then
    tallyQty (pgSWof d (1 - e)) 7 1048576 1 (swPump d (1 - e) (swQueue d (1 - e) [⟨c, first, bit t 15, 0, u.data⟩] s1))
  else s1

/-- A unit in sequence is accepted: the side across need not keep it, and may send on (R395). -/
def swAccept (d : DieId) (e : SideId) (flight : Fin 16) (u : SwUnit) (s : State) : State :=
  let want := s.dies[d].sides[e].rxSeq[flight]
  let s1 := tallyQty (pgSWof d e) 1 1048576 1 (onSide d e (fun x => { x with
    rxSeq := x.rxSeq.set flight ((want + 1) % 4096), seeking := x.seeking.set flight false }) s)
  swPump (across d e) (1 - e) (swAck (across d e) (1 - e) flight want (swOnward d e u s1))

/-- A side asks for a resend from the sequence number it wants, and the side across resends what it holds from there, in order (R395). -/
def swAsk (d : DieId) (e : SideId) (flight : Fin 16) (s : State) : State :=
  let want := s.dies[d].sides[e].rxSeq[flight]
  let s1 := emit (.swNak d e flight.val want) (onSide d e (fun x => { x with seeking := x.seeking.set flight true }) s)
  if edgeUp s d e then swResend (across d e) (1 - e) flight want s1 else s1

/-- STAIRWAY_UNIT_RECEIVE (R395): a unit whose CRC fails, or that leaves a gap, is discarded, and a resend is asked for. -/
def doStairwayUnitReceive (d : DieId) (e : SideId) (flight : Fin 16) (u : SwUnit) (s : State) : State :=
  let p := pgSWof d e
  if swState s d e ≠ 5 ∨ flightCode (rd s (p + SW_WIDTH_AW.off)) flight.val = 0 then s else
  let x := s.dies[d].sides[e]
  let t := u.track.toNat
  let want := x.rxSeq[flight]
  if (crc16 (u.data ++ leBytes 2 t)).toNat ≠ t / 65536 then swAsk d e flight (tallyAdd p 2 1 s)
  else if t % 4096 = want then swAccept d e flight u s
  else if !x.seeking[flight] && decide ((t % 4096 + 4096 - want) % 4096 < 2048) then swAsk d e flight s
  else s

/-! ### Edges, routes and cut-off dies (R26, R27, R397) -/

/-- The diagonal route of die `d`: through the clockwise neighbour (0) or the anticlockwise one (1). A failed edge between live dies on
the route asked for sends it the other way (R397); the loss of a die on it does not (R27). -/
def diagRoute (s : State) (d : DieId) (want : Nat) : Nat :=
  let cut (v : Nat) : Bool :=
    if v = 0 then edgeCut s d 0 || edgeCut s (cwDie d) 0 else edgeCut s d 1 || edgeCut s (ccwDie d) 1
  if cut want && !cut (1 - want) then 1 - want else want

/-- The route in use is set again on every live die. -/
def reroute (s : State) : State :=
  forEach (fun d s => sf (pgTOPO d) TOPO_ROUTE_DIAG_ACTIVE (diagRoute s d (gf s (pgTOPO d) TOPO_ROUTE_DIAG_ACTIVE)) s)
    (liveDies s) s

/-- A die's view of the others (R27, R33): the dies it reaches over working edges and live dies, and the lost ones. -/
def topoDies (s : State) (d : DieId) : Nat × Nat :=
  let mask (f : DieId → Bool) : Nat := allDies.foldl (fun n h => n + b2n (f h) * 2 ^ h.val) 0
  (mask (reaches s d).contains, mask fun h => h != d && !dieLive s h)

/-- Every live die's TOPO_DIES follows the steward's view. -/
def retopo (s : State) : State :=
  forEach (fun d s => sf (pgTOPO d) TOPO_DIES_LOST (topoDies s d).2 (sf (pgTOPO d) TOPO_DIES_REACH (topoDies s d).1 s))
    (liveDies s) s

/-! ### The loss of a die (R398 to R401) -/

/-- The sides that face a die declared lost leave ACTIVE: DEDUCED, with CAUSE PEER_LOST, as on a reset notice. A die that has lost its clock
or its rail forwards no clock, so a side that was ACTIVE raises PEER_DROP (R398). -/
def facingLost (p : DieId) (cause : Nat) (s : State) : State :=
  forEach (fun (x : DieId × SideId) s =>
    if !dieLive s x.1 || swState s x.1 x.2 == 6 then s
    else
      let s1 := if swState s x.1 x.2 = 5 ∧ (cause = 3 ∨ cause = 4) then raise (pgSWof x.1 x.2) 4 s else s
      swClear x.1 x.2 (swEnter x.1 x.2 0 (swCause x.1 x.2 7 (swForget x.1 x.2 s1)))) [(ccwDie p, 0), (cwDie p, 1)] s

/-- The half of its working region that the steward runs from, once a die is gone (R21). DESIGN CHOICE: with both dies of its halves gone the
rule says nothing, and the steward keeps what it has. -/
def stewardHalf (s : State) : Fin 2 :=
  if s.stw.half = 0 then (if !dieLive s 0 && dieLive s 2 then 1 else 0)
  else if !dieLive s 2 && dieLive s 0 then 0 else 1

/-- A die's control core is no longer released (R34): the die is lost or in reset, and its rejoin releases it again (R380). -/
def unrelease (h : DieId) (s : State) : State :=
  let v := gf s pgPKG PKG_RELEASE_RELEASED
  if bit v h.val then sf pgPKG PKG_RELEASE_RELEASED (v - 2 ^ h.val) s else s

/-! ### The hatch (R402, R403) -/

/-- Acts on the two pages of a die's hatch: the steward's and the die's. -/
def bothHatch (h : DieId) (g : Nat → State → State) (s : State) : State := g (pgHTSof h) (g (pgHT h) s)

/-- MOD0 and MOD1 of a hatch. -/
def modFld (m : Fin 2) : Fld := if m = 0 then HT_STATE_MOD0 else HT_STATE_MOD1

/-- A module of a hatch enters a state; one that leaves ACTIVE raises HT_DOWN (R408, R409). -/
def modEnter (h : DieId) (st : Nat) (m : Fin 2) (s : State) : State :=
  let enter (p : Nat) (s : State) : State :=
    let s1 := sf p (modFld m) st s
    if gf s p (modFld m) = 5 ∧ st ≠ 5 then raise p 0 s1 else s1
  bothHatch h enter s

/-- The hatch of a die that resets has no module up and no detour. -/
def hatchDown (h : DieId) (s : State) : State :=
  bothHatch h (fun p s => sf p HT_STATE_VIA 0 (sf p HT_STATE_DETOUR 0 s)) (forEach (modEnter h 0) [0, 1] s)

/-- The modules of a hatch train (R402): one whose training fails is FAILED (R403). -/
def hatchTrain (h : DieId) (s : State) : State :=
  forEach (fun m s => modEnter h (if s.stw.env.hatchFail.contains (h.val, m.val) then 6 else 5) m s) [0, 1] s

/-- The live neighbour whose hatch can take the traffic of a die whose own has failed, while the stairway between them runs (R403). -/
def hatchVia (s : State) (h : DieId) : Option DieId :=
  let up (v : DieId) : Bool := dieLive s v && !(gf s (pgHTSof v) HT_STATE_MOD0 == 6 && gf s (pgHTSof v) HT_STATE_MOD1 == 6)
  if up (cwDie h) && swState s h 0 == 5 then some (cwDie h)
  else if up (ccwDie h) && swState s h 1 == 5 then some (ccwDie h) else none

/-- The hatch of a live die has failed: its traffic goes by a neighbour, or by none. -/
def setDetour (h : DieId) (s : State) : State :=
  match hatchVia s h with
  | some v => bothHatch h (fun p s => raise p 1 (sf p HT_STATE_VIA v.val (sf p HT_STATE_DETOUR 1 s))) s
  | none => bothHatch h (fun p s => sf p HT_STATE_DETOUR 0 s) s

/-- Detours through a die that is gone start anew through the other neighbour. -/
def redetour (p : DieId) (s : State) : State :=
  forEach (fun h s => if gf s (pgHTSof h) HT_STATE_DETOUR = 1 ∧ gf s (pgHTSof h) HT_STATE_VIA = p.val then setDetour h s else s)
    (liveDies s) s

/-- DIE_LOST (R399, R401): the steward declares die `p` lost, and every live die acts on it. A request to `p`, or on its way through `p`, ends
with DIE_LOST (R27). -/
def declareLost (p : DieId) (cause : Nat) (warm : Bool) (s : State) : State :=
  if !dieLive s p then s else
  let h := pgHTSof p
  let s0 := unrelease p (sf h HTS_DIE_LOSS_CAUSE cause (sf h HTS_DIE_WARM (b2n warm) (sf h HTS_DIE_STATE 3 s)))
  let s1 := { s0 with stw := { s0.stw with half := stewardHalf s0 } }
  let gone (r : LineReq) : Bool := homeDie r.addr == p || r.via.contains p
  let act (d : DieId) (s : State) : State :=
    failOpen d eDIE_LOST (loftDropHome d p (onDie d (fun x => { x with lineReqs := x.lineReqs.filter fun r => !gone r }) s))
  raise h 2 (redetour p (facingLost p cause (forEach act (liveDies s1) (retopo s1))))

/-- Dies that lost their last path to the tick die are fenced as lost (R397). DESIGN CHOICE: such a loss is warm, since
nothing has touched the die's cellars. -/
def dropCutOff (s : State) : State :=
  match liveDies s with
  | [] => s
  | d :: _ =>
    let td := tickDie s d
    let ok := reaches s td
    forEach (fun h s => if ok.contains h then s else declareLost h 9 true s) (liveDies s) s

/-- A side FAILED for a cause, without the width error of training. -/
def swFail (d : DieId) (e : SideId) (cause : Nat) (s : State) : State := swEnter d e 6 (swCause d e cause s)

/-- An edge has failed (R397): both sides hand their units to the other way round the ring, and routes and views follow. -/
def edgeFails (d : DieId) (e : SideId) (s : State) : State :=
  dropCutOff (retopo (reroute (swHandOver (across d e) (1 - e) (swHandOver d e s))))

/-- A training event whose side has become FAILED fails the edge. -/
def trained (d : DieId) (e : SideId) (f : State → State) (s : State) : State :=
  let s1 := f s
  if swState s d e ≠ 6 ∧ swState s1 d e = 6 then edgeFails d e s1 else s1

/-- ADVERT (R394). -/
def doAdvert (d : DieId) (e : SideId) (a : Advert) (s : State) : State := trained d e (takeAdvert d e a) s

/-- CAL_DONE (R394). -/
def doCalDone (d : DieId) (e : SideId) (fails : List (List Nat)) (s : State) : State := trained d e (calDone d e fails) s

/-- SW_TRAIN_TIMEOUT (R394). -/
def doSwTrainTimeout (d : DieId) (e : SideId) (s : State) : State :=
  if swState s d e = 1 ∨ swState s d e = 2 ∨ swState s d e = 3 then trained d e (swFailWidth d e) s else s

/-- SW_MEASURE_DONE (R394): SW_LAT as R304 takes it, and ACTIVE. Once both sides are, they resend what they hold and send on (R396). -/
def doSwMeasureDone (d : DieId) (e : SideId) (lats : List Nat) (s : State) : State :=
  if swState s d e ≠ 4 ∨ lats.length ≠ 16 then s else
  let p := pgSWof d e
  let s1 := sf p SW_STATE_TRIES 0 (sf p SW_LAT_V (min 65535 (median16 lats)) s)
  let s2 := raise p 0 (swEnter d e 5 s1)
  let s3 := if rd s (p + SW_WIDTH_AW.off) = 0xAAAAAAAA then s2 else raise p 2 s2
  retopo (reroute (swRestart (across d e) (1 - e) (swRestart d e s3)))

/-- HOLD_EXPIRY (R397): with both dies live the edge fails, and traffic goes round the ring. -/
def doHoldExpiry (d : DieId) (e : SideId) (s : State) : State :=
  let d' := across d e
  let e' : SideId := 1 - e
  if dieLive s d && dieLive s d' && swState s d e != 5 && swState s d e != 6 then
    edgeFails d e (swFail d' e' 6 (tallyAdd (pgSWof d' e') 8 1 (swFail d e 6 (tallyAdd (pgSWof d e) 8 1 s))))
  else s

/-- Keeps a PEER_DROP report (R398), raised on the reporting side. -/
def reportDrop (d : DieId) (e : SideId) (s : State) : State :=
  emit (.peerDrop d (across d e)) (raise (pgSWof d e) 4 s)

/-- RESET_NOTICE (R394, R398): the side goes DOWN and reports the drop; the steward knows of the notice. -/
def doResetNotice (d : DieId) (e : SideId) (s : State) : State :=
  if swState s d e = 6 then s else
  let p := across d e
  let s1 := { s with stw := { s.stw with notices := if s.stw.notices.contains p.val then s.stw.notices else p.val :: s.stw.notices } }
  reportDrop d e (swClear d e (swEnter d e 0 (swCause d e 7 (swForget d e s1))))

/-- CLOCK_ABSENT (R398). -/
def doClockAbsent (d : DieId) (e : SideId) (s : State) : State :=
  if swState s d e = 5 then reportDrop d e s else s

/-- Forgets the reports about a die. -/
def forgetDrops (p : DieId) (s : State) : State :=
  { s with stw := { s.stw with
    drops := s.stw.drops.filter fun x => x.2 != p.val, notices := s.stw.notices.filter fun x => x != p.val } }

/-- PEER_DROP (R398): die `p` is lost when it sent a reset notice or both neighbours have reported; else the edge failed. A
reset notice is a warm loss (R400). -/
def doPeerDrop (reporter p : DieId) (s : State) : State :=
  if !dieLive s p || !(reporter == cwDie p || reporter == ccwDie p) || !dieLive s reporter then s else
  let s1 := { s with stw := { s.stw with
    drops := if s.stw.drops.contains (reporter.val, p.val) then s.stw.drops else (reporter.val, p.val) :: s.stw.drops } }
  if s1.stw.notices.contains p.val then declareLost p 1 true (forgetDrops p s1)
  else if s1.stw.drops.contains ((cwDie p).val, p.val) && s1.stw.drops.contains ((ccwDie p).val, p.val) then
    declareLost p 6 false (forgetDrops p s1)
  else s1

/-- HATCH_SILENT (R398): after a PEER_DROP about die `p` its hatch does not answer. -/
def doHatchSilent (p : DieId) (s : State) : State :=
  if s.stw.drops.any fun x => x.2 == p.val then declareLost p 5 false (forgetDrops p s) else s

/-- HATCH_LOSS_REPORT (R398). A die that is resetting is lost again (R491). -/
def doHatchLossReport (p : DieId) (k : LossReport) (s : State) : State :=
  let cause := match k with | .clock => 3 | .rail => 4
  let h := pgHTSof p
  if gf s h HTS_DIE_STATE = 4 then raise h 2 (sf h HTS_DIE_LOSS_CAUSE cause (sf h HTS_DIE_WARM 0 (sf h HTS_DIE_STATE 3 s)))
  else declareLost p cause false s

/-- HATCH_MODULE_FAIL (R403): a module of hatch `h` fails; with both FAILED the traffic takes a live neighbour's hatch while the
stairway runs, and the die is lost when that is silent too. -/
def doHatchModuleFail (h : DieId) (m : Fin 2) (s : State) : State :=
  if gf s (pgHTSof h) (modFld m) ≠ 5 then s else
  let s1 := modEnter h 6 m s
  if gf s1 (pgHTSof h) HT_STATE_MOD0 = 6 ∧ gf s1 (pgHTSof h) HT_STATE_MOD1 = 6 ∧ dieLive s h then
    if (hatchVia s1 h).isSome then setDetour h s1 else declareLost h 5 false s1
  else s1

/-! ### Die reset and rejoin (R400, R401) -/

/-- Register-map entries of home `d`'s space that `keep` rejects go back to their reset values. -/
def resetRegs (d : DieId) (keep : Nat → Bool) (s : State) : State :=
  let mine (a : Nat) : Bool := homeOf a == d.val
  let ok (a : Nat) : Bool := !mine a || keep (a % 0x1000000)
  { s with regs := skeep ok s.regs }

/-- The registers of a die that keep their values across a warm reset, by their offset in the die's space: FENCE (R485), the ring
registers of JRNL (R358), EP (R393), and the state and row map of an array, which a fenced array keeps with its fence (R169). Every
other register goes back to its reset value. -/
def keptWarm (a : Nat) : Bool :=
  let pg := a / 0x1000
  let o := a % 0x1000
  decide (o = 0x24) ||
  (decide (pg = 0x9) && decide (0x104 ≤ o) && decide (o < 0x120)) ||
  ((decide (pg = 0x48) || decide (pg = 0x49)) && decide (o = 0x108)) ||
  (decide (0x10 ≤ pg) && decide (pg < 0x18) && (decide (o = 0x100) || decide (0x10C ≤ o) && decide (o < 0x120)))

/-- What a reset of either kind clears of a die: its engines, slots, frame, ports, stairway sides, tables and routing banks, and its
registers but those that `keep` names (R10, R105, R301, R318, R394, R400, R489). The open journal record is lost (R358). -/
def resetEngines (d : DieId) (keep : Nat → Bool) (s : State) : State :=
  let j := s.dies[d].jrnl
  let mine (k : Nat) : Bool := homeOf (k % 2 ^ 28) == d.val
  let s1 := onDie d (fun x => { Die.reset with
    notReady := x.notReady
    jrnl := { Jrnl.reset with dropped := j.dropped + b2n j.recd.isOpen } }) s
  let s2 := { s1 with
    ports := s1.ports.mapIdx fun i p => if 4 * ((d.val + 3) % 4) ≤ i ∧ i < 4 * ((d.val + 3) % 4) + 4 then Port.reset else p
    sel := skeep (fun k => !mine k) s1.sel, hiLatch := skeep (fun k => !mine k) s1.hiLatch
    loShadow := skeep (fun k => !mine k) s1.loShadow }
  forEach (fun (e : SideId) s => sf (pgSWof d e) SW_EPOCH_PEER 0 (emit (.resetNotice d e) s)) [0, 1] (resetRegs d keep s2)

/-- Fills a die's store room, and its cellars on a cold reset, with zero data (R380, R400). -/
def fillDie (d : DieId) (cellar : Bool) (s : State) : State :=
  let gone (a : Nat) : Bool :=
    (decide (storeBase d ≤ a) && decide (a < storeBase d + 0x40000000)) ||
    (cellar && decide (cellarBase d ≤ a) && decide (a < cellarBase d + 0x4000000000))
  { s with mem := skeep (fun a => !gone a) s.mem, errs := skeep (fun w => !gone (w * 64)) s.errs }

/-- A cold reset's part: tallies at zero and every record of the die at its reset value (R10, R56). -/
def resetCold (d : DieId) (s : State) : State :=
  let mine (k : Nat) : Bool := homeOf (k % 2 ^ 28) == d.val
  let s2 := { s with
    tally := skeep (fun k => !mine k) s.tally, snap := skeep (fun k => !mine k) s.snap, rem := skeep (fun k => !mine k) s.rem }
  onDie d (fun _ => { Die.reset with integ := { Die.reset.integ with ageBase := s2.time } }) s2

/-! ### The stacks (R234, R235, R462, R465) -/

/-- A stack trains, at start-up or as it leaves self-refresh: active, or untrained with TRAIN_FAIL when a channel fails (R404). -/
def stackTrain (d : DieId) (c : Nat) (s : State) : State :=
  let p := pgSCof d c
  if gf s p SC_STAT_MODE = 1 then s
  else if s.stw.env.stackFail.contains (d.val, c) then raise p 0 (sf p SC_STAT_MODE 0 s)
  else sf p SC_STAT_MODE 1 s

/-- A trained stack enters self-refresh, which is counted. -/
def stackRest (d : DieId) (c : Nat) (s : State) : State :=
  let p := pgSCof d c
  if gf s p SC_STAT_MODE = 1 then tallyAdd p 5 1 (sf p SC_STAT_MODE 2 s) else s

/-- The strap registers keep what the die sampled at power-on; the straps are not sampled again (R401). -/
def keepStraps (old : State) (d : DieId) (s : State) : State :=
  let p := pgTOPO d
  let s1 := wr (p + 0x104) (rd old (p + 0x104)) (wr (p + 0x100) (rd old (p + 0x100)) s)
  forEach (fun (e : SideId) s => sf (pgSWof d e) SW_STATE_PEER (across d e).val s) [0, 1] s1

/-- The registers that a warm reset keeps: those of `keptWarm`, and the mode of the stacks, which are in self-refresh (R400). -/
def keptOf (a : Nat) : Bool := keptWarm a || (List.range 3).any fun c => a == pgSCof 0 c + SC_STAT_MODE.off

/-- The reset of a die (R400). -/
def resetDie (d : DieId) (warm : Bool) (s : State) : State :=
  let s1 := if warm then resetEngines d keptOf (forEach (stackRest d) [0, 1, 2] s)
    else resetCold d (resetEngines d (fun _ => false) s)
  let s2 := keepStraps s d (fillDie d (!warm) (hatchDown d s1))
  sf (pgWATCH d) WATCH_LADDER_NO_SAMPLES (b2n (!takesSamples s2 d)) s2

/-- HTS_CTRL.RESET (R400, R401, R408): BAD_VALUE in any state but RUNNING and LOST. A RUNNING die is lost first. Warm only when the
loss itself was warm. A die lost to its clock has none, and stays LOST. -/
def dieResetAction (h : DieId) (kind : ResetKind) (s : State) : State × Nat :=
  let p := pgHTSof h
  let st := gf s p HTS_DIE_STATE
  if st ≠ 2 ∧ st ≠ 3 then (s, eBAD_VALUE)
  else
    if st = 3 ∧ gf s p HTS_DIE_LOSS_CAUSE = 3 then (s, eOK) else
    let w := kind == .warm
    let s1 := unrelease h (if st = 2 then declareLost h (if w then 1 else 2) w s else s)
    let warm := w && gf s1 p HTS_DIE_WARM == 1
    (sf p HTS_DIE_STATE 4 (resetDie h warm s1), eOK)

/-- The self-test of R381 fails: the die records it, with the pair as a free value, since the hatch's message does not name it. -/
def checkerFails (h : DieId) (s : State) : State :=
  let p := pgINTEG h
  match drawFresh s with
  | (n, s1) =>
    raise p 5 (sf p INTEG_STAT_CHK_CHAN (Config.checkerChan n).val (sf p INTEG_STAT_CHK_UNIT (Config.checkerUnit n).val
      (sf p INTEG_STAT_CHK_FAIL 1 s1)))

/-- REJOIN_READY (R401). The die is ready when its edges are up and its self-test has passed; a failed edge or test makes it LOST
again. Its hatch is up, its time stamp is loaded (R58), and its stacks train (R234). -/
def doRejoinReady (h : DieId) (ok : Bool) (s : State) : State :=
  let p := pgHTSof h
  if gf s p HTS_DIE_STATE ≠ 4 then s
  else if swState s h 0 = 6 ∨ swState s h 1 = 6 then sf p HTS_DIE_LOSS_CAUSE 8 (sf p HTS_DIE_STATE 3 s)
  else if !ok then checkerFails h (sf p HTS_DIE_LOSS_CAUSE 7 (sf p HTS_DIE_STATE 3 s))
  else if swState s h 0 = 5 ∧ swState s h 1 = 5 then
    forEach (stackTrain h) [0, 1, 2]
      (hatchTrain h <| sf p HTS_DIE_STATE 5 (sf (pgINTEG h) INTEG_STAT_FILL_DONE 1 (sf (pgTIME h) TS_STAT_SYNCED 1 s)))
  else s

/-- The entry part of the ladder state, copied from another die (R261). -/
def ladderCopy (src d : DieId) (s : State) : State :=
  let from_ := s.dies[src].watch.tab
  onDie d (fun x => { x with watch := { x.watch with
    tab := ((List.range 4096).foldl (fun m e =>
      sset zwatch (sset zwatch m (8 * e + 5) (sget zwatch from_ (8 * e + 5))) (8 * e + 6) (sget zwatch from_ (8 * e + 6)))
      x.watch.tab) } }) s

/-- HTS_CTRL.REJOIN (R401): BAD_VALUE while EN is 1 on a live die; ignored in any state but REJOIN_READY. -/
def rejoinAction (h : DieId) (s : State) : State × Nat :=
  let p := pgHTSof h
  if gf s p HTS_DIE_STATE ≠ 5 then (s, eOK)
  else if (liveDies s).any fun d => gf s (pgTICK d) TICK_CTRL_EN == 1 then (s, eBAD_VALUE)
  else
    let others := liveDies s
    let v := gf s pgPKG PKG_RELEASE_RELEASED
    let s1 := retopo (reroute (sf pgPKG PKG_RELEASE_RELEASED (if bit v h.val then v else v + 2 ^ h.val) (sf p HTS_DIE_STATE 2 s)))
    let s2 := match others with
      | [] => s1
      | d :: _ =>
        let td := tickDie s d
        sf (pgWATCH h) WATCH_LADDER_VALID 1 (ladderCopy (if dieLive s td then td else d) h s1)
    (raise p 3 (forgetDrops h s2), eOK)

/-- A fenced side behaves as FAILED (R405, R406). -/
def swFence (d : DieId) (e : SideId) (s : State) : State := edgeFails d e (swFail d e 8 s)

end Sys2Proof.Machine
end

