-- ==== Sys2Proof/Machine/Integrity.lean ====
section
/-!
DEFINITION. Integrity.lean: the scrubber (R382, R383) and error injection (R385). Correction, write-back and uncorrectable words
are in Memory.lean, where accesses meet them.
-/
namespace Sys2Proof.Machine

/-- Changes what memory integrity keeps of a die. -/
def onInteg (d : DieId) (f : Integ → Integ) (s : State) : State := onDie d (fun x => { x with integ := f x.integ }) s

/-- Code words of a lap: the store room's, then the cellar's (R382). -/
def lapWords : Nat := storeSize / 64 + cellarSize / 64

/-- Device address of word `n` of a die's lap. -/
def lapAddr (d : DieId) (n : Nat) : Nat :=
  if n < storeSize / 64 then storeBase d + 64 * n else cellarBase d + 64 * (n - storeSize / 64)

/-- SCRUB_AGE in µs (R383). -/
def scrubAge (s : State) (d : DieId) : Nat := min ((s.time - s.dies[d].integ.ageBase) / 1000) (2 ^ 32 - 1)

/-- SCRUB_LAP_END (R383): the lap's duration is kept, and the age and the lap's counts start anew. -/
def scrubLapEnd (d : DieId) (s : State) : State :=
  let p := pgINTEG d
  tallyAdd p 8 1 (onInteg d (fun _ => ⟨0, 0, s.time, false, false⟩) (wr (p + SCRUB_LAP_V.off) (BitVec.ofNat 32 (scrubAge s d)) s))

/-- SCRUB_READ (R382): the scrubber reads its next code word and corrects it. It reads no other word, stands still with
SCRUB_EN at 0, and does not run in P3 and P4. -/
def doScrubRead (d : DieId) (word : Nat) (s : State) : State :=
  let st := gf s pgPCAP PCAP_STATE_PSTATE
  if !dieLive s d || gf s (pgINTEG d) INTEG_CFG_SCRUB_EN == 0 || st == 3 || st == 4 || stopped s || word != s.dies[d].integ.next then s
  else
    let s1 := (readRange (.scrub d) (lapAddr d word) 64 s).1
    let s2 := onInteg d (fun x => { x with next := word + 1 }) (tallyQty (pgINTEG d) 9 1048576 1 s1)
    if lapWords ≤ word + 1 then scrubLapEnd d s2 else s2

/-- SCRUB_SLOW (R383): once per lap, unless SCRUB_AGE_MAX is 0; the age counts in every power state. -/
def doScrubSlow (d : DieId) (s : State) : State :=
  if !dieLive s d || s.dies[d].integ.slowRaised || rd s (pgINTEG d + SCRUB_AGE_MAX_V.off) == 0 then s
  else raise (pgINTEG d) 3 (onInteg d (fun x => { x with slowRaised := true }) s)

/-- A range in the die's own populated cellar, outside the steward's region. -/
def inOwnCellar (d : DieId) (a n : Nat) : Bool :=
  decide (cellarBase d ≤ a) && decide (a + n ≤ cellarBase d + cellarSize) && !inSteward a n

/-- A word in the die's own populated store room or cellar, outside the steward's region (R385). -/
def injAddrOk (d : DieId) (a : Nat) : Bool :=
  inOwnCellar d a 1 || (decide (storeBase d ≤ a) && decide (a < storeBase d + storeSize))

/-- INJ_CTRL.ARM written 1 (R385): BAD_VALUE with SYMS 0 or an address that may not be armed. -/
def injArmAction (d : DieId) (syms : Nat) (s : State) : State × Nat :=
  let p := pgINTEG d
  if syms = 0 ∨ !injAddrOk d (rd64 s (p + INJ_ADDR_LO_V.off) % 2 ^ 52) then (s, eBAD_VALUE)
  else (sf p INJ_CTRL_DONE 0 (sf p INJ_CTRL_ARM 1 (sf p INJ_CTRL_SYMS syms s)), eOK)

/-! ### Meanings of the commands -/

/-- SCRUB_READ (R382). -/
def execScrubRead (d : DieId) (word : Nat) (s : State) : Host.Outcome State Fault Refusal :=
  .next (dieStep d (doScrubRead d word) s)
/-- SCRUB_SLOW (R383). -/
def execScrubSlow (d : DieId) (s : State) : Host.Outcome State Fault Refusal :=
  .next (clocked (doScrubSlow d) s)

end Sys2Proof.Machine
end

