-- ==== Sys2Proof/Machine/Journal.lean ====
section
/-!
DEFINITION. Journal.lean: the step digest (R350 to R352), the journal record and its ring (R353 to R358), replay (R359 to R362),
the export copy and stream (R363 to R366), and twin comparison (R367 to R370).
-/
namespace Sys2Proof.Machine

/-! ### Digests (R352) -/

/-- The 16 bytes of the pair of CRCs over a stream (R350). -/
def digest128 (bs : List Byte) : List Byte := leBytes 8 (crcA bs).toNat ++ leBytes 8 (crcB bs).toNat

/-- The 512-byte bitmap of a set of members (R73). -/
def memberMap (ms : List Nat) : List Byte :=
  (List.range 512).map fun b =>
    BitVec.ofNat 8 ((List.range 8).foldl (fun n k => n + b2n (ms.contains (8 * b + k)) * 2 ^ k) 0)

/-- CRC-A over the bitmap of a set of members (R353). -/
def setDigest (ms : List Nat) : D := crcA (memberMap ms)

/-- DIE_DIGEST of a step (R352). -/
def dieDigest (s : State) (d : DieId) (step : Nat) : List Byte :=
  digest128 (leBytes 8 step ++ s.dies[d].jrnl.crc.flatMap fun e =>
    leBytes 8 e.1 ++ leBytes 8 ((e.2.getD (0, 0)).1).toNat ++ leBytes 8 ((e.2.getD (0, 0)).2).toNat)

/-- Sets the four words of a digest register from 16 bytes. -/
def setDigestRegs (a : Nat) (bs : List Byte) (s : State) : State :=
  forEach (fun k s => wr (a + 4 * k) (BitVec.ofNat 32 (leNat ((bs.drop (4 * k)).take 4))) s) [0, 1, 2, 3] s

/-! ### The record (R353 to R355) -/

/-- An 8-byte mark per feed queue; all ones for a queue not homed on the die or not in use (R353, R418). -/
def feedField (s : State) (d : DieId) (f : State → Nat → Nat) : List Nat :=
  [8, 9, 10, 11, 12, 13, 14, 15].map fun q =>
    if feedHome s q = d ∧ gf s (pgQ q) Q_CTRL_EN = 1 then f s q else 2 ^ 64 - 1

/-- A record opens at a tick that opens frame 0 (R353). -/
def recOpen (d : DieId) (t : Tick) (s : State) : State :=
  if gf s (pgJRNL d) JRNL_CFG_EN = 0 then onRec d (fun _ => JRec.reset) s else
  let j := s.dies[d].jrnl
  let flags := b2n j.ladderReset + b2n (replaying s d) * 2
  onJrnl d (fun j => { j with
    ladderReset := false
    recd := { JRec.reset with
      isOpen := true, step := t.step, startTick := t.tick, startTs := timeStamp s d.val
      epoch := gf s (pgCE d) CE_EPOCH_V, pgen := gf s (pgLP d) LS_PGEN_CUR, sdigest := watchSDigest s d
      rtDigest := rtDigest s d, flags := flags, feedMark := feedField s d qMark } }) s

/-- FLAGS and LAGGARD of a tick (R73). -/
def tickFlags (t : Tick) : Nat :=
  b2n t.abandon + b2n t.failed * 2 + b2n t.excl * 4 + b2n t.commit * 8 + b2n t.hold * 16 + b2n t.pin * 32
/-- R73. -/ def tickLag (t : Tick) : Nat := if t.lagNone then 32768 else t.laggard

/-- The TICK item (R354). -/
def tickItem (t : Tick) (acc slack ts : Nat) : List Byte :=
  jitem 1 0 (leBytes 8 t.tick ++ leBytes 2 t.frame ++ leBytes 1 t.type ++ leBytes 1 (tickFlags t) ++
    leBytes 2 (tickLag t) ++ leBytes 2 t.members.length ++ leBytes 2 acc ++ leBytes 2 0 ++
    leBytes 4 (min slack (2 ^ 32 - 1)) ++ leBytes 8 ts)

/-- The SET item (R354): `e` marks the set that became E, `silent` the silent members of R65. -/
def setItem (t : Tick) (e silent : Bool) : List Byte :=
  let n := t.members.length
  jitem 2 (b2n e + b2n silent * 2) (leBytes 8 t.tick ++ t.members.flatMap (leBytes 2) ++
    List.replicate (8 * cdiv (2 * n) 8 - 2 * n) 0xFF)

/-- The FAULT item of the frame in course, naming the task of R116 (R354). -/
def faultItem (s : State) (d : DieId) : Option (List Byte) :=
  match s.dies[d].disp.faults, activeImg s d with
  | [], _ => none
  | _, none => none
  | fs, some i =>
    let e := fs.foldl (fun (a : Nat × Nat) b => if b.1 < a.1 then b else a) (fs.headD (0, 0))
    some (jitem 5 0 (leBytes 4 e.1 ++ leBytes 1 (readTask s i e.1).unit ++ leBytes 1 0 ++ leBytes 2 e.2 ++
      leBytes 2 (curFrame s d) ++ leBytes 6 0))

/-- OUTCOME is set (R355): END_TICK and what the header takes at that time. -/
def recEnd (d : DieId) (outcome endTick : Nat) (s : State) : State :=
  let e := s.dies[d].ce.excl
  onRec d (fun r => if !r.isOpen then r else { r with
    outcome := outcome, endTick := endTick, abandons := gf s (pgTICK d) TICK_STATE_ABANDONS
    eDigest := setDigest e, eCount := e.length, exclFrame := (let f := gf s (pgCE d) CE_STATE_EXCL_FRAME; if f = 0xFFF then 0xFFFF else f)
    feedEnd := feedField s d qRd
    sentLast := (List.range 8).map fun n => rd s (pgWATCH d + 4 * n + SENT_LAST_V.off)
    tokens := (s.dies[d].watch.bucket.map (·.tokens)).getD 0 }) s

/-- The record's bytes (R353, R354): header, items, the GAP item when a count is not zero, padded to a multiple of 64. -/
def recBytes (s : State) (d : DieId) (r : JRec) : List Byte :=
  let dropped := s.dies[d].jrnl.dropped
  let items := if dropped = 0 ∧ r.itemsDropped = 0 then r.items
    else r.items ++ [jitem 7 0 (leBytes 8 dropped ++ leBytes 8 r.itemsDropped)]
  let body := items.flatMap id
  let len := 64 * cdiv (512 + body.length) 64
  let img := activeImg s d
  let f (g : Img → Nat) : Nat := (img.map g).getD 0
  let sl := activeSlot s d
  let pad (n : Nat) (bs : List Byte) : List Byte := (bs ++ List.replicate n 0).take n
  let words (n w : Nat) (xs : List Nat) : List Byte := pad (n * w) (xs.flatMap (leBytes w))
  let flags := r.flags ||| b2n (decide (0 < r.itemsDropped)) * 16
  let h :=
    leBytes 4 0x4C4E524A ++ leBytes 1 0 ++ leBytes 1 1 ++ leBytes 1 d.val ++ leBytes 1 r.outcome ++ leBytes 4 len ++
    leBytes 4 items.length ++ leBytes 8 r.step ++ leBytes 8 r.startTick ++ leBytes 8 r.endTick ++ leBytes 8 r.startTs ++
    leBytes 8 (timeStamp s d.val) ++ leBytes 2 (gf s (pgLP d) LS_SLICE_SLICE_ID) ++ leBytes 2 (ownMember s d) ++
    leBytes 2 r.epoch ++ leBytes 2 r.pgen ++ leBytes 4 (f Img.seq) ++ leBytes 1 (f Img.minor) ++ leBytes 1 (f Img.major) ++
    leBytes 1 flags ++ leBytes 1 r.abandons ++
    leBytes 8 ((sl.map fun x => x.digest0.toNat).getD 0) ++ leBytes 8 ((sl.map fun x => x.digest1.toNat).getD 0) ++
    leBytes 8 (rd64 s (pgUPD d + UPD_SEED_LO_V.off)) ++ leBytes 8 (rd64 s (pgUPD d + UPD_T0_LO_V.off)) ++
    leBytes 8 (watchDigest s d).toNat ++ leBytes 8 r.sdigest.toNat ++ leBytes 8 r.rtDigest.toNat ++
    pad 16 r.dieDig ++ pad 16 r.pkgDig ++ pad 16 r.twinDig ++ leBytes 8 r.eDigest.toNat ++ leBytes 2 r.exclFrame ++
    leBytes 2 r.eCount ++ leBytes 2 r.failCode ++ leBytes 2 r.failFrame ++ words 8 8 r.feedMark ++ words 8 8 r.feedEnd ++
    words 12 8 r.phase ++ pad 32 (r.sentLast.flatMap fun w => leBytes 4 w.toNat) ++ leBytes 1 r.sentNf ++
    leBytes 1 r.sentSpike ++ leBytes 6 0 ++ leBytes 8 r.tokens
  pad len (pad 512 h ++ body)

/-- A wrap marker of `n` bytes (R356): its 64-byte header. -/
def wrapMarker (n : Nat) : List Byte :=
  leBytes 4 0x4C4E524A ++ leBytes 3 0 ++ leBytes 1 4 ++ leBytes 4 n ++ leBytes 52 0

/-- Bytes of the ring, and its free space (R356, R357). -/
def ringLen (s : State) (d : DieId) : Nat := gf s (pgJRNL d) JRNL_RING_LEN_V * 4096
/-- R357. -/
def ringFree (s : State) (d : DieId) : Nat :=
  ringLen s d - (rd64 s (pgJRNL d + JRNL_WR_LO_V.off) - rd64 s (pgJRNL d + JRNL_REL_LO_V.off))

/-- A record is dropped (R357). -/
def recDrop (d : DieId) (s : State) : State :=
  raise (pgJRNL d) 0 (tallyAdd (pgJRNL d) 2 1 (onJrnl d (fun j => { j with dropped := j.dropped + 1 }) s))

/-- The announcement of a written record on the die's journal stream, after its mirror copy (R430). -/
def recAnnounce (d : DieId) (start : Nat) (bs : List Byte) (s : State) : State :=
  let q := 4 + d.val
  if gf s (pgQ q) Q_CTRL_EN = 0 then s else
  let s1 := if gf s (pgQ q) Q_CTRL_MIRROR = 1 then
      hostPoke (rd64 s (pgQ q + Q_DBASE_LO_V.off) + start % max 1 (ringLen s d)) bs s else s
  (qPush q (entry 4 d.val 0 bs.length start) s1).1

/-- JOURNAL_RECORD_WRITE (R355 to R357): the open record goes to the ring, behind a wrap marker where it would cross the end, or is
dropped. -/
def recWrite (d : DieId) (s : State) : State :=
  let r := s.dies[d].jrnl.recd
  if !r.isOpen then s else
  let p := pgJRNL d
  let s0 := onRec d (fun r => { r with isOpen := false }) s
  let bs := recBytes s d r
  let len := ringLen s d
  let wrc := rd64 s (p + JRNL_WR_LO_V.off)
  let base := rd64 s (p + JRNL_RING_LO_V.off)
  let off := if len = 0 then 0 else wrc % len
  let mark := if len < off + bs.length then len - off else 0
  if ringFree s d < mark + bs.length then recDrop d s0
  else
    let s1 := if mark = 0 then (s0, eOK) else memWrite (.copier d) (base + off) (wrapMarker mark) s0
    match s1 with
    | (s1, 0) =>
      let start := wrc + mark
      match memWrite (.copier d) (base + start % max 1 len) bs s1 with
      | (s2, 0) =>
        let s3 := wr64 (p + JRNL_RSTEP_LO_V.off) r.step (wr64 (p + JRNL_WR_LO_V.off) (start + bs.length) s2)
        let s4 := onJrnl d (fun j => { j with dropped := 0 }) (tallyQty p 1 256 (mark + bs.length) (tallyAdd p 0 1 s3))
        recAnnounce d start bs s4
      | (_, c) => recDrop d (blockErr p c s0)
    | (_, c) => recDrop d (blockErr p c s0)

/-- JRNL_REL (R372). -/
def jrnlRelAction (d : DieId) (v : Nat) (s : State) : State × Nat :=
  let p := pgJRNL d
  if v % 64 ≠ 0 ∨ v < rd64 s (p + JRNL_REL_LO_V.off) ∨ rd64 s (p + JRNL_WR_LO_V.off) < v then (s, eBAD_VALUE)
  else (wr64 (p + JRNL_REL_LO_V.off) v s, eOK)

/-! ### Replay (R359 to R362) -/

/-- JRNL_RPL_CTRL.MODE written (R359, R372): replay starts at the head of its source. -/
def replayModeAction (d : DieId) (mode : Bool) (s : State) : State :=
  let p := pgJRNL d
  onJrnl d (fun j => { j with cursor := 0, record := none, missed := false })
    (sf p JRNL_RPL_CTRL_MISS 0 (sf p JRNL_RPL_CTRL_DIFFER 0 (sf p JRNL_RPL_CTRL_MODE (b2n mode) s)))

/-- Whether a record's header meets R359 for the step opened. -/
def recordFits (s : State) (d : DieId) (step : Nat) (h : List Byte) : Bool :=
  let f (o n : Nat) : Nat := field h o n
  let img := activeImg s d
  let sl := activeSlot s d
  f 0 4 == 0x4C4E524A && f 5 1 == 1 && f 7 1 == 1 && !bit (f 70 1) 4 && f 16 8 == step && f 6 1 == d.val &&
    f 58 2 == ownMember s d && f 64 4 == (img.map Img.seq).getD 0 &&
    f 72 8 == (sl.map fun x => x.digest0.toNat).getD 0 && f 80 8 == (sl.map fun x => x.digest1.toNat).getD 0 &&
    f 88 8 == rd64 s (pgUPD d + UPD_SEED_LO_V.off) && f 96 8 == rd64 s (pgUPD d + UPD_T0_LO_V.off) &&
    f 104 8 == (watchDigest s d).toNat

/-- Finds the next record whose STEP is not below `step`, from byte `cur` of the source: its offset and bytes. -/
def replayFind (d : DieId) (step : Nat) : Nat → Nat → State → State × Option (Nat × List Byte)
  | 0, _, s => (s, none)
  | n + 1, cur, s =>
    let p := pgJRNL d
    let base := rd64 s (p + JRNL_RPL_LO_V.off)
    let len := gf s p JRNL_RPL_LEN_V * 4096
    if len < cur + 512 then (s, none) else
    match memRead (.copier d) (base + cur) 512 s with
    | (s1, 0, h) =>
      let rl := field h 8 4
      if field h 0 4 = 0x4C4E524A ∧ field h 16 8 < step ∧ 0 < rl then replayFind d step n (cur + rl) s1
      else
        match memRead (.copier d) (base + cur) (max 512 (min rl (len - cur))) s1 with
        | (s2, 0, bs) => (s2, some (cur, bs))
        | (s2, _, _) => (s2, none)
    | (s1, _, _) => (s1, none)

/-- REPLAY_TAKE (R359): at a tick that opens frame 0 the die takes its record, or raises REPLAY_MISS and runs no task. -/
def replayTake (d : DieId) (step : Nat) (s : State) : State :=
  if !replaying s d then s else
  let p := pgJRNL d
  let miss (s : State) : State :=
    raise p 1 (sf p JRNL_RPL_CTRL_MISS 1 (onJrnl d (fun j => { j with record := none, missed := true }) s))
  match replayFind d step (gf s p JRNL_RPL_LEN_V * 64 + 1) s.dies[d].jrnl.cursor s with
  | (s1, some (cur, bs)) =>
    if recordFits s1 d step bs then
      sf p JRNL_RPL_CTRL_MISS 0 (onJrnl d (fun j => { j with record := some bs, missed := false, cursor := cur }) s1)
    else miss s1
  | (s1, none) => miss s1

/-- At a tick with COMMIT the die advances past its record (R359). -/
def replayPast (d : DieId) (s : State) : State :=
  onJrnl d (fun j =>
    match j.record with
    | some bs => { j with cursor := j.cursor + field bs 8 4, record := none }
    | none => j) s

/-- Members of a SET item. -/
def setMembers (it : List Byte) : List Nat :=
  ((chunks 2 it.length (it.drop 16)).map leNat).filter fun m => decide (m < 4096)

/-- E of a step in replay (R360): the SET item with item FLAGS bit 0. -/
def replayE (s : State) (d : DieId) : List Nat :=
  match (recordItems s d 2).find? fun it => bit (field it 1 1) 0 with
  | some it => setMembers it
  | none => []

/-- REPLAY_DIFFER (R362). -/
def replayDiffer (d : DieId) (dig : List Byte) (s : State) : State :=
  match s.dies[d].jrnl.record with
  | some bs =>
    if (bs.drop 128).take 16 = dig then s
    else onRec d (fun r => { r with flags := r.flags ||| 4 }) (raise (pgJRNL d) 2 (sf (pgJRNL d) JRNL_RPL_CTRL_DIFFER 1 s))
  | none => s

/-! ### Twin slices (R367 to R370) -/

/-- A comparison ends (R368, R369): 1 agree, 2 differ, 3 timeout. With `hold` the commit frame waits for it, and fails unless it agrees. -/
def twinEnd (d : DieId) (step result cause : Nat) (peer : List Byte) (hold : Bool) (s : State) : State :=
  let p := pgJRNL d
  let s1 := onJrnl d (fun j => { j with twinWait := false }) s
  let s2 := sf p JRNL_TWIN_STAT_CAUSE (if result = 3 then 3 else cause) (sf p JRNL_TWIN_STAT_STATE (if result = 1 then 2 else 3) s1)
  let s3 := setDigestRegs (p + JRNL_TWIN_DIG_V.off) (padTo 16 peer) s2
  let s4 := addItem d (jitem 6 0 (leBytes 8 step ++ leBytes 1 result ++ leBytes 1 cause ++ leBytes 6 0 ++ padTo 16 peer))
    (onRec d (fun r => { r with
      twinDig := if peer.isEmpty then r.twinDig else peer
      flags := if result = 1 ∧ hold then r.flags ||| 8 else r.flags }) s3)
  let s5 := tallyAdd p (if result = 1 then 9 else 10) 1 s4
  let s6 := if result = 2 then raise p 6 s5 else s5
  if hold ∧ result ≠ 1 then failOpen d eTWIN_MISMATCH s6 else s6

/-- Compares the own digest with the twin's of the same STEP, when both are held (R368). -/
def twinCompare (d : DieId) (s : State) : State :=
  let j := s.dies[d].jrnl
  if !j.twinWait then s else
  match j.own with
  | none => s
  | some o =>
    match j.peer.find? fun x => x.step == o.step with
    | none => s
    | some x =>
      let hold := gf s (pgJRNL d) JRNL_TWIN_HOLD == 1
      if x.pkg = o.pkg then twinEnd d o.step 1 0 x.pkg hold s
      else twinEnd d o.step 2 (if x.e = o.e then 1 else 2) x.pkg hold s

/-- The tick die takes a twin payload (R368) and keeps the digests of the two highest steps. -/
def twinTake (d : DieId) (pl : List Byte) (s : State) : State :=
  if field pl 0 1 ≠ 1 ∨ !twinOn s d ∨ !twinPortOk s d then s else
  let x : TwinDig := ⟨field pl 8 8, (pl.drop 16).take 16, BitVec.ofNat 64 (field pl 32 8)⟩
  let keep := ((x :: s.dies[d].jrnl.peer.filter fun y => y.step != x.step).mergeSort fun a b => decide (b.step ≤ a.step)).take 2
  twinCompare d (onJrnl d (fun j => { j with peer := keep }) s)

/-- TWIN_DIGEST (R368). -/
def doTwinDigest (m : LinkMsg) (s : State) : State :=
  match pkgTickDie s with
  | none => s
  | some d => twinTake d m.payload s

/-- TWIN_TIMEOUT (R369). -/
def doTwinTimeout (s : State) : State :=
  match pkgTickDie s with
  | none => s
  | some d =>
    if s.dies[d].jrnl.twinWait && gf s (pgJRNL d) JRNL_TWIN_HOLD == 1 then
      twinEnd d ((s.dies[d].jrnl.own.map (·.step)).getD s.dies[d].disp.attStep) 3 0 [] true s
    else s

/-- The twin side of a commit frame's opening edge on the tick die (R367 to R370): an unended comparison, whose frame has gone, ends as a
timeout; a port that fails R367 leaves the twin silent. -/
def twinOpen (d : DieId) (o : TwinDig) (s : State) : State :=
  if !twinOn s d then onJrnl d (fun j => { j with own := none, twinWait := false }) s else
  let s1 := if s.dies[d].jrnl.twinWait then
      twinEnd d ((s.dies[d].jrnl.own.map (·.step)).getD o.step) 3 0 [] false s else s
  let s2 := sf (pgJRNL d) JRNL_TWIN_STAT_CAUSE 0 (sf (pgJRNL d) JRNL_TWIN_STAT_STATE 1
    (onJrnl d (fun j => { j with own := some o, twinWait := true }) s1))
  if twinPortOk s2 d then
    let p := twinPort s2 d
    twinCompare d (emit (.twin p (twinPayload s2 d o)) (sendNull p false s2))
  else raise (pgJRNL d) 7 s2

/-- PKG_DIGEST, once every live die has its DIE_DIGEST of the step (R352): it goes to every live die. -/
def formPkg (step : Nat) (s : State) : State :=
  let have_ (h : DieId) : Bool := s.dies[h].jrnl.dieDig.any fun x => x.1 == step
  match pkgTickDie s with
  | none => s
  | some td =>
    if !(liveDies s).all have_ then s else
    let dig (h : DieId) : List Byte :=
      if dieLive s h then ((s.dies[h].jrnl.dieDig.map Prod.snd).getD []) else List.replicate 16 0
    let pkg := digest128 (leBytes 8 step ++ allDies.flatMap dig)
    let s1 := forEach (fun h s => onRec h (fun r => { r with pkgDig := pkg }) (setDigestRegs (pgJRNL h + JRNL_DIGEST_V.off) pkg s))
      (liveDies s) s
    twinOpen td ⟨step, pkg, setDigest s.dies[td].ce.excl⟩ s1

/-- DIGEST_FORM (R352, R357, R362): a die's part at the opening edge of the commit frame. -/
def digestForm (d : DieId) (step : Nat) (s : State) : State :=
  let dig := dieDigest s d step
  let s1 := onJrnl d (fun j => { j with dieDig := some (step, dig), recd := { j.recd with dieDig := dig } }) s
  let s2 := if replaying s d then replayDiffer d dig s1 else s1
  let p := pgJRNL d
  let s3 :=
    if gf s p JRNL_CFG_EN = 1 ∧ gf s p JRNL_CFG_HOLD_FULL = 1 ∧ ringFree s d < 524288 then
      failOpen d eQUEUE_FULL (tallyAdd p 4 1 s2)
    else s2
  formPkg step s3

/-! ### Export (R363 to R366) -/

/-- Conversions R223 allows from an ungrouped source row to a destination tensor. -/
def convAllowed (src dst : Tensor) : Bool :=
  (src.fmt == dst.fmt && !fmtGrouped src.fmt) ||
    (src.fmt != 9 && (dst.fmt == 0 || dst.fmt == 1 || dst.fmt == 2 || dst.fmt == 8)) ||
    (src.fmt != 9 && fmtGrouped dst.fmt && dst.gaxis == 0 && dst.dim 0 % dst.g == 0)

/-- An entry of the export table (R363): SRC, DST0, DST1. -/
def exportWords (bs : List Byte) : Nat × Nat × Nat := (field bs 0 2, field bs 2 2, field bs 4 2)

/-- Reads entry `n` of the export table. -/
def exportEntry (d : DieId) (n : Nat) (s : State) : State × Nat × (Nat × Nat × Nat) :=
  match memRead (.copier d) (rd64 s (pgJRNL d + JRNL_EXP_LO_V.off) + 8 * n) 8 s with
  | (s1, 0, bs) => (s1, eOK, exportWords bs)
  | (s1, c, _) => (s1, c, (0, 0, 0))

/-- The bytes of a tensor, as (address, length), in address order (R366): its elements, scales, zero points, and a second grouping (R132). -/
def tensorRanges (s : State) (d : DieId) (t : Tensor) : List (Nat × Nat) :=
  let v := viewOf s d t t.base
  let u := secondView s d v
  let g := if v.grouped then t.elems / t.g else 0
  let two := if v.grouped && t.aft == 2 then [(u.base, t.extent v.fmt), (u.scaleBase, g)] else []
  let rs := [(t.base, t.extent v.fmt), (t.scaleBase, g), (t.auxBase, if v.fmt = 6 then cdiv g 2 else 0)] ++ two
  (rs.filter fun r => r.2 != 0).mergeSort fun a b => decide (a.1 ≤ b.1)

/-- Whether an export entry passes R363. -/
def exportOk (s : State) (d : DieId) (i : Img) (e : Nat × Nat × Nat) : Bool :=
  let src := readTensor s i e.1
  let okDst (k : Nat) : Bool :=
    let x := readTensor s i k
    decide (k < i.tensors) && x.cls == 7 && ((tensorRanges s d x).all fun r => regionOf r.1 r.2 == some (.cellar d)) &&
      x.rank == src.rank && x.dims == src.dims && convAllowed src x
  decide (e.1 < i.tensors) && (src.cls == 1 || src.cls == 3) && okDst e.2.1 && okDst e.2.2

/-- EXPORT_TABLE_CHECK (R363): every entry is checked, and a bad one is disabled and counted. A table that cannot be read has no
good entry. -/
def exportCheck (d : DieId) (s : State) : State :=
  let p := pgJRNL d
  let n := gf s p JRNL_EXP_CFG_COUNT
  if n = 0 then sf p JRNL_EXP_STAT_BAD 0 (onJrnl d (fun j => { j with entries := [] }) s) else
  match activeImg s d, memRead (.copier d) (rd64 s (p + JRNL_EXP_LO_V.off)) (8 * n) s with
  | some i, (s1, 0, bs) =>
    let good := (List.range n).filter fun k => exportOk s1 d i (exportWords (bs.drop (8 * k)))
    let s2 := sf p JRNL_EXP_STAT_BAD (n - good.length) (onJrnl d (fun j => { j with entries := good }) s1)
    if good.length = n then s2 else raise p 5 s2
  | _, (s1, _, _) => raise p 5 (sf p JRNL_EXP_STAT_BAD n (onJrnl d (fun j => { j with entries := [] }) s1))

/-- VALID and HOLD fields of export buffer `b`. -/
def expValid (b : Nat) : Fld := if b = 0 then JRNL_EXP_STAT_VALID0 else JRNL_EXP_STAT_VALID1
/-- R364. -/ def expHold (b : Nat) : Fld := if b = 0 then JRNL_EXP_STAT_HOLD0 else JRNL_EXP_STAT_HOLD1

/-- The copy on commit starts, or is skipped when both buffers are held (R364); a stream holds its buffer (R366). -/
def exportStart (d : DieId) (step : Nat) (s : State) : State :=
  let p := pgJRNL d
  if gf s p JRNL_EXP_CFG_EN = 0 then s else
  let nw := gf s p JRNL_EXP_STAT_NEWEST
  let go (b : Nat) : State :=
    sf p JRNL_EXP_STAT_TARGET b (sf p JRNL_EXP_STAT_BUSY 1 (sf p (expValid b) 0 (onJrnl d (fun j => { j with copyStep := step }) s)))
  let isHeld (b : Nat) : Bool := gf s p (expHold b) != 0 || (s.dies[d].jrnl.streaming && s.dies[d].jrnl.streamBuf == b)
  if !isHeld (1 - nw) then go (1 - nw)
  else if !isHeld nw then go nw
  else raise p 4 (tallyAdd p 6 1 s)

/-- Copies one row of an export entry. -/
def exportRow (d : DieId) (src dst : View) (r : Nat) (s : State) : State × Nat :=
  let p := pgJRNL d
  let n := src.t.dim 0
  if src.fmt = dst.fmt then
    match readCodes (memRead (.copier d)) src r 0 n s with
    | (s1, 0, cs) => writeCodes (memWrite (.copier d)) dst r 0 cs s1
    | (s1, c, _) => (s1, c)
  else
    match readX32 (memRead (.copier d)) src r 0 n s with
    | (s1, 0, xs, w) =>
      match writeX32 (memWrite (.copier d)) dst r 0 xs s1 with
      | (s2, 0, k) =>
        (tallyQty p 12 1024 k.bad (tallyQty p 11 1024 k.zero (tallyQty p 8 1024 k.nonf (tallyQty p 7 1024 (w.sat + k.sat) s2))), eOK)
      | (s2, c, _) => (s2, c)
    | (s1, c, _) => (s1, c)

/-- Copies one export entry into the target buffer. -/
def exportCopy (d : DieId) (i : Img) (b n : Nat) (s : State) : State × Nat :=
  match exportEntry d n s with
  | (s, 0, e) =>
    let src := readTensor s i e.1
    let w := (weightOf src).getD 0
    let sv := viewOf s d src (slotAddr s i src (b2n (ventry s d w).cur))
    let dst := readTensor s i (if b = 0 then e.2.1 else e.2.2)
    forUntil (fun r s => exportRow d sv (viewOf s d dst dst.base) r s) (List.range src.rows) s
  | (s1, c, _) => (s1, c)

/-- Header of a stream message. DESIGN CHOICE: the rules give class 1 stream messages an offset and no layout; here bytes 0 to 7 hold the
offset, 8 to 11 the length and 12 the die, and the bytes follow at 16. -/
def streamHeader (d : DieId) (off n : Nat) : List Byte := leBytes 8 off ++ leBytes 4 n ++ leBytes 4 d.val

/-- Bytes of one stream message: a message is at most 64 flits (R295). -/
def streamChunk : Nat := 64 * 256 - 16

/-- EXPORT_STREAM_RECEIVE (R366): bytes enter the JRNL_RX window; bytes beyond its length are dropped and counted. -/
def doExportStreamReceive (d : DieId) (off : Nat) (bytes : List Byte) (s : State) : State :=
  let p := pgJRNL d
  let room := gf s p JRNL_RX_LEN_V * 4096 - off
  let bs := bytes.take room
  if !dieLive s d then s else
  let s1 := onJrnl d (fun j => { j with rxDropped := j.rxDropped + (bytes.length - bs.length) }) s
  if bs.isEmpty then s1 else (memWrite (.copier d) (rd64 s (p + JRNL_RX_LO_V.off) + off) bs s1).1

/-- Reads ranges of memory in order. -/
def streamRead (d : DieId) : List (Nat × Nat) → State → State × Nat × List Byte
  | [], s => (s, eOK, [])
  | r :: rs, s =>
    match memRead (.copier d) r.1 r.2 s with
    | (s1, 0, bs) =>
      match streamRead d rs s1 with
      | (s2, 0, l) => (s2, eOK, bs ++ l)
      | (s2, c, _) => (s2, c, [])
    | (s1, c, _) => (s1, c, [])

/-- The DST tensors of buffer `b`, in entry order and address order (R366). -/
def streamBytes (d : DieId) (i : Img) (b : Nat) : List Nat → State → State × Nat × List Byte
  | [], s => (s, eOK, [])
  | n :: ns, s =>
    match exportEntry d n s with
    | (s1, 0, e) =>
      match streamRead d (tensorRanges s1 d (readTensor s1 i (if b = 0 then e.2.1 else e.2.2))) s1 with
      | (s2, 0, bs) =>
        match streamBytes d i b ns s2 with
        | (s3, 0, l) => (s3, eOK, bs ++ l)
        | (s3, c, _) => (s3, c, [])
      | (s2, c, _) => (s2, c, [])
    | (s1, c, _) => (s1, c, [])

/-- Sends one message of a stream: to another member by R311, to the package itself at once. -/
def streamSend (d : DieId) (off : Nat) (ch : List Byte) (s : State) : State × Nat :=
  let dst := gf s (pgJRNL d) JRNL_EXP_DST_MEMBER
  let s1 := emit (.exportBytes d dst off ch) s
  if dst = ownMember s d then (doExportStreamReceive d off ch s1, eOK)
  else originate d 1 0 dst 0 (curEpoch s d) (streamHeader d off ch.length ++ ch) s1

/-- EXPORT_STREAM (R366): the newest valid buffer goes to the same die of the destination member, once no copy runs. A failed read or send
fails the frame. -/
def exportStream (d : DieId) (s : State) : State :=
  let p := pgJRNL d
  let b := gf s p JRNL_EXP_STAT_NEWEST
  if gf s p JRNL_EXP_DST_EN = 0 then s
  else if gf s p JRNL_EXP_STAT_BUSY = 1 then onJrnl d (fun j => { j with streamWait := true }) s
  else
    let s0 := onJrnl d (fun j => { j with streamWait := false }) s
    match activeImg s d with
    | none => s0
    | some i =>
      if gf s p (expValid b) = 0 then s0 else
      match streamBytes d i b s.dies[d].jrnl.entries s0 with
      | (s1, 0, bytes) =>
        let s2 := onJrnl d (fun j => { j with streaming := true, streamBuf := b }) s1
        match forUntil (fun k s => streamSend d (k * streamChunk) ((bytes.drop (k * streamChunk)).take streamChunk) s)
            (List.range (cdiv bytes.length streamChunk)) s2 with
        | (s3, 0) => s3
        | (s3, c) => failCause d c s3
      | (s1, c, _) => failCause d c s1

/-- Whether the stream of a die has gone and been acknowledged: none waits for a copy, and no port holds a flit of it. -/
def streamDone (s : State) (d : DieId) : Bool :=
  !s.dies[d].jrnl.streamWait && (!s.dies[d].jrnl.streaming || !portsHold s fun f => f.use == .stream d.val && f.src == ownMember s d)

/-- The copy ends (R364); an uncorrectable read leaves the target without VALID (R378). -/
def copyEnd (d : DieId) (s : State) : State :=
  let p := pgJRNL d
  match activeImg s d with
  | none => sf p JRNL_EXP_STAT_BUSY 0 s
  | some i =>
    let b := gf s p JRNL_EXP_STAT_TARGET
    match forUntil (exportCopy d i b) s.dies[d].jrnl.entries s with
    | (s1, 0) =>
      let a := if b = 0 then JRNL_EXP_STEP0_LO_V.off else JRNL_EXP_STEP1_LO_V.off
      let s2 := wr64 (p + a) s.dies[d].jrnl.copyStep (sf p JRNL_EXP_STAT_NEWEST b (sf p (expValid b) 1 (sf p JRNL_EXP_STAT_BUSY 0 s1)))
      raise p 3 (tallyAdd p 5 1 s2)
    | (s1, _) => sf p JRNL_EXP_STAT_BUSY 0 s1

/-- EXPORT_COPY_DONE (R364): the copy ends, and a stream that waited for it starts (R366). -/
def doExportCopyDone (d : DieId) (s : State) : State :=
  if !dieLive s d || gf s (pgJRNL d) JRNL_EXP_STAT_BUSY == 0 then s else
  let s1 := copyEnd d s
  if s1.dies[d].jrnl.streamWait then exportStream d s1 else s1

/-! ### Meanings of the commands -/

/-- EXPORT_COPY_DONE (R364). -/
def execExportCopyDone (d : DieId) (s : State) : Host.Outcome State Fault Refusal :=
  .next (dieStep d (doExportCopyDone d) s)
/-- EXPORT_STREAM_RECEIVE (R366). -/
def execExportStreamReceive (d : DieId) (off : Nat) (bytes : List Byte) (s : State) : Host.Outcome State Fault Refusal :=
  .next (dieStep d (doExportStreamReceive d off bytes) s)
/-- TWIN_DIGEST (R368). -/
def execTwinDigest (msg : LinkMsg) (s : State) : Host.Outcome State Fault Refusal :=
  .next (clocked (doTwinDigest msg) s)
/-- TWIN_TIMEOUT (R369). -/
def execTwinTimeout (s : State) : Host.Outcome State Fault Refusal :=
  .next (clocked doTwinTimeout s)

end Sys2Proof.Machine
end

