-- ==== Sys2Proof/Machine/Tick.lean ====
section
/-!
DEFINITION. Tick.lean: the beat (R59 to R85): tick and report messages, their way through the package, the tick master, the
package's reports, and the phase timers.
-/
namespace Sys2Proof.Machine

/-! ### Messages (R61, R73) -/

/-- The payload of a tick: the message, and the member set when EXCL or FAILED is set (R73). -/
def tickPayload (t : Tick) : List Byte :=
  padTo 256 (leBytes 8 t.tick ++ leBytes 8 t.step ++ leBytes 2 (t.frame % 4096) ++ leBytes 1 t.type ++ leBytes 1 (tickFlags t) ++
    leBytes 2 (tickLag t) ++ leBytes 2 t.members.length ++ leBytes 2 t.acc ++ leBytes 2 t.slice ++ leBytes 2 t.epoch ++
    leBytes 2 t.pgen ++ leBytes 8 t.masterTs) ++ (if t.excl || t.failed then memberMap t.members else [])

/-- A tick read from its payload. -/
def tickParse (bs : List Byte) : Tick :=
  let f (o n : Nat) : Nat := field bs o n
  let fl := f 19 1
  let map := bs.drop 256
  { tick := f 0 8, step := f 8 8, frame := f 16 2 % 4096, type := f 18 1, abandon := bit fl 0, failed := bit fl 1
    excl := bit fl 2, commit := bit fl 3, hold := bit fl 4, pin := bit fl 5, laggard := f 20 2 % 4096, lagNone := bit (f 20 2) 15
    acc := f 24 2, slice := f 26 2, epoch := f 28 2, pgen := f 30 2, masterTs := f 32 8
    members := if bit fl 1 || bit fl 2 then
        (List.range 4096).filter fun m => bit (field map (m / 8) 1) (m % 8) else [] }

/-- The payload of a report (R61). -/
def reportPayload (r : Report) : List Byte :=
  padTo 256 (leBytes 2 (r.member % 4096) ++ leBytes 2 (r.frame % 4096) ++ leBytes 8 r.openTick ++
    leBytes 1 (b2n r.done + b2n r.contribSent * 2 + b2n r.failed * 4 + b2n r.planMismatch * 8) ++ leBytes 1 r.sentNf ++
    leBytes 1 r.sentSpike ++ leBytes 1 0 ++ leBytes 2 r.failCode)

/-- A report read from its payload. -/
def reportParse (bs : List Byte) : Report :=
  let f (o n : Nat) : Nat := field bs o n
  let fl := f 12 1
  { member := f 0 2 % 4096, frame := f 2 2 % 4096, openTick := f 4 8, done := bit fl 0, contribSent := bit fl 1
    failed := bit fl 2, planMismatch := bit fl 3, sentNf := f 13 1, sentSpike := f 14 1, failCode := f 16 2 }

/-! ### The package (R78) -/

/-- EN is 1 on every live die (R78). -/
def enAll (s : State) : Bool := !(liveDies s).isEmpty && (liveDies s).all fun d => gf s (pgTICK d) TICK_CTRL_EN == 1

/-- Whether a die holds the package to be the master (R59). -/
def isMaster (s : State) (d : DieId) : Bool := gf s (pgTICK d) TICK_CFG_IS_MASTER == 1

/-- The tick die of the master package, while the package takes ticks. -/
def masterDie (s : State) : Option DieId := if enAll s then (pkgTickDie s).filter (isMaster s) else none

/-- Changes what a die keeps of the beat. -/
def onTick (d : DieId) (f : TickDie → TickDie) (s : State) : State := onDie d (fun x => { x with tick := f x.tick }) s

/-- Changes the tick master. -/
def onMaster (f : Master → Master) (s : State) : State := { s with master := f s.master }

/-- Sets a field of the TICK page of every live die. -/
def tickPages (f : Fld) (v : Nat) (s : State) : State := forEach (fun d s => sf (pgTICK d) f v s) (liveDies s) s

/-- MSTATE as TICK_STATE shows it (R90). -/
def mstateCode : MState → Nat
  | .off => 0
  | .running => 1
  | .held => 2

/-- Moves the master to a state with a hold cause (R67, R79). -/
def setMState (st : MState) (cause : Nat) (s : State) : State :=
  tickPages TICK_STATE_HOLD_CAUSE cause (tickPages TICK_STATE_MSTATE (mstateCode st)
    (onMaster (fun m => { m with st := st }) s))

/-- The slot that is ACTIVE on die `d` after a tick that opens frame 0 of `step` (R105). -/
def slotAfter (s : State) (d : DieId) (step : Nat) : Option Slot :=
  let p := s.dies[d].disp
  if gf s (pgDISP d) DISP_SLOT_A_STATE = 3 ∧ p.slotA.actStep = step then some p.slotA
  else if gf s (pgDISP d) DISP_SLOT_B_STATE = 3 ∧ p.slotB.actStep = step then some p.slotB
  else activeSlot s d

/-- The image in force on die `d` after that tick. -/
def imgAfter (s : State) (d : DieId) (step : Nat) : Option Img := (slotAfter s d step).map fun sl => readImg s sl.base

/-- TYPE of frame `f` of `step` on the master's tick die. DESIGN CHOICE: without a graph the one frame is a compute frame. -/
def typeAt (s : State) (d : DieId) (step f : Nat) : Nat :=
  match if f = 0 then imgAfter s d step else activeImg s d with
  | none => 0
  | some i => if f < i.frames then frameType s i f else 0

/-- The step and frame that follow frame `f` of `step` (R69, R73). -/
def nextFrame (s : State) (d : DieId) (step f : Nat) : Nat × Nat :=
  match activeImg s d with
  | none => (step, 0)
  | some i => if f + 1 < i.frames then (step, f + 1) else (step + 1, 0)

/-- Whether frame `f` belongs to a step; without a graph every frame does. -/
def inStep (s : State) (d : DieId) (f : Nat) : Bool :=
  match activeImg s d with
  | none => true
  | some i => decide (f ≤ commitFrame s i)

/-! ### The way of a tick through a package (R74, R75, R309) -/

/-- Latency over the stairway from die `a` to die `h`, hop by hop (R75). -/
def stairLat (s : State) (a h : DieId) : Nat := ((routeSides s a h).map fun x => gf s (pgSWof x.1 x.2) SW_LAT_V).sum

/-- Forwards a tick on one child port, or on its alternate (R74, R309). A tick that finds no port is left to R66. -/
def tickForward (d : DieId) (t : Tick) (p : PortId) (s : State) : State :=
  match if portActive s p then some p else alternate s p with
  | none => s
  | some q =>
    sendOn q { cls := 0, kind := 1, hops := 0, slice := t.slice, dst := gf s (pgLPof q) LP_PEER_MEMBER, src := ownMember s d
               flow := 0, epoch := gf s (pgCE d) CE_EPOCH_V, pgen := gf s (pgLP d) LS_PGEN_CUR, payload := tickPayload t }
      (emit (.tick d q.val t) s)

/-- Child ports of a die (R74). -/
def childPorts (s : State) (d : DieId) : List PortId :=
  (portsIn (gf s (pgTICK d) TICK_CHILDREN_CHILD_PORTS)).filter fun p => portDie p == d

/-- A tick reaches die `h` from die `a`: it is forwarded on the die's own child ports and waits for its edge. -/
def tickReach (a : DieId) (t : Tick) (h : DieId) (s : State) : State :=
  let lat := stairLat s a h
  let t' := { t with acc := min 65535 (t.acc + lat) }
  let s1 := onTick h (fun x => { x with rx := x.rx ++ [⟨t', s.time + lat⟩] }) (tallyAdd (pgTICK h) 0 1 s)
  forEach (tickForward h t') (childPorts s1 h) (if h = a then s1 else emit (.tickToDie h t') s1)

/-- A tick goes from die `a` to die `h` over the stairway, and waits while an edge of its way trains again (R396). -/
def tickAt (a : DieId) (t : Tick) (h : DieId) (s : State) : State :=
  let s1 := swPost a h kTICK 0 0 (tickPayload t) s
  if fabricHeld s a h || !s.dies[h].tick.held.isEmpty then onTick h (fun x => { x with held := x.held ++ [(a, t)] }) s1
  else tickReach a t h s1

/-- The oldest tick that waited for an edge to train reaches die `h` once the edges of its way are ACTIVE. -/
def tickRelease (h : DieId) (s : State) : State :=
  match s.dies[h].tick.held with
  | [] => s
  | x :: rest => if fabricHeld s x.1 h then s else tickReach x.1 x.2 h (onTick h (fun y => { y with held := rest }) s)

/-- A tick at die `a` of the package goes to every live die (R74). -/
def tickSpread (a : DieId) (t : Tick) (s : State) : State := forEach (tickAt a t) (liveDies s) s

/-- The ports a die takes ticks on: none on the master; the parent port, or its alternate while it is not ACTIVE. -/
def parentPort (s : State) (d : DieId) : Option PortId :=
  let p : PortId := ⟨gf s (pgTICK d) TICK_PARENT_PARENT_PORT % 16, Nat.mod_lt _ (by decide)⟩
  if isMaster s d then none else if portActive s p then some p else alternate s p

/-- A tick of port `p` that crossed port `c`, which differs from it after a failover (R307, R309): its die takes it when `p` is a port the
die takes ticks on, with the latency of `c` (R74, R75). One of any other port, or of another slice, is dropped and counted. While EN is 0 on
a live die the package takes no tick. -/
def tickArrive (p c : PortId) (t : Tick) (s : State) : State :=
  let d := portDie c
  let parent := gf s (pgTICK d) TICK_PARENT_PARENT_PORT == p.val && !isMaster s d
  if !enAll s then s
  else if (parentPort s d ≠ some p ∧ !parent) ∨ t.slice ≠ gf s (pgLP d) LS_SLICE_SLICE_ID then tallyAdd (pgTICK d) 5 1 s
  else tickSpread d { t with acc := min 65535 (t.acc + gf s (pgLPof c) LP_LAT_V) } s

/-- TICK_RECEIVE (R74, R75). -/
def doTickReceive (d : DieId) (port : PortId) (t : Tick) (s : State) : State :=
  if !portActive s port || portDie port != d then s else tickArrive port port t s

/-- Whether a die takes its edges from TICK_IN (R77). -/
def pinTaken (s : State) (d : DieId) : Bool := gf s (pgTICK d) TICK_CFG_PIN_MODE == 1 && !isMaster s d

/-- TICK_IN_EDGE (R77): an edge that comes before the message is counted as early and ignored. -/
def doTickInEdge (d : DieId) (s : State) : State :=
  if !dieLive s d || !pinTaken s d then s
  else if s.dies[d].tick.rx.isEmpty then tallyAdd (pgTICK d) 5 1 s
  else onTick d (fun x => { x with pinEdge := true }) s

/-- TICK_LOST (R66, R67). -/
def doTickLost (d : DieId) (s : State) : State :=
  let x := s.dies[d].tick
  let waits := match x.last with | some t => !t.hold | none => false
  if dieLive s d && enAll s && !isMaster s d && waits && !x.freeWait && !x.lost && x.rx.isEmpty then
    sf (pgTICK d) TICK_STATE_HOLD_CAUSE 5 (raise (pgTICK d) 1 (onTick d (fun x => { x with lost := true }) s))
  else s

/-! ### Emission (R60, R70 to R73, R79) -/

/-- Members of the slice as the active routing bank of the tick die names them (R521). -/
def sliceMembers (s : State) (d : DieId) : List Nat :=
  (List.range 4096).filter fun m => m == ownMember s d || sget z32 s.dies[d].rt m != 0

/-- A tick of the master with nothing in it but what every tick carries (R73, R315, R343). -/
def tickBase (s : State) (d : DieId) : Tick :=
  let m := s.master
  { tick := m.tick + 1, step := m.step, frame := m.frame, type := m.type, abandon := false, failed := false, excl := false
    commit := false, hold := false, pin := gf s (pgTICK d) TICK_CFG_PIN_MODE == 1, laggard := 0, lagNone := false, acc := 0
    slice := gf s (pgLP d) LS_SLICE_SLICE_ID, epoch := gf s (pgCE d) CE_EPOCH_V, pgen := gf s (pgLP d) LS_PGEN_NEXT
    masterTs := timeStamp s d.val, members := [] }

/-- The master emits a tick; one without HOLD opens a frame. -/
def emitTick (d : DieId) (t : Tick) (s : State) : State :=
  let ms := sliceMembers s d
  let first := t.frame == 0 || !inStep s d t.frame
  tickSpread d t (onMaster (fun m =>
    if t.hold then { m with tick := t.tick, openAt := s.time, minPassed := false, reports := [], contrib := [], excluded := [] }
    else { m with
      tick := t.tick, step := t.step, frame := t.frame, type := t.type, openAt := s.time, minPassed := false, members := ms
      reports := [], contrib := [], excluded := [], bad := m.bad && !first }) s)

/-- The master enters HELD (R79): a tick with HOLD ends the frame, and the frame held back is kept. DEDUCED: a pending STOP ends with
a hold that stands before frame 0, and stays pending past a hold before an interlude frame. -/
def emitHold (d : DieId) (t : Tick) (cause heldStep heldFrame : Nat) (s : State) : State :=
  let s0 := setMState .held cause (onMaster (fun m => { m with
    heldStep := heldStep, heldFrame := heldFrame, stopPending := m.stopPending && heldFrame != 0 }) s)
  let s1 := if heldFrame = 0 then tickPages TICK_CTRL_STOP_PENDING 0 s0 else s0
  emitTick d { t with hold := true, step := s.master.step, frame := s.master.frame, type := s.master.type }
    (raise (pgTICK d) 6 s1)

/-- The tick that opens a frame (R79), or a hold in place of a step start tick while STOP is pending. -/
def emitNext (d : DieId) (t : Tick) (step frame : Nat) (s : State) : State :=
  if frame = 0 ∧ s.master.stopPending then emitHold d t 1 step 0 s
  else emitTick d { t with step := step, frame := frame, type := typeAt s d step frame } s

/-- An abandon tick (R70, R71): HOLD when RETRY_MAX abandons of the step have occurred in a row. DEDUCED: it is a step start tick, so
that a pending STOP holds at it as well. -/
def emitAbandon (d : DieId) (t : Tick) (s : State) : State :=
  let n := s.master.abandons + 1
  let t' := { t with abandon := true }
  let s1 := onMaster (fun m => { m with abandons := min n 15 }) s
  if gf s (pgTICK d) TICK_CFG_RETRY_MAX ≤ n then emitHold d t' 2 s.master.step 0 (raise (pgTICK d) 5 s1)
  else if s.master.stopPending then emitHold d t' 1 s.master.step 0 s1
  else emitTick d { t' with step := s.master.step, frame := 0, type := typeAt s d s.master.step 0 } s1

/-- TICK_EMIT (R60, R70, R72): the tick that ends the frame in course, with its flags, laggard and member set. A re-shard frame's tick
carries the armed epoch when the master is armed and nothing failed; the master's CUR takes it in the same clock (R343). DEDUCED: on every
live die of the master package. -/
def endFrame (d : DieId) (lag : Nat) (s0 : State) : State :=
  let m := s0.master
  let stepping := inStep s0 d m.frame
  let commits := match activeImg s0 d with | none => false | some i => m.frame == commitFrame s0 i
  let arm := m.type == 5 && !m.bad && gf s0 (pgCE d) CE_RESHARD_ARMED == 1
  let s := if arm then forEach (fun h s => sf (pgCE h) CE_EPOCH_V s0.dies[d].ce.armEpoch s) (liveDies s0) s0 else s0
  let t := { tickBase s d with
    laggard := lag, excl := !m.excluded.isEmpty, members := m.excluded.mergeSort (· ≤ ·) }
  let nx := nextFrame s d m.step m.frame
  if stepping && m.bad then emitAbandon d t s
  else if stepping then
    emitNext d { t with commit := commits } nx.1 nx.2
      (if commits then onMaster (fun m => { m with abandons := 0 }) s else s)
  else if m.bad && m.type == 5 then emitHold d { t with failed := true } 4 nx.1 nx.2 s
  else if m.bad then emitNext d { t with failed := true } nx.1 nx.2 (raise (pgTICK d) 8 s)
  else emitNext d t nx.1 nx.2 s

/-- A frame is open at the master: a tick that opened it is the last emitted. -/
def masterOpen (s : State) : Bool := s.master.st == .running && !s.master.resumeWait

/-- Whether every member is on record (R60). -/
def allOnRecord (m : Master) : Bool := m.members.all fun x => m.excluded.contains x || m.reports.any fun r => r.member == x

/-- Emits the tick that ends the frame when R60 holds. -/
def tryEnd (d : DieId) (lag : Nat) (s : State) : State :=
  if masterOpen s && allOnRecord s.master && s.master.minPassed then endFrame d lag s else s

/-- The lowest of a list. -/
def lowest (l : List Nat) (z : Nat) : Nat := l.foldl min (l.headD z)

/-- MIN_PERIOD_EXPIRY (R60, R79, R81): the minimum period since the last emission has passed. It passes while EN is 0 too, and
the master emits nothing then (R78, R80). -/
def doMinPeriodExpiry (s : State) : State :=
  match (pkgTickDie s).filter (isMaster s) with
  | none => s
  | some d =>
    let s1 := onMaster (fun m => { m with minPassed := true }) s
    let m := s.master
    if !enAll s then s1
    else if m.st = .running ∧ m.resumeWait then
      emitTick d { tickBase s d with
        lagNone := true, step := m.heldStep, frame := m.heldFrame, type := typeAt s d m.heldStep m.heldFrame }
        (onMaster (fun m => { m with resumeWait := false }) s1)
    else
      tryEnd d (match m.reports.getLast? with | some r => r.member | none => lowest m.excluded (ownMember s d)) s1

/-- DEADLINE_EXPIRY (R63, R81): every member without a CONTRIB_SENT or DONE report enters the excluded set. In replay mode no
deadline is applied (R360). -/
def doDeadlineExpiry (s : State) : State :=
  match masterDie s with
  | none => s
  | some d =>
    let m := s.master
    if !masterOpen s || m.type != 1 || replaying s d then s else
    let out := m.members.filter fun x =>
      !(m.contrib.contains x || m.excluded.contains x || m.reports.any fun r => r.member == x)
    if out.isEmpty then s
    else tryEnd d (lowest out 0) (onMaster (fun m => { m with excluded := m.excluded ++ out }) s)

/-- WATCHDOG_EXPIRY (R65): the silent members are declared failed, and the master enters HELD. -/
def doWatchdogExpiry (s : State) : State :=
  match masterDie s with
  | none => s
  | some d =>
    let m := s.master
    let silent := m.members.filter fun x => !(m.excluded.contains x || m.reports.any fun r => r.member == x)
    if !masterOpen s || silent.isEmpty then s else
    let s1 := blockErr (pgTICK d) eMEMBER_SILENT (raise (pgTICK d) 4 (tallyAdd (pgTICK d) 7 1 s))
    let t := { tickBase s d with failed := true, members := silent.mergeSort (· ≤ ·), laggard := lowest silent 0 }
    if inStep s d m.frame then
      emitHold d { t with abandon := true } 3 m.step 0 (onMaster (fun m => { m with abandons := min (m.abandons + 1) 15 }) s1)
    else emitHold d t 3 (nextFrame s d m.step m.frame).1 (nextFrame s d m.step m.frame).2 s1

/-- A report reaches the master's tick die (R60, R64, R70): a late one, one of an excluded member or for another frame is dropped
and counted. -/
def judgeReport (d : DieId) (r : Report) (s : State) : State :=
  let m := s.master
  let ok := masterOpen s && r.frame == m.frame && r.openTick == m.tick && m.members.contains r.member &&
    !m.excluded.contains r.member && !(m.reports.any fun x => x.member == r.member)
  if !ok then tallyAdd (pgTICK d) 6 1 s
  else
    let worse := r.failed || r.planMismatch || (inStep s d m.frame && (r.sentNf != 0 || r.sentSpike != 0))
    let s1 := onMaster (fun m => { m with
      bad := m.bad || worse
      contrib := if r.contribSent then r.member :: m.contrib else m.contrib
      reports := if r.done then m.reports ++ [r] else m.reports }) s
    if r.done then tryEnd d r.member s1 else s1

/-- DONE_REPORT (R61). -/
def doDoneReport (r : Report) (s : State) : State :=
  match masterDie s with
  | none => s
  | some d => judgeReport d r s

/-! ### The package's reports (R61, R62, R78, R116) -/

/-- The frame the last tick edge of a die opened. -/
def openTick (s : State) (d : DieId) : Option Tick := s.dies[d].tick.last.filter fun t => !t.hold

/-- The die runs no task of the frame that tick `t` opened (R62, R107, R359). -/
def planOff (s : State) (d : DieId) (t : Tick) : Bool :=
  gf s (pgDISP d) DISP_ACTIVE_MISMATCH == 1 || s.dies[d].jrnl.missed ||
    (match activeImg s d with
      | none => true
      | some i => decide (i.frames ≤ t.frame) || frameType s i t.frame != t.type)

/-- Whether the die's contributions of frame `f` have left the ports (R61, R328). -/
def contribLeft (s : State) (d : DieId) (f : Nat) : Bool :=
  match activeImg s d with
  | none => true
  | some i =>
    let own (op : Nat) : List Nat := ((ceTasks s i op).filter fun e => e.2.frame == f).map (·.1)
    (own 1 ++ own 5).all (fun t => tstat s d t != .idle) && !contribHeld s d f &&
      ((own 5).isEmpty || s.dies[tickDie s d].ce.pkgSent || gf s (pgDISP d) DISP_FRAME_FAILED == 1)

/-- Whether the twin holds back the report of a commit frame: the tick die waits for the package's digest of this attempt, and for the
comparison to end (R352, R369). -/
def twinHolds (s : State) (d : DieId) : Bool :=
  let formed (h : DieId) : Bool := s.dies[h].jrnl.dieDig.any fun x => x.1 == s.dies[d].disp.attStep
  tickDie s d == d && twinOn s d && gf s (pgJRNL d) JRNL_TWIN_HOLD == 1 && (s.dies[d].jrnl.twinWait || !(liveDies s).all formed)

/-- Whether an export copy, a stream or the twin holds the die's report of the frame back (R365, R366, R369). -/
def reportHeld (s : State) (d : DieId) (t : Tick) : Bool :=
  (t.type == 2 && (gf s (pgJRNL d) JRNL_EXP_STAT_BUSY == 1 || twinHolds s d)) || (t.type == 4 && !streamDone s d)

/-- Whether the die is done with the frame tick `t` opened: nothing of it is left to run, no sample of it is left to deliver (R163), and
nothing holds its report back. -/
def dieDone (s : State) (d : DieId) (t : Tick) : Bool :=
  !reportHeld s d t && (planOff s d t || (frameEnded s d t.frame && s.dies[d].shadow.isEmpty))

/-- Whether the frame has failed on the die (R62, R114, R474). -/
def dieFailed (s : State) (d : DieId) (t : Tick) : Bool :=
  gf s (pgDISP d) DISP_FRAME_FAILED == 1 || s.dies[d].disp.failCause != 0 || planOff s d t || stopped s

/-- What the frame that tick `t` opened contributes to a report, while it is in course on the die (R61, R62, R116). -/
def frameNow (s : State) (d : DieId) (t : Tick) : EndedFrame :=
  let x := s.dies[d].disp
  { tick := t, failed := dieFailed s d t, off := planOff s d t, nf := s.dies[d].watch.nfBits, spike := s.dies[d].watch.spikeBits
    fault := x.faults.head?.map fun f => x.faults.foldl (fun (a : Nat × Nat) b => if b.1 < a.1 then b else a) f
    cause := if x.failCause = 0 ∧ stopped s then eCOOLANT_STOP else x.failCause }

/-- FAIL_CODE of the package (R62, R116): the lowest-ID faulted task on the lowest-numbered die that has one, else the cause. DESIGN CHOICE:
of several causes a coolant stop stands first and a plan mismatch second. -/
def packageCode (fs : List EndedFrame) : Nat :=
  let fault := fs.findSome? (·.fault)
  if fault.isNone && fs.any fun f => f.cause == eCOOLANT_STOP then eCOOLANT_STOP
  else if fs.any (·.off) then eFRAME_FAILED
  else
    match fault with
    | some f => f.2
    | none => ((fs.find? fun f => f.cause != 0).map (·.cause)).getD eFRAME_FAILED

/-- Sends a report of the package to the master; without a route it is left to the watchdog. -/
def sendReport (d : DieId) (r : Report) (s : State) : State :=
  let s1 := emit (.report r) (if r.failed then tallyAdd (pgTICK d) 1 1 s else s)
  if isMaster s d then judgeReport d r s1
  else (originate d 0 2 (gf s (pgTICK d) TICK_PARENT_MASTER_ID) 0 (curEpoch s1 d) (reportPayload r) s1).1

/-- What the journal records of a report on die `h` (R353): the first failure, and the die's own sentinel bits. -/
def noteReport (r : Report) (x : DieId × EndedFrame) (s : State) : State :=
  onRec x.1 (fun j => { j with
    failCode := if r.failed && j.failCode == 0 then r.failCode else j.failCode
    failFrame := if r.failed && j.failCode == 0 then r.frame else j.failFrame
    sentNf := j.sentNf ||| x.2.nf
    sentSpike := j.sentSpike ||| x.2.spike }) s

/-- The package's report of the frame tick `t` opened, from what each live die contributes to it (R61, R62). -/
def reportOf (s : State) (td : DieId) (t : Tick) (fs : List EndedFrame) (done sent : Bool) : Report :=
  let failed := done && fs.any (·.failed)
  { member := ownMember s td, frame := t.frame, openTick := t.tick, done := done, contribSent := sent, failed := failed
    planMismatch := done && fs.any (·.off), sentNf := fs.foldl (fun n f => n ||| f.nf) 0
    sentSpike := fs.foldl (fun n f => n ||| f.spike) 0, failCode := if failed then packageCode fs else 0 }

/-- Sends a report, which every live die notes in its record. -/
def fileReport (td : DieId) (r : Report) (fs : List (DieId × EndedFrame)) (s : State) : State :=
  sendReport td r (forEach (noteReport r) fs
    (if r.contribSent then onTick td (fun x => { x with csent := some r.openTick }) s else s))

/-- The tick die sends the package's report once every live die is done, or has sent its last contribution (R61, R78). -/
def packageReport (s : State) : State :=
  match pkgTickDie s with
  | none => s
  | some td =>
    match openTick s td with
    | none => s
    | some t =>
      let live := liveDies s
      let same := live.all fun d => (s.dies[d].tick.last.map (·.tick)) == some t.tick
      let allDone := live.all fun d => s.done[d].done
      let x := s.dies[td].tick
      let sent := t.type == 1 && x.csent != some t.tick && live.all fun d => s.done[d].contribSent
      if !same || x.doneAt.isSome || !(allDone || sent) then s else
      let fs := live.map fun d => (d, frameNow s d t)
      let s1 := if allDone then
          tickPages TICK_STATE_AWAIT 1 (forEach (fun d s => onTick d (fun x => { x with doneAt := some s.time }) s) live s) else s
      fileReport td (reportOf s td t (fs.map (·.2)) allDone sent) fs s1

/-- The doomed tasks that frame-start has not issued end FAILED (R112). -/
def failDoomed (d : DieId) (s : State) : State :=
  match activeImg s d with
  | none => s
  | some i => forEach (endFailed d i) ((unissued s d i).filter fun t => s.dies[d].disp.doomed.contains t) s

/-- A die leaves the frame in course and keeps what it contributes to the package's report. -/
def closeFrame (d : DieId) (s : State) : State :=
  match s.dies[d].disp.cur with
  | none => s
  | some t => onDisp d (fun x => { x with cur := none, past := x.past ++ [frameNow s d t] }) s

/-- A die leaves the frame in course and takes up frame `f`: tasks an earlier fault has doomed end with FRAME_FAILED (R114). -/
def takeUp (d : DieId) (f : LateFrame) (later : List LateFrame) (s : State) : State :=
  let p := pgDISP d
  let s1 := onDisp d (fun x => { x with
      frameOpen := !f.off, cur := some f.tick, later := later, faults := [], failCause := f.cause }) (closeFrame d s)
  let s2 := onDie d (fun x => { x with watch := { x.watch with nfBits := f.nf, spikeBits := f.spike } }) s1
  failDoomed d (sf p DISP_FRAME_FAILED 0 (sf p DISP_FRAME_CATCHUP (b2n (!later.isEmpty)) (sf p DISP_FRAME_FRAME f.tick.frame s2)))

/-- Every task of a frame that failed while it waited ends with FRAME_FAILED (R113, R114). -/
def failStarted (d : DieId) (f : LateFrame) (s : State) : State :=
  match activeImg s d with
  | none => s
  | some i => if f.failed && !f.off then failFrame d i [] s else s

/-- A die starts on a frame (R113). A frame the die's graph does not have runs no task (R62). -/
def startFrame (d : DieId) (f : LateFrame) (later : List LateFrame) (s : State) : State := failStarted d f (takeUp d f later s)

/-- What die `d` contributes to the report of the frame that tick `n` opened, once it has left that frame. -/
def leftFrame (s : State) (n : Nat) (d : DieId) : Option (DieId × EndedFrame) :=
  (s.dies[d].disp.past.find? fun x => x.tick.tick == n).map fun x => (d, x)

/-- The package's report of a frame that its dies finish late, once the last of them has left it; the master drops it (R64, R113). -/
def lateReport (t : Tick) (s : State) : State :=
  let fs := (liveDies s).filterMap (leftFrame s t.tick)
  match pkgTickDie s with
  | none => s
  | some td =>
    if fs.length ≠ (liveDies s).length then s
    else fileReport td (reportOf s td t (fs.map (·.2)) true (t.type == 1 && s.dies[td].tick.csent != some t.tick)) fs s

/-- The report with CONTRIB_SENT of a collective frame that some die of the package finishes late (R61, R113). -/
def lateContrib (t : Tick) (s : State) : State :=
  let gone (h : DieId) : Bool :=
    (leftFrame s t.tick h).isSome || ((s.dies[h].disp.cur.map (·.tick)) == some t.tick && contribLeft s h t.frame)
  match pkgTickDie s with
  | none => s
  | some td =>
    let fs := (liveDies s).map fun h => (leftFrame s t.tick h).getD (h, frameNow s h t)
    if t.type = 1 ∧ s.dies[td].tick.csent ≠ some t.tick ∧ (liveDies s).all gone then
      fileReport td (reportOf s td t (fs.map (·.2)) false true) fs s
    else s

/-- Whether the die has nothing left to run of the frame in course. -/
def courseEnded (s : State) (d : DieId) : Bool := !s.dies[d].disp.frameOpen || frameEnded s d (curFrame s d)

/-- A die that finishes a frame already ended goes on to the next it has opened (R113), with the FAULT item of the frame it leaves. -/
def catchUp (d : DieId) (s : State) : State :=
  match s.dies[d].disp.later, s.dies[d].disp.cur with
  | f :: rest, some t =>
    if courseEnded s d then
      let s1 := match faultItem s d with | some it => addItem d it s | none => s
      lateReport t (startFrame d f rest s1)
    else lateContrib t s
  | _, _ => s

/-- DIE_DONE_STATE (R78): the die's done state for the frame its last tick opened goes to the tick die. -/
def doDieDoneState (d : DieId) (s : State) : State :=
  if !dieLive s d || !enAll s then s else
  match openTick s d with
  | none => s
  | some t =>
    if !s.dies[d].disp.later.isEmpty then catchUp d s
    else
      let old := s.done[d]
      let new : DoneSt := ⟨old.done || dieDone s d t, dieFailed s d t, old.contribSent || (t.type == 1 && contribLeft s d t.frame)⟩
      if old.done || !(new.done || new.contribSent) || (new == old) then s else
      let s1 := { s with done := s.done.set d new }
      packageReport (if d = tickDie s d then s1
        else swPost d (tickDie s d) kDONE 0 0 (leBytes 1 (b2n new.done + b2n new.contribSent * 2 + b2n new.failed * 4))
          (emit (.doneState d new.failed) s1))

/-! ### Writes of TICK_CTRL (R67, R78 to R80, R90) -/

/-- The comparisons of R78, R314, R320 and R367 when EN changes to 1 on die `d`. -/
def enableOk (s : State) (d : DieId) : Bool :=
  let live := liveDies s
  let same (f : DieId → List W) : Bool := live.all fun h => f h == f d
  let regs (p : Nat) (offs : List Nat) : List W := offs.map fun o => rd s (p + o)
  let span (lo n : Nat) : List Nat := (List.range n).map fun k => lo + 4 * k
  let group := (positions s d).map (groupMember s d)
  dieLive s (tickDie s d) &&
    same (fun h => regs (pgTICK h) (span 0x104 8)) &&
    same (fun h => regs (pgLP h) [0x200, 0x204]) && live.all (fun h => rtDigest s h == rtDigest s d) &&
    (group.zip group.tail).all (fun e => decide (e.1 < e.2)) && groupMember s d (ownPos s d) == ownMember s d &&
    same (fun h => regs (pgCE h) (span 0x100 22)) &&
    same (fun h => regs (pgJRNL h) [0x150])

/-- Forgets the ticks and the frame of a die whose package takes no tick. -/
def dropTicks (s : State) : State := forEach (fun d s => onTick d (fun x => { x with rx := [], held := [], pinEdge := false }) s) (liveDies s) s

/-- The master emits the tick of RUN (R79). -/
def runMaster (d : DieId) (s : State) : State :=
  let p := pgTICK d
  let step := rd64 s (p + TICK_STEP_LO_V.off)
  let s1 := setMState .running 0 (onMaster (fun m => { m with
    tick := rd64 s (p + TICK_NUM_LO_V.off), abandons := 0, bad := false, resumeWait := false }) s)
  emitTick d { tickBase s1 d with lagNone := true, step := step, frame := 0, type := typeAt s d step 0 } s1

/-- RESUME (R79): the tick that opens the frame held back goes out after the minimum period. -/
def resumeMaster (d : DieId) (s : State) : State :=
  let m := s.master
  let s1 := setMState .running 0 s
  if m.minPassed then
    emitTick d { tickBase s d with
      lagNone := true, step := m.heldStep, frame := m.heldFrame, type := typeAt s d m.heldStep m.heldFrame } s1
  else onMaster (fun m => { m with resumeWait := true }) s1

/-- What a write of TICK_CTRL that no check rejects does, with EN and RUN before it; the register holds EN and RUN as written. -/
def tickCtrlEffect (d : DieId) (en run : Nat) (v : Nat) (s : State) : State :=
  let en' := v % 2
  let run' := v / 2 % 2
  let s1 :=
    if en = 0 ∧ en' = 1 then
      let s1 := onTick d (fun x => { x with freeWait := true, lost := false }) s
      if gf s (pgWATCH d) WATCH_LADDER_VALID = 0 then ladderReset d s1 else s1
    else if en = 1 ∧ en' = 0 then dropTicks s
    else s
  let s2 :=
    if isMaster s d then
      match s.master.st with
      | .off => if run = 0 ∧ run' = 1 then runMaster d s1 else s1
      | .running => s1
      | .held =>
        if run = 1 ∧ run' = 0 then setMState .off 0 s1
        else if bit v 2 then resumeMaster d s1 else s1
    else s1
  if bit v 3 then tickPages TICK_CTRL_STOP_PENDING 1 (onMaster (fun m => { m with stopPending := true }) s2) else s2

/-- The checks of R78 to R80 and R90 on a write of TICK_CTRL; `s` holds the register before it. -/
def tickCtrlOk (s : State) (d : DieId) (v : Nat) : Bool :=
  let en := gf s (pgTICK d) TICK_CTRL_EN
  let run := gf s (pgTICK d) TICK_CTRL_RUN
  let en' := v % 2
  let run' := v / 2 % 2
  (isMaster s d || !(run' == 1 || bit v 2 || bit v 3)) &&
    (!isMaster s d ||
      (match s.master.st with
        | .off => !(run' == 1 && en' == 0) && !bit v 2
        | .running => !(run == 1 && run' == 0) && !(en == 1 && en' == 0) && !bit v 2
        | .held => !(bit v 2 && en' == 0))) &&
    (!(en == 0 && en' == 1) || enableOk s d)

/-- TICK_CTRL written with `v` (R78 to R80, R90). -/
def tickCtrlWrite (d : DieId) (v : Nat) (s : State) : State × Nat :=
  let en := gf s (pgTICK d) TICK_CTRL_EN
  let run := gf s (pgTICK d) TICK_CTRL_RUN
  if tickCtrlOk s d v then
    (tickCtrlEffect d en run v (sf (pgTICK d) TICK_CTRL_RUN (v / 2 % 2) (sf (pgTICK d) TICK_CTRL_EN (v % 2) s)), eOK)
  else (s, eBAD_VALUE)

/-! ### Phase timers (R84, R112) -/

/-- The stall cause of an unfinished task (R84, R112). -/
def stallOf (s : State) (d : DieId) (i : Img) (t : Nat) : Nat :=
  let tk := readTask s i t
  let owed := allDies.any fun h => h != d && !dieLive s h && i.inRemote.getD h.val 0 != 0
  if unitFenced s d tk.unit || (owed && tstat s d t == .idle && countOf s d i t != 0 && headOf s d i tk.unit == some t) then 10
  else if mvHeld s d i tk then 8
  else match tk.stall with | 0 => 7 | 1 => 8 | 2 => 9 | _ => 11

/-- The phase a die charges the clock to (R84). -/
def phaseNow (s : State) (d : DieId) : Nat :=
  let rest := if (openTick s d).any (fun t => t.type == 2) && gf s (pgJRNL d) JRNL_EXP_STAT_BUSY == 1 then 11 else 6
  match activeImg s d with
  | none => rest
  | some i =>
    if !s.dies[d].disp.frameOpen then rest else
    let ts := frameTasks s i (curFrame s d)
    match ts.find? fun t => tstat s d t == .executing with
    | some t => min (readTask s i t).phase 5
    | none =>
      match ts.find? fun t => match tstat s d t with | .ended _ => false | _ => true with
      | some t => stallOf s d i t
      | none => rest

/-- One reference clock on die `d`. -/
def chargePhase (d : DieId) (s : State) : State :=
  let k := phaseNow s d
  onTick d (fun x => { x with phRun := x.phRun.setIfInBounds k (x.phRun.toList.getD k 0 + 1) }) s

/-- PH_LO and PH_HI: the timer PH_SEL names. -/
def phaseSel (s : State) (d : DieId) (sel : Nat) : Nat :=
  let x := s.dies[d].tick
  (if bit sel 8 then x.phLast else x.phRun).toList.getD (sel % 16) 0

/-! ### Engine start (R86, R87) -/

/-- NOW is the lower of the ramp rate and the cap rate (R170). -/
def setRamp (d : DieId) (m ramp : Nat) (s : State) : State :=
  let p := pgMXof d m
  sf p MX_RATE_NOW (min ramp (gf s p MX_RATE_CAP)) (sf p MX_RATE_RAMP ramp s)

/-- ARRAY_START (R86, R87): the array of a rank starts at a tick and issues at 16/64. -/
def doArrayStart (d : DieId) (rank : Fin 6) (s : State) : State :=
  match rankArray s d rank.val with
  | some m => if dieLive s d then setRamp d m 16 s else s
  | none => s

/-- RAMP_STEP (R87): the ramp rate rises by 1/64 until it reaches 64/64. -/
def doRampStep (d : DieId) (mx : Fin 7) (s : State) : State :=
  if dieLive s d then setRamp d mx.val (min 64 (gf s (pgMXof d mx.val) MX_RATE_RAMP + 1)) s else s

/-! ### Meanings of the commands -/

/-- DONE_REPORT (R61). -/
def execDoneReport (rep : Report) (s : State) : Host.Outcome State Fault Refusal :=
  .next (clocked (doDoneReport rep) s)
/-- DIE_DONE_STATE (R78). -/
def execDieDoneState (d : DieId) (s : State) : Host.Outcome State Fault Refusal :=
  .next (dieStep d (doDieDoneState d) s)
/-- MIN_PERIOD_EXPIRY (R60). -/
def execMinPeriodExpiry (s : State) : Host.Outcome State Fault Refusal :=
  .next (clocked doMinPeriodExpiry s)
/-- DEADLINE_EXPIRY (R63). -/
def execDeadlineExpiry (s : State) : Host.Outcome State Fault Refusal :=
  .next (clocked doDeadlineExpiry s)
/-- WATCHDOG_EXPIRY (R65). -/
def execWatchdogExpiry (s : State) : Host.Outcome State Fault Refusal :=
  .next (clocked doWatchdogExpiry s)
/-- TICK_LOST (R66). -/
def execTickLost (d : DieId) (s : State) : Host.Outcome State Fault Refusal :=
  .next (dieStep d (doTickLost d) s)
/-- TICK_RECEIVE (R74). -/
def execTickReceive (d : DieId) (port : PortId) (t : Tick) (s : State) : Host.Outcome State Fault Refusal :=
  .next (dieStep d (doTickReceive d port t) s)
/-- TICK_IN_EDGE (R77). -/
def execTickInEdge (d : DieId) (s : State) : Host.Outcome State Fault Refusal :=
  .next (dieStep d (doTickInEdge d) s)
/-- ARRAY_START (R86). -/
def execArrayStart (d : DieId) (rank : Fin 6) (s : State) : Host.Outcome State Fault Refusal :=
  .next (dieStep d (doArrayStart d rank) s)
/-- RAMP_STEP (R87). -/
def execRampStep (d : DieId) (mx : Fin 7) (s : State) : Host.Outcome State Fault Refusal :=
  .next (dieStep d (doRampStep d mx) s)

end Sys2Proof.Machine
end

