-- ==== Sys2Proof/Machine/Edge.lean ====
section
/-!
DEFINITION. Edge.lean: what a die does at a tick edge (R75, R77 and the rules that act there): snapshots, the facts of the tick, cut
tasks, commit and abandon, slot activation, the step start, and the frame the tick opens.
-/
namespace Sys2Proof.Machine

/-! ### Snapshots and the tally stream (R55, R429) -/

/-- Every page of the die with TALLY_SNAP copies its tallies (R55). -/
def snapTallies (d : DieId) (s : State) : State :=
  let on (key : Nat) : Bool := homeOf key == d.val && gf s (pageBase key) CTRL_SNAP == 1
  { s with snap := (s.tally.filter fun e => on e.1).foldl (fun m e => sset zt m e.1 e.2) (skeep (fun k => !on k) s.snap) }

/-- The tally a list entry names: its page and key (R435). -/
def listed (e : W) : Nat × Nat :=
  let p := fld e HOST_TL_ENTRY_HOME * 0x1000000 + fld e HOST_TL_ENTRY_PAGE_NUM * 0x1000
  (p, p + fld e HOST_TL_ENTRY_INDEX)

/-- Valid entries of the tally list, in list order. -/
def listEntries (s : State) : List (Nat × W) :=
  ((List.range 256).map fun n => (n, sget z32 s.stw.tlist n)).filter fun e => fld e.2 HOST_TL_ENTRY_VALID == 1

/-- The die latches its listed tallies (R429); nothing is latched while the tally stream is disabled. -/
def latchTallies (d : DieId) (s : State) : State :=
  if gf s (pgQ 3) Q_CTRL_EN = 0 then s else
  let own := (listEntries s).filter fun e => fld e.2 HOST_TL_ENTRY_HOME == d.val
  { s with stw := { s.stw with
    tlatch := own.foldl (fun m e => sset zt m e.1 (sget zt s.tally (listed e.2).2)) s.stw.tlatch } }

/-- TALLY_STREAM (R429): once every live die has taken the edge, the steward writes a header and the listed tallies. -/
def tallyStream (t : Tick) (s : State) : State :=
  let all := (liveDies s).all fun d => (s.dies[d].tick.last.map (·.tick)) == some t.tick
  if gf s (pgQ 3) Q_CTRL_EN = 0 ∨ !all then s else
  let es := listEntries s
  forEach (fun (e : Nat × W) s =>
    let h := fld e.2 HOST_TL_ENTRY_HOME
    let lost := allDies.any fun d => d.val == h && !dieLive s d
    let v := if h < 4 then sget zt s.stw.tlatch e.1 else sget zt s.tally (listed e.2).2
    (qPush 3 (entry 2 (fld e.2 HOST_TL_ENTRY_INDEX) (if lost then 2 else b2n v.sat) (pageId (listed e.2).1)
      (if lost then 0 else v.count.toNat)) s).1) es (qPush 3 (entry 3 0 0 es.length t.tick) s).1

/-! ### The facts of a tick (R75, R81, R83, R89 to R91) -/

/-- Slack of the frame a tick ends (R81); a tick that ends no frame leaves it. DEDUCED: without a done-report it is 0. -/
def tickSlack (s : State) (d : DieId) (t : Tick) : Nat :=
  if t.lagNone then gf s (pgTICK d) TICK_SLACK_V
  else match s.dies[d].tick.doneAt with
    | some a => min (s.time - a) (2 ^ 32 - 1)
    | none => 0

/-- LAGGARD of the tick and the count of R83, with its event. -/
def laggardRun (d : DieId) (t : Tick) (s : State) : State :=
  let p := pgTICK d
  let self := !t.lagNone && t.laggard == ownMember s d
  let n := gf s p TICK_LAGGARD_RUN
  let n' := if t.lagNone then n else if self then min (n + 1) 65535 else 0
  let s1 := wr (p + TICK_LAGGARD_LAGGARD.off)
    (BitVec.ofNat 32 (t.laggard % 4096 + b2n self * 2 ^ 12 + b2n t.lagNone * 2 ^ 13 + n' * 2 ^ 16)) s
  if self then
    let s2 := tallyAdd p 3 1 s1
    if n' = gf s p TICK_LAG_THRESH_V then raise p 2 s2 else s2
  else s1

/-- The registers, tallies and events that show a tick on a die, TICK_NUM apart. DEDUCED: ABANDONS counts for the current step, so a tick
of another step that is no abandon sets it to 0; a commit does so once the record has taken it (R353). -/
def tickFacts (d : DieId) (t : Tick) (s : State) : State :=
  let p := pgTICK d
  let late := decide (gf s p TICK_LEAD_V < t.acc) && !pinTaken s d
  let s1 := wr (p + TICK_SLACK_V.off) (BitVec.ofNat 32 (tickSlack s d t)) s
  let s2 := wr (p + TICK_LAST_FRAME.off) (BitVec.ofNat 32 (t.frame % 4096 + t.type % 8 * 2 ^ 12 + tickFlags t * 2 ^ 15)) s1
  let s3 := wr (p + TICK_ACC_ACC.off) (BitVec.ofNat 32 (t.acc % 65536 + b2n late * 65536)) s2
  let s4 := forEach (fun n s => wr (p + TICK_SET_V.off + 4 * n)
      (BitVec.ofNat 32 (leNat (((memberMap t.members).drop (4 * n)).take 4))) s) (List.range 128)
    (wr (p + TICK_SET_COUNT_V.off) (BitVec.ofNat 32 t.members.length) s3)
  let s5 := wr64 (p + TICK_STEP_LO_V.off) t.step (sf p TICK_STATE_AWAIT 0 s4)
  let s6 := if isMaster s d then s5 else sf p TICK_STATE_HOLD_CAUSE 0 s5
  let s7 := laggardRun d t s6
  let s8 := if late then raise p 0 (tallyAdd p 4 1 s7) else s7
  let s9 := if t.excl && t.members.contains (ownMember s d) then raise p 3 s8 else s8
  let s10 := if t.hold then raise p 6 s9 else s9
  if t.abandon then
    raise p 7 (tallyAdd p 2 1 (sf p TICK_STATE_ABANDONS (min 15 (gf s p TICK_STATE_ABANDONS + 1)) s10))
  else if !t.commit && (s.dies[d].tick.last.any fun o => o.step != t.step) then sf p TICK_STATE_ABANDONS 0 s10
  else s10

/-! ### The excluded set (R329, R330) -/

/-- The tick that ends the exclusion frame sets E; in replay E comes from the record. A late exclusion is told to the caller. -/
def exclude (d : DieId) (t : Tick) (ended : Option Tick) (s : State) : State × Bool :=
  match ended with
  | none => (s, false)
  | some o =>
    if o.frame = gf s (pgCE d) CE_STATE_EXCL_FRAME then
      let e := if replaying s d then replayE s d else if t.excl then t.members else []
      (onCe d (fun c => { c with excl := e }) s, false)
    else (s, t.excl && !t.abandon && !t.hold && o.type == 1 && t.members.any fun m => !inE s d m)

/-- EXCL_LATE (R330): the frame the tick opens fails on the die. DEDUCED: not at an abandon tick, whose step is discarded already. -/
def lateExclusion (d : DieId) (s : State) : State :=
  failOpen d eFRAME_FAILED (tallyAdd (pgCE d) 16 1 (raise (pgCE d) 2 (onRec d (fun r => { r with flags := r.flags ||| 32 }) s)))

/-! ### Cut tasks (R115) -/

/-- Every task of an opened frame that has not ended is cut. -/
def cutTasks (d : DieId) (s : State) : State :=
  match activeImg s d with
  | none => s
  | some i =>
    let x := s.dies[d].disp
    let fs := (if x.frameOpen then [curFrame s d] else []) ++ (x.later.filter (!·.off)).map (·.tick.frame)
    let ts := (List.range i.tasks).filter fun t => fs.contains (readTask s i t).frame
    forEach (fun t s => cutTask d i t (vxRelease d t s)) ts s

/-- The opened frames end on the die, and no work of them is carried on (R115). -/
def cutFrames (d : DieId) (s : State) : State :=
  sf (pgDISP d) DISP_FRAME_CATCHUP 0 (onDisp d (fun x => { x with frameOpen := false, cur := none, later := [], past := [] })
    (cutTasks d s))

/-! ### Commit and abandon (R282 to R284) -/

/-- COMMIT (R282) on a die: versions, the ladder, dormant tensors and sentinels, feeds, and the export copy. -/
def commitDie (d : DieId) (s : State) : State :=
  let p := pgWATCH d
  let step := s.dies[d].disp.attStep
  let s1 := flipEntries d step s
  let held := s1.dies[d].watch.bucket.isSome
  let r := s1.dies[d].watch.bucket.getD SideRec.reset
  let es := List.range (gf s p WATCH_CFG_COUNT)
  let s2 := forEach (dormantApply d held r) es (forEach (ladderApply d r) es s1)
  let s2' := if held then tallyAdd p 5 1 (onDie d (fun x => { x with watch := { x.watch with red := r } }) s2) else s2
  let s3 := sf p WATCH_LADDER_SIDE_LAST (b2n held) (forEach (sentCommit d) (List.range 8) s2')
  let s4 := loftTick d true s3
  let s5 := exportStart d step (feedRelease d s4)
  let s6 := wr (pgUPD d + UPD_LAST_VALID.off) 3 (tallyAdd (pgUPD d) 6 1 s5)
  sf (pgTICK d) TICK_STATE_ABANDONS 0 (sf (pgCE d) CE_STATE_OUTSTANDING 0 (replayPast d s6))

/-- S00 to S63 are copied to the step bank (R118). -/
def bankScalars (d : DieId) (s : State) : State :=
  forEach (fun n s => wr64 (pgCC d + 0x400 + 8 * n) (rd64 s (pgCC d + 0x200 + 8 * n)) s) (List.range 64) s

/-- S00 to S63 are restored from the step bank (R118). -/
def restoreScalars (d : DieId) (s : State) : State :=
  tallyAdd (pgCC d) 1 1
    (forEach (fun n s => wr64 (pgCC d + 0x200 + 8 * n) (rd64 s (pgCC d + 0x400 + 8 * n)) s) (List.range 64) s)

/-- Accumulator banks, shelf and running accumulators go to +0 (R154, R204, R244). -/
def clearWork (d : DieId) (s : State) : State :=
  onDie d (fun x => { x with acc := [], shelf := [], spilled := false }) (watchClear d s)

/-- ABANDON (R284) on a die. -/
def abandonDie (d : DieId) (s : State) : State :=
  let s1 := dropBuckets d (clearWork d (restoreScalars d (dropPending d s)))
  let s2 := feedRewind d (loftTick d true s1)
  sf (pgCE d) CE_STATE_OUTSTANDING 0 (wr (pgUPD d + UPD_LAST_VALID.off) 1 (tallyAdd (pgUPD d) 7 1 s2))

/-! ### Slots (R105, R107) -/

/-- STATE field and latched facts of slot `k`. -/
def slotFld (k : Nat) : Fld := if k = 0 then DISP_SLOT_A_STATE else DISP_SLOT_B_STATE
/-- R105. -/ def slotOf (s : State) (d : DieId) (k : Nat) : Slot := if k = 0 then s.dies[d].disp.slotA else s.dies[d].disp.slotB
/-- R105. -/ def slotState (s : State) (d : DieId) (k : Nat) : Nat := gf s (pgDISP d) (slotFld k)
/-- Offset of a slot's SEQ register. -/
def slotSeqOff (k : Nat) : Nat := if k = 0 then DISP_SEQ_A_V.off else DISP_SEQ_B_V.off
/-- Sets a slot's state (R105). DEDUCED: an EMPTY or LOADING slot holds no accepted image, so its MINOR, MAJOR and SEQ read as
at reset. -/
def setSlotState (d : DieId) (k st : Nat) (s : State) : State :=
  if st ≤ 1 then wr (pgDISP d + slotSeqOff k) 0 (wr (pgDISP d + (slotFld k).off) (BitVec.ofNat 32 st) s)
  else sf (pgDISP d) (slotFld k) st s

/-- The program stores of a die's vector engines take the program of an image (R105). DEDUCED: a program that cannot be read leaves them
empty. -/
def loadProg (d : DieId) (i : Img) (s : State) : State :=
  let r := memRead (.disp d) (i.base + i.progOff) i.progLen s
  onDie d (fun x => { x with prog := (chunks 8 (i.progLen / 8) r.2.2).map fun b => BitVec.ofNat 64 (leNat b) }) r.1

/-- SLOT_ACTIVATE (R105, R203, R271, R363): an armed slot becomes ACTIVE. -/
def activateSlot (d : DieId) (k step : Nat) (s : State) : State :=
  let p := pgDISP d
  let old := activeImg s d
  let sl := slotOf s d k
  let i := readImg s sl.base
  let s1 := setSlotState d k 4 (if slotState s d (1 - k) = 4 then setSlotState d (1 - k) 2 s else s)
  let s2 := wr64 (p + DISP_ACT_AT_LO_V.off) step (sf p DISP_ACTIVE_VALID 1 (sf p DISP_ACTIVE_SLOT k s1))
  let s3 := wr64 (p + DISP_DIGEST_V.off + 8) sl.digest1.toNat (wr64 (p + DISP_DIGEST_V.off) sl.digest0.toNat s2)
  let s4 := forEach (fun v s => sf (pgVXof d v) VX_PROG_LEN i.progLen s) [0, 1] (loadProg d i s3)
  raise p 2 (tallyAdd p 9 1 (exportCheck d (shelfActivate d i (takeOver d old i s4))))

/-- The slots of a die at a step start tick (R105): an armed slot activates, or has missed its step. -/
def slotTick (d : DieId) (step k : Nat) (s : State) : State :=
  if slotState s d k ≠ 3 then s
  else if (slotOf s d k).actStep = step then activateSlot d k step s
  else if (slotOf s d k).actStep < step then raise (pgDISP d) 3 (tallyAdd (pgDISP d) 11 1 (setSlotState d k 2 s))
  else s

/-- The frame table of an image as R107 compares it. -/
def frameTable (s : State) (i : Img) : List (Nat × Nat) := (List.range i.frames).map fun f => (frameType s i f, frameDeadline s i f)

/-- PLAN_MISMATCH (R107): whether the live dies' images, as the tick of `step` leaves them, disagree. -/
def planDiffers (s : State) (step : Nat) : Bool :=
  let imgs := (liveDies s).map fun d => (d, imgAfter s d step)
  match imgs.filterMap fun e => e.2 with
  | [] => false
  | i :: _ =>
    imgs.any fun e =>
      match e.2 with
      | none => true
      | some j => j.seq != i.seq || frameTable s j != frameTable s i ||
          imgs.any fun g => match g.2 with
            | none => true
            | some k => g.1 != e.1 && j.outRemote.getD g.1.val 0 != k.inRemote.getD e.1.val 0

/-- The exclusion frame of the step (R329); 0xFFF when no image has a REDUCE or SIDE. -/
def exclusionFrame (s : State) (step : Nat) : Nat :=
  let fs := (liveDies s).flatMap fun d =>
    match imgAfter s d step with
    | none => []
    | some i => (ceTasks s i 1 ++ ceTasks s i 5).map fun e => e.2.frame
  lowest fs 0xFFF

/-! ### Fences (R483) -/

/-- Units of a die whose fences follow step start ticks, arrays apart. -/
def fencePages (d : DieId) : List Nat :=
  [pgVXof d 0, pgVXof d 1, pgRE d, pgCE d] ++ (List.range 16).map (pgMVof d)

/-- A pending change of FENCED takes effect (R483). -/
def fenceSettle (p : Nat) (s : State) : State :=
  if gf s p FENCE_DRAINING = 1 then setFenced p (gf s p FENCE_REQ) (sf p FENCE_DRAINING 0 s) else s

/-- FENCE_TAKES_EFFECT (R166, R483, R484) on a die. -/
def fenceTick (d : DieId) (stepStart : Bool) (s : State) : State :=
  let s1 := arrayTick d stepStart s
  sampleStatus d (if stepStart then forEach fenceSettle (fencePages d) s1 else s1)

/-! ### The step start (R109, R118, R154, R204, R244, R283, R329, R353) -/

/-- Faults shown on the dispatcher's page and on the pages of the units are cleared (R120, R206, R208, R238). DEDUCED: with VALID 0 no
fault is recorded, so the location and the code of DISP_FAULT and VX_FAULT read as at reset. -/
def clearFaults (d : DieId) (s : State) : State :=
  let s0 := wr (pgDISP d + DISP_FAULT_CODE_V.off) 0 (wr (pgDISP d + DISP_FAULT_TASK.off) 0 s)
  let s1 := forEach (fun v s => wr (pgVXof d v + VX_FAULT_CODE_V.off) 0 (wr (pgVXof d v + VX_FAULT_PC.off) 0 s)) [0, 1] s0
  forEach (fun n s => wr (pgMVof d n + MV_FAULT_CODE_V.off) 0 (wr64 (pgMVof d n + MV_FAULT_ADDR_LO_V.off) 0 s)) (List.range 16)
    (wr (pgRE d + RE_FAULT_CODE_V.off) 0 s1)

/-- STEP_START (R109): counts are reloaded, the step's scratch is cleared, slots activate, and the plan is compared. -/
def stepStart (d : DieId) (t : Tick) (s : State) : State :=
  let excl := exclusionFrame s t.step
  let plan := b2n (planDiffers s t.step)
  let s1 := clearFaults d (clearWork d (slotTick d t.step 1 (slotTick d t.step 0 s)))
  let s2 := onDisp d (fun x => { x with
    tstat := [], decs := [], owed := [], sout := [], att := t.tick, attStep := t.step, doomed := [], bankWait := [] }) s1
  let s3 := onDie d (fun x => { x with watch := { x.watch with obs := Vector.replicate 8 none } }) (ceStepStart d excl s2)
  let s4 := sf (pgDISP d) DISP_ACTIVE_MISMATCH plan (if plan = 1 then raise (pgDISP d) 5 s3 else s3)
  let s5 := if t.abandon then s4 else feedMark d (feedRelease d (bankScalars d s4))
  let out := match activeImg s5 d with
    | none => false
    | some i => [1, 2, 3, 5].any fun op => !(ceTasks s5 i op).isEmpty
  let s6 := sf (pgCE d) CE_STATE_OUTSTANDING (b2n out) (onJrnl d (fun j => { j with crc := [], dieDig := none }) s5)
  replayTake d t.step (recOpen d t s6)

/-! ### The frame a tick opens -/

/-- SIDE_CHECK (R251): a die's part at the opening edge of the commit frame. -/
def sideCheck (d : DieId) (s : State) : State :=
  let live := liveDies s
  let any := !(sideDies s).isEmpty
  let all := live.all fun h => s.dies[h].watch.bucket.isSome
  let bad := (s.dies[d].watch.bucket.map (·.mismatch)).getD false
  if (any && !all) || bad then failOpen d eFRAME_FAILED (raise (pgWATCH d) 6 s) else s

/-- Scalar sentinels at the opening edge of the commit frame (R257). On a die that finishes an earlier frame their bits go with the commit
frame's report. -/
def sentFrame (d : DieId) (s : State) : State :=
  let on (nf spike : Nat) (s : State) : State := onDie d (fun x => { x with watch := { x.watch with nfBits := nf, spikeBits := spike } }) s
  let w := s.dies[d].watch
  match s.dies[d].disp.later.getLast? with
  | none => forEach (sentEval d) (List.range 8) s
  | some f =>
    let s1 := forEach (sentEval d) (List.range 8) (on 0 0 s)
    let x := s1.dies[d].watch
    onDisp d (fun p => { p with later := p.later.dropLast ++ [{ f with nf := x.nfBits, spike := x.spikeBits }] }) (on w.nfBits w.spikeBits s1)

/-- What the opening edge of a frame of a type brings besides its tasks (R251, R257, R346, R352, R366), whether or not they run. -/
def openType (d : DieId) (t : Tick) (s : State) : State :=
  if t.type = 2 then sentFrame d (sideCheck d (digestForm d s.dies[d].disp.attStep s))
  else if t.type = 4 then exportStream d s
  else if t.type = 5 then reshardOpen d s
  else s

/-- Whether the die has an earlier frame to finish first (R113). -/
def catchingUp (s : State) (d : DieId) : Bool := !s.dies[d].disp.later.isEmpty || !courseEnded s d

/-- A tick opens its frame on the die; a die that still works on an ended frame finishes that first (R113). A frame that the die's graph does
not have runs no task (R62), and while the coolant stop is in force every frame fails (R474). -/
def openFrame (d : DieId) (t : Tick) (s : State) : State :=
  let f : LateFrame := ⟨t, false, 0, planOff s d t, 0, 0⟩
  let s0 := onJrnl d (fun j => { j with streaming := false, streamWait := false }) s
  let s1 :=
    if catchingUp s d then sf (pgDISP d) DISP_FRAME_CATCHUP 1 (onDisp d (fun x => { x with later := x.later ++ [f] }) s0)
    else startFrame d f [] s0
  openType d t (if stopped s1 && !f.off then failOpen d eCOOLANT_STOP s1 else s1)

/-! ### Routes (R26, R27) -/

/-- The diagonal route at a tick: the route DIAG_VIA names, and with DIAG_AUTO the surviving neighbour while the intermediate die is
lost. -/
def routeTick (d : DieId) (s : State) : State :=
  let p := pgTOPO d
  let via (v : Nat) : DieId := if v = 0 then cwDie d else ccwDie d
  let now := gf s p TOPO_ROUTE_DIAG_VIA
  let want := if gf s p TOPO_ROUTE_DIAG_AUTO = 1 && !dieLive s (via now) && dieLive s (via (1 - now)) then 1 - now else now
  sf p TOPO_ROUTE_DIAG_ACTIVE (diagRoute s d want) s

/-! ### The edge -/

/-- Closes the phase timers' set (R85). -/
def closePhases (d : DieId) (s : State) : State :=
  onTick d (fun x => { x with phLast := x.phRun, phRun := Vector.replicate 12 0 }) s

/-- TICK and SET items of a tick (R354). -/
def tickItems (d : DieId) (t : Tick) (slack : Nat) (e : Bool) (s : State) : State :=
  let s1 := addItem d (tickItem t t.acc slack (timeStamp s d.val)) s
  if t.members.isEmpty then s1 else addItem d (setItem t e (t.failed && !t.excl)) s1

/-- SIDE's record may go on once the tick that ends its frame, on any live die, has passed at the tick die (R333). -/
def sideRelease (d : DieId) (ended : Option Tick) (s : State) : State :=
  let has (f : Nat) : Bool := (liveDies s).any fun h => (activeImg s h).any fun i => sideFrame s i == some f
  match ended with
  | some o => if has o.frame && tickDie s d == d then sideUp d o.frame (onCe d (fun c => { c with sideGo := true }) s) else s
  | none => s

/-- The tick starts a step: its frame is 0, and it holds nothing. -/
def startsStep (t : Tick) : Bool := !t.hold && t.frame == 0

/-- The tick cuts the work of the frames before it (R115). -/
def cutsWork (t : Tick) : Bool := t.abandon || t.hold || startsStep t

/-- What an edge records of the frame it ends: tallies latched and snapped (R55, R429), the FAULT item of a frame that is over (R354), the facts
of the tick and its exclusions. Also whether an exclusion comes late (R330). -/
def edgeFacts (d : DieId) (t : Tick) (ended : Option Tick) (slack : Nat) (s : State) : State × Bool :=
  let start := startsStep t
  let s1 := latchTallies d (snapTallies d s)
  let s2 := match if cutsWork t || !catchingUp s1 d then faultItem s1 d else none with | some it => addItem d it s1 | none => s1
  let x := exclude d t ended (tickFacts d t s2)
  let eSet := !start && t.excl && ended.any fun o => o.frame == gf s (pgCE d) CE_STATE_EXCL_FRAME
  (if start then x.1 else tickItems d t slack eSet x.1, x.2)

/-- What an edge ends: the work it cuts, the step it commits or abandons with its journal record (R71, R283, R353), a re-shard (R346), and the
phases of the frame (R84). -/
def edgeEnds (d : DieId) (t : Tick) (ended : Option Tick) (s : State) : State :=
  let start := startsStep t
  let resharded := ended.any fun o => o.type == 5
  let s1 := if cutsWork t then cutFrames d s else s
  let s2 := if t.abandon || t.hold then onDie d (fun x => { x with shadow := [] }) s1 else s1
  let s3 := if t.commit then commitDie d (recEnd d 1 t.tick s2) else if t.abandon then abandonDie d (recEnd d 2 t.tick s2) else s2
  let s4 := if resharded then reshardEnd d t.epoch t.failed t.hold s3 else s3
  let s5 := loftTick d resharded s4
  let s6 := if start || t.hold then recWrite d (onRec d (fun r => { r with phase := s5.dies[d].tick.phRun.toList }) s5) else s5
  if start || t.abandon then closePhases d s6 else s6

/-- What changes over at an edge: routes and epochs (R309, R314, R343), fences (R483), what the die knows of its last tick, and the step (R109). -/
def edgeTurns (d : DieId) (t : Tick) (slack : Nat) (s : State) : State :=
  let s1 := rtExchange d (sf (pgLP d) LS_PGEN_CUR t.pgen (sf (pgCE d) CE_EPOCH_V t.epoch (routeTick d s)))
  let s2 := onTick d (fun x => { x with
    last := some t, edgeAt := s.time, doneAt := none, csent := if cutsWork t then none else x.csent
    lost := false, freeWait := false, pinEdge := false }) (fenceTick d (startsStep t || t.abandon) s1)
  let s3 := { s2 with done := s2.done.set d ⟨false, false, false⟩ }
  if startsStep t then tickItems d t slack false (stepStart d t s3) else s3

/-- What an edge opens: SIDE's record may go on (R333), the frame, which fails at once where an exclusion came late (R330), the tally stream
(R429), and the pulse of TICK_OUT on the tick die (R77). -/
def edgeOpens (d : DieId) (t : Tick) (ended : Option Tick) (late : Bool) (s : State) : State :=
  let s1 := sideRelease d ended s
  let s2 := if t.hold then s1 else openFrame d t s1
  let s3 := tallyStream t (if late then lateExclusion d s2 else s2)
  if tickDie s d == d && (isMaster s d && gf s (pgTICK d) TICK_CFG_PIN_MODE == 1 || gf s (pgTICK d) TICK_CFG_TICK_OUT_EN == 1) then
    emit (.tickOut d) s3 else s3

/-- The edge of tick `t` on die `d`, TICK_NUM apart. -/
def edgeWork (d : DieId) (t : Tick) (s : State) : State :=
  let ended := openTick s d
  let slack := tickSlack s d t
  let x := edgeFacts d t ended slack s
  edgeOpens d t ended x.2 (edgeTurns d t slack (edgeEnds d t ended x.1))

/-- TICK_EDGE (R75, R77): the die takes the edge of the oldest tick it holds; a die that waits for TICK_IN takes it with that edge. -/
def doTickEdge (d : DieId) (s : State) : State :=
  let x := s.dies[d].tick
  match x.rx with
  | [] => s
  | r :: rest =>
    if !dieLive s d || !enAll s || (pinTaken s d && !x.pinEdge) then s
    else
      wr64 (pgTICK d + TICK_NUM_LO_V.off) r.t.tick
        (edgeWork d r.t (onTick d (fun x => { x with rx := rest }) s))

/-! ### Meanings of the commands -/

/-- TICK_EDGE (R75). -/
def execTickEdge (d : DieId) (s : State) : Host.Outcome State Fault Refusal :=
  .next (dieStep d (doTickEdge d) s)

end Sys2Proof.Machine
end

