-- ==== Sys2Proof/Machine/Unitcheck.lean ====
section
/-!
DEFINITION. Unitcheck.lean: check 12 of R102: the fields of a task descriptor (R94 to R97, R266) and the conditions each unit's chapter
sets (R142, R150 to R152, R176, R177, R192 to R194, R220 to R223, R240, R242, R249, R273 to R275, R322 to R324, R432).
-/
namespace Sys2Proof.Machine

/-! ### Tensors as checks see them -/

/-- Bytes of the parts of a tensor in the format that sizes it (R132, R265): element codes, scales, zero points or the second grouping,
and the second version slot of a weight or optimiser state. DEDUCED: only element codes have a second slot. -/
def tensorParts (s : State) (d : DieId) (i : Img) (t : Tensor) : List (Nat × Nat) :=
  let f := fmtCeil s d t
  let ext := t.extent f
  let groups := t.elems / t.g
  let two (xs : List (Nat × Nat)) : List (Nat × Nat) :=
    if t.gcode = 0 then xs
    else xs ++ [(t.scaleBase, groups)] ++
      (if t.fmt = 6 then [(t.auxBase, cdiv groups 2)]
       else if t.aft = 2 then [(t.auxBase, cdiv (t.auxBase + ext) 64 * 64 - t.auxBase + groups)] else [])
  let span := if t.cls = 1 then t.vspan else if t.cls = 3 then (readTensor s i t.pair).vspan else 0
  two ((t.base, ext) :: if span = 0 then [] else [(t.base + span * 4096, ext)])

/-- Whether every part of a tensor lies in a region that `p` admits. -/
def partsIn (s : State) (d : DieId) (i : Img) (t : Tensor) (p : Region → Bool) : Bool :=
  (tensorParts s d i t).all fun e => match regionOf e.1 e.2 with | some r => p r | none => false

/-- Own store room, and own store room or cellar. -/
def ownStore (d : DieId) : Region → Bool
  | .store h => d == h
  | _ => false
/-- R322, R432. -/
def ownMemory (d : DieId) : Region → Bool
  | .store h => d == h
  | .cellar h => d == h
  | .regs _ => false

/-- Whether an entry applies the ladder with FLOOR below W16 (R242). -/
def ladderGrouped (s : State) (d : DieId) (t : Tensor) : Bool := ladderOn s d t.watch && decide (watchFld s d t.watch WATCH_DECL0_FLOOR < 3)

/-- A tensor that the crossed-B condition and the group-size conditions treat as grouped (R242). -/
def checkGrouped (s : State) (d : DieId) (t : Tensor) : Bool := fmtGrouped t.fmt || ladderGrouped s d t

/-- Whether bytes `lo` to `hi` of a descriptor's PARAMS are zero. -/
def Task.zeroes (t : Task) (lo hi : Nat) : Bool := t.p lo (hi + 1 - lo) == 0

/-- Whether the operands' roles are as wanted: a list per operand of the roles allowed, unused beyond the list. -/
def rolesAre (tk : Task) (want : List (List Nat)) : Bool := (List.range 8).all fun k => (want.getD k [0]).contains (tk.role k)

/-- A view of R149 within its tensor: DIM0 indices and rows. -/
def viewFits (t : Tensor) (k nk r nr : Nat) : Bool := decide (k + nk ≤ t.dim 0) && decide (r + nr ≤ t.rows)

/-- The operand word `k` under R97 and R266. -/
def operandOk (s : State) (i : Img) (tk : Task) (k : Nat) : Bool :=
  let w := tk.op k
  if tk.role k = 0 then w == 0 else
  let t := readTensor s i (tk.tensor k)
  decide (w < 2 ^ 20) && decide (tk.role k ≤ 4) && decide (tk.tensor k < i.tensors) && (tk.ver k == 0 || t.cls == 1) &&
    (if t.cls = 1 then tk.role k == 1 || (tk.ver k == 1 && tk.role k != 4) else if t.cls = 3 then tk.role k != 4 else true)

/-! ### Matrix tasks -/

/-- An operand pair of R142. -/
def pairOk (a b : Nat) : Bool :=
  [(3, 3), (3, 4), (4, 4), (5, 5), (6, 5), (7, 5), (2, 2), (1, 1), (0, 0)].any fun p => p == (a, b) || p == (b, a)

/-- R150 to R152. -/
def mxCheck (s : State) (d : DieId) (i : Img) (tk : Task) : Bool :=
  let p := matP tk
  let t (k : Nat) : Tensor := readTensor s i (tk.tensor k)
  let crossed := tk.opcode == 2
  let refs := [2, 3].filter fun k => tk.role k != 0
  let lad := ladderOn s d (t 0).watch || ladderOn s d (t 1).watch
  let g := if checkGrouped s d (t 0) || checkGrouped s d (t 1) then max (t 0).g (t 1).g else 1
  let seen (k : Nat) (x : Tensor) : Bool :=
    if k % 2 = 0 then viewFits x p.kaOrg p.k p.aOrg p.m
    else if crossed then viewFits x p.bOrg p.n p.kbOrg p.k else viewFits x p.kbOrg p.k p.bOrg p.n
  (tk.opcode == 1 || crossed) && decide (1 ≤ p.m) && decide (p.m ≤ 256) && decide (1 ≤ p.n) && decide (p.n ≤ 256) &&
    decide (1 ≤ p.k) && decide (p.k ≤ 16777216) && decide (tk.p 88 1 < 4) && decide (tk.p 89 1 < 2) && tk.zeroes 92 127 &&
    (p.watch == 0xFFFF || decide (p.watch < gf s (pgWATCH d) WATCH_CFG_COUNT)) &&
    rolesAre tk [[1], [1], [0, 1], [0, 1]] && ([0, 1] ++ refs).all (fun k => partsIn s d i (t k) (ownStore d)) &&
    (lad || pairOk (t 0).fmt (t 1).fmt) && ((t 0).gcode == 0 || (t 1).gcode == 0 || (t 0).gcode == (t 1).gcode) &&
    p.k % g == 0 && p.kaOrg % g == 0 && p.kbOrg % g == 0 &&
    refs.all (fun k => [0, 1, 2, 8].contains (t k).fmt) && ([0, 1] ++ refs).all (fun k => seen k (t k)) &&
    !(crossed && checkGrouped s d (t 1) && (t 1).aft == 0)

/-! ### Vector and update tasks -/

/-- An X32 parameter from 0 inclusive to 1 exclusive. -/
def unitInterval (w : W) : Bool := (x32 w).isFin && !fLt (x32 w) (.fin false 0 0) && fLt (x32 w) (.fin false 1 0)

/-- A finite X32 parameter above 0. -/
def positive (w : W) : Bool := (x32 w).isFin && fLt (.fin false 0 0) (x32 w)

/-- R273 to R275. -/
def updCheck (s : State) (d : DieId) (i : Img) (tk : Task) : Bool :=
  let adam := tk.opcode == 0x101
  let p := updP tk
  let t (k : Nat) : Tensor := readTensor s i (tk.tensor k)
  let tiles := if adam then [0, 1, 2, 3] else [0, 1, 2]
  let used := if p.lrTable then tiles ++ [4] else tiles
  let key := readTensor s i p.key
  decide (tk.p 86 1 < 16) && tk.zeroes 77 79 && tk.zeroes 87 87 && tk.zeroes 112 127 &&
    decide (1 ≤ p.rows) && decide (p.rows ≤ 16777216) && decide (1 ≤ p.len) && decide (p.len ≤ 16777216) &&
    rolesAre tk [[1], [3, 4], [3, 4], if adam then [3, 4] else [0], if p.lrTable then [1] else [0]] &&
    used.all (fun k => partsIn s d i (t k) (ownStore d)) &&
    (t 0).fmt == 0 && ((t 1).fmt == 8 || (t 1).fmt == 2) && (tiles.drop 2).all (fun k => (t k).fmt == 2) &&
    (!p.lrTable || ((t 4).fmt == 0 && (t 4).rank == 1)) && tiles.all (fun k => viewFits (t k) 0 p.len 0 p.rows) &&
    decide (p.key < i.tensors) && key.cls == 1 && key.fmt == (t 1).fmt && (p.rows == 1 || decide (p.len ≤ p.stride)) &&
    decide (p.base + (p.rows - 1) * p.stride + p.len ≤ key.elems) && unitInterval p.b1 &&
    (if adam then unitInterval p.b2 && positive p.eps else p.b2 == 0 && p.eps == 0) &&
    (x32 p.lr).isFin && (x32 p.lam).isFin && (if p.divTokens then p.dv == 0 else positive p.dv)

/-- R176, R177. -/
def vxCheck (s : State) (d : DieId) (i : Img) (tk : Task) : Bool :=
  if tk.opcode = 1 then
    decide (tk.p 64 2 < i.progLen / 8) && decide (tk.p 66 2 < 2 ^ 12) && tk.zeroes 100 127 &&
      (List.range 8).all fun k => tk.role k == 0 || partsIn s d i (readTensor s i (tk.tensor k)) (ownStore d)
  else (tk.opcode == 0x100 || tk.opcode == 0x101) && updCheck s d i tk

/-! ### Row-engine tasks -/

/-- The operands of a row task by opcode (R192): per operand its kind, X and dY rows read (0), Y and dX rows written (1), statistics
read (2) or written (3), vectors read (4) or accumulated (5), TARGET (6), LOSS (7), and whether it may be unused. -/
def rowOperands (op : Nat) : List (Nat × Bool) :=
  match op with
  | 1 => [(0, false), (1, false), (3, false), (4, true), (4, true)]
  | 2 => [(0, false), (0, false), (2, false), (4, true), (1, false), (5, true), (5, true)]
  | 3 => [(0, false), (1, false), (3, false), (4, true)]
  | 4 => [(0, false), (0, false), (2, false), (4, true), (1, false), (5, true)]
  | 5 => [(0, false), (1, false), (3, false)]
  | 6 => [(0, false), (0, false), (2, false), (1, false)]
  | 7 => [(0, false), (6, false), (3, false), (7, false), (1, true)]
  | _ => []

/-- The role an operand kind takes. -/
def rowRole (kind : Nat) : Nat := match kind with | 1 | 3 | 7 => 2 | 5 => 4 | _ => 1

/-- One operand of a row task under R194. -/
def rowOperandOk (s : State) (d : DieId) (i : Img) (p : RowP) (kind : Nat) (t : Tensor) : Bool :=
  match kind with
  | 0 | 1 =>
    partsIn s d i t (ownStore d) && decide (t.fmt ≤ 5) && viewFits t 0 p.n p.org p.rows &&
      (kind == 0 || !fmtGrouped t.fmt || (t.gaxis == 0 && p.n % t.g == 0))
  | 2 | 3 =>
    partsIn s d i t (fun r => match r with | .cellar h => d == h | _ => false) && t.cls == 6 && t.fmt == 0 && t.rank == 1 &&
      decide (2 * (p.org + p.rows) ≤ t.dim 0)
  | 4 | 5 => partsIn s d i t (ownStore d) && (t.fmt == 0 || t.fmt == 2) && t.rank == 1 && t.dim 0 == p.n
  | _ => partsIn s d i t (ownStore d) && t.fmt == 0 && viewFits t 0 1 p.org p.rows

/-- R192 to R194. A grouped dY is judged as the rule lists it: only Y and dX have a GAXIS condition. -/
def reCheck (s : State) (d : DieId) (i : Img) (tk : Task) : Bool :=
  let p := rowP tk
  let ops := rowOperands tk.opcode
  decide (1 ≤ tk.opcode) && decide (tk.opcode ≤ 7) && decide (1 ≤ p.rows) && decide (p.rows ≤ 16777216) && decide (1 ≤ p.n) &&
    decide (p.n ≤ 1048576) && decide (tk.p 88 1 < 2) && tk.zeroes 89 127 &&
    (!p.causal || tk.opcode == 5 || tk.opcode == 6) &&
    rolesAre tk (ops.map fun e => if e.2 then [0, rowRole e.1] else [rowRole e.1]) &&
    ops.zipIdx.all fun e => tk.role e.2 == 0 || rowOperandOk s d i p e.1.1 (readTensor s i (tk.tensor e.2))

/-! ### Mover tasks -/

/-- R223: some row of the table admits the pair. -/
def convOk (x y : Tensor) (p : MvP) : Bool :=
  if x.fmt = 9 then (if y.fmt = 9 then p.srcK % 8 == 0 && p.dstK % 8 == 0 else y.fmt == 0 || y.fmt == 2)
  else if y.fmt = 9 then false
  else if !fmtGrouped y.fmt then true
  else
    (x.fmt == y.fmt && x.gcode == y.gcode && x.gaxis == 0 && y.gaxis == 0 && p.srcK % x.g == 0 && p.dstK % x.g == 0 && p.len % x.g == 0) ||
      (y.gaxis == 0 && p.dstK % y.g == 0 && p.len % y.g == 0)

/-- R220 to R223. -/
def mvCheck (s : State) (i : Img) (tk : Task) : Bool :=
  let p := mvP tk
  let t (k : Nat) : Tensor := readTensor s i (tk.tensor k)
  let listed := tk.opcode != 1
  decide (1 ≤ tk.opcode) && decide (tk.opcode ≤ 3) && decide (1 ≤ p.rows) && decide (p.rows ≤ 16777216) && decide (1 ≤ p.len) &&
    decide (p.len ≤ 16777216) && tk.zeroes 92 127 && rolesAre tk [[1], [2], if listed then [1] else [0]] &&
    (!listed || ((t 2).fmt == 0 && decide (p.listOrg + p.rows ≤ (t 2).elems))) &&
    (tk.opcode == 2 || decide (p.srcRow + p.rows ≤ (t 0).rows)) && (tk.opcode == 3 || decide (p.dstRow + p.rows ≤ (t 1).rows)) &&
    decide (p.srcK + p.len ≤ (t 0).dim 0) && decide (p.dstK + p.len ≤ (t 1).dim 0) && convOk (t 0) (t 1) p

/-! ### Collective-engine tasks -/

/-- CE tasks of an image with an opcode: ID, frame and descriptor. -/
def ceAll (s : State) (i : Img) (op : Nat) : List (Nat × Task) :=
  ((List.range i.tasks).map fun n => (n, readTask s i n)).filter fun e => e.2.unit == 9 && e.2.opcode == op

/-- BUCKET of a CE task. -/
def ceKey (tk : Task) : Nat := tk.p 64 2

/-- The image-wide conditions of R249 and R324 on CE task `n`. DEDUCED: of two tasks that clash, the later fails. -/
def ceImageOk (s : State) (i : Img) (n : Nat) (tk : Task) : Bool :=
  let reduces := (ceAll s i 1).filter fun e => ceKey e.2 == ceKey tk
  let below := reduces.any fun e => decide (e.2.frame < tk.frame)
  match tk.opcode with
  | 1 => !(reduces.any fun e => decide (e.1 < n))
  | 2 => below
  | 3 => below && (ceAll s i 2).any fun e => ceKey e.2 == ceKey tk && decide (e.2.frame < tk.frame) && e.2.tensor 0 == tk.tensor 0
  | 4 =>
    let recs := (ceAll s i 4).filter fun e => decide (e.1 < n) && bit (e.2.p 67 1) 0
    (!bit (tk.p 67 1) 0 || decide (recs.length < 1024)) && (!bit (tk.p 67 1) 1 || recs.any fun e => ceKey e.2 == ceKey tk)
  | 5 => !((ceAll s i 5).any fun e => decide (e.1 < n))
  | 6 => match (ceAll s i 5).head? with | some e => decide (e.2.frame < tk.frame) | none => false
  | _ => true

/-- The shapes R322 and R324 verify. -/
def ceShapeOk (s : State) (i : Img) (tk : Task) : Bool :=
  let t (k : Nat) : Tensor := readTensor s i (tk.tensor k)
  let len := tk.p 68 4
  let x32One (k n : Nat) : Bool := (t k).fmt == 0 && (t k).rank == 1 && (t k).dim 0 == n
  match tk.opcode with
  | 1 =>
    let k := (t 0).dim 0 / max 1 len
    (t 0).fmt == 0 && (t 0).rank == 1 && (t 0).dim 0 == k * len && decide (1 ≤ k) && decide (k ≤ 8) &&
      (if tk.role 1 = 0 then k == 1 else (t 1).fmt == 0 && (t 1).rank == 1 && decide ((k - 1) * len ≤ (t 1).dim 0))
  | 2 => match ((ceAll s i 1).filter fun e => ceKey e.2 == ceKey tk).head? with | some e => x32One 0 (e.2.p 68 4) | none => false
  | 3 => x32One 0 len && x32One 1 (8 * len)
  | 4 =>
    let r := (t 0).rank - 1
    let k := (t 1).dim r / max 1 ((t 0).dim r)
    (t 2).cls == 1 && (t 0).fmt == (t 1).fmt && (t 0).gcode == (t 1).gcode && (t 0).aft == (t 1).aft &&
      ((t 0).auxBase == 0) == ((t 1).auxBase == 0) && (t 0).rank == (t 1).rank &&
      ((List.range 4).all fun n => n == r || (t 0).dim n == (t 1).dim n) && (t 1).dim r == k * (t 0).dim r && decide (1 ≤ k) &&
      decide (k ≤ 8) && ((t 0).gcode == 0 || ((t 0).gaxis == 0 && (t 1).gaxis == 0)) &&
      ((t 0).aft != 2 || (t 0).dim r % (t 0).g == 0) && ([0, 1, 2].all fun n => (t n).fmt != 0 || (t n).rank == 1)
  | 7 => (t 0).fmt == 0 && (t 0).rank == 2 && (t 0).dim 0 == 8
  | _ => true

/-- R249, R322 to R324. -/
def ceCheck (s : State) (d : DieId) (i : Img) (n : Nat) (tk : Task) : Bool :=
  let len := tk.p 68 4
  let fl := tk.p 67 1
  let ft := frameType s i tk.frame
  let types := match tk.opcode with | 1 | 3 | 5 => [1] | 2 | 4 | 6 => [0, 1] | 7 => [5] | _ => []
  let roles := match tk.opcode with
    | 1 => [[1], [0, 2]]
    | 2 => [[2]]
    | 3 => [[3], [2]]
    | 4 => [[1], [2], [1]]
    | 7 => [[1]]
    | _ => []
  types.contains ft && tk.zeroes 72 127 && decide (ceKey tk ≤ 4095) && (decide (tk.opcode ≤ 4) || ceKey tk == 0) &&
    decide (tk.p 66 1 ≤ (if tk.opcode = 1 then 1 else 0)) && (if tk.opcode = 4 then decide (fl < 3) else fl == 0) &&
    (if tk.opcode = 1 ∨ tk.opcode = 3 then decide (1 ≤ len) && decide (len ≤ 16777216) else len == 0) && rolesAre tk roles &&
    ((List.range 8).all fun k => tk.role k == 0 || partsIn s d i (readTensor s i (tk.tensor k)) (ownMemory d)) &&
    ceImageOk s i n tk && ceShapeOk s i tk

/-! ### Control-core tasks -/

/-- R96, R432. DEDUCED: the bytes DST holds are those of its elements. -/
def ccCheck (s : State) (d : DieId) (i : Img) (tk : Task) : Bool :=
  let t := readTensor s i (tk.tensor 0)
  let items := tk.p 68 4
  let stride := tk.p 72 4
  let off := tk.p 76 4
  tk.opcode == 0x20 && tk.zeroes 65 67 && tk.zeroes 80 127 && rolesAre tk [[2]] && decide (tk.p 64 1 ≤ 7) && decide (1 ≤ items) &&
    decide (items ≤ 4096) && decide (64 ≤ stride) && stride % 64 == 0 && off % 64 == 0 && partsIn s d i t (ownMemory d) &&
    decide (off + items * stride ≤ t.extent (fmtCeil s d t))

/-! ### Check 12 -/

/-- The fields of R94 and R95 of task `n`, by its bytes. -/
def taskFieldsOk (s : State) (i : Img) (n : Nat) (tk : Task) : Bool :=
  let a := i.base + i.taskOff + 128 * n
  let f (o w : Nat) : Nat := memNat s (a + o) w
  decide (f 0 2 < 4096) && decide (tk.frame < i.frames) && decide (f 2 1 < 32) && (decide (tk.unit ≤ 10) || decide (16 ≤ tk.unit)) &&
    decide (tk.phase ≤ 5) && decide (tk.stall ≤ 3) && !bit (f 3 1) 3 && !bit (f 3 1) 7 && decide (f 8 4 < 2 ^ 22) &&
    decide (f 14 2 < 2) && tk.sin.all (fun b => !bit b 6) && !bit tk.sout 6 && (decide (2 ≤ i.minor) || tk.sout == 0) && f 25 7 == 0

/-- Check 12 of R102 on task `n`. -/
def check12 (s : State) (d : DieId) (i : Img) (n : Nat) : Bool :=
  let tk := readTask s i n
  taskFieldsOk s i n tk && (List.range 8).all (operandOk s i tk) &&
    (if tk.unit < 6 then mxCheck s d i tk
     else if tk.unit ≤ 7 then vxCheck s d i tk
     else if tk.unit = 8 then reCheck s d i tk
     else if tk.unit = 9 then ceCheck s d i n tk
     else if tk.unit = 10 then ccCheck s d i tk
     else mvCheck s i tk)

end Sys2Proof.Machine
end

