-- ==== Sys2Proof/Machine/Validate.lean ====
section
/-!
DEFINITION. Validate.lean: the checks of R102 in their order and the places R519 reports.
-/
namespace Sys2Proof.Machine

/-- A failed check: its code, section and index (R519). -/
structure VErr where
  code : Nat
  section_ : Nat
  idx : Nat
  deriving DecidableEq, Repr

/-- The first of two checks that fails. -/
def orElse (a : Option VErr) (b : Option VErr) : Option VErr := match a with | some e => some e | none => b

/-- The first entry of `n` that `ok` refuses. -/
def firstBad (code sec n : Nat) (ok : Nat → Bool) : Option VErr := ((List.range n).find? fun k => !ok k).map fun k => ⟨code, sec, k⟩

/-- The lowest of the failing header fields. -/
def headerBad (code : Nat) (fs : List (Nat × Bool)) : Option VErr :=
  match (fs.filter fun e => e.2).map (·.1) with
  | [] => none
  | x :: xs => some ⟨code, 0, xs.foldl min x⟩

/-! ### The header: checks 1 to 4 -/

/-- Sections of an image in the order of their offset fields: the field's byte, the offset and the length in bytes (R92). -/
def imgSections (i : Img) : List (Nat × Nat × Nat) :=
  [(68, i.frameOff, 16 * i.frames), (72, i.taskOff, 128 * i.tasks), (76, i.tensorOff, 64 * i.tensors), (80, i.succOff, 4 * i.succs),
   (84, i.progOff, i.progLen)]

/-- Whether a section is out of bounds, misaligned, or overlaps the header or a section whose field comes before. -/
def sectionBad (i : Img) (e : Nat × Nat × Nat) : Bool :=
  e.2.1 % 64 != 0 || decide (i.len < e.2.1 + e.2.2) ||
    (decide (0 < e.2.2) && ((0, 0, 256) :: (imgSections i).filter fun g => decide (g.1 < e.1)).any fun g =>
      decide (0 < g.2.2) && decide (e.2.1 < g.2.1 + g.2.2) && decide (g.2.1 < e.2.1 + e.2.2))

/-- Checks 1 to 4. `len` is DISP_IMG_LEN × 4 KiB. -/
def headerChecks (s : State) (d : DieId) (i : Img) (len : Nat) : Option VErr :=
  let b (o : Nat) : Nat := memNat s (i.base + o) 1
  let rsv := ([7, 18, 19] ++ (List.range 168).map (88 + ·)).map fun o => (o, b o != 0)
  orElse (headerBad eBAD_DESCRIPTOR ([(0, memNat s i.base 4 != 0x58474E59),
      (12, decide (i.len < 256) || decide (67108864 < i.len) || cdiv i.len 4096 * 4096 != len)] ++ rsv ++
      (imgSections i).map fun e => (e.1, sectionBad i e)))
    (orElse (headerBad eGRAPH_VERSION [(4, decide (2 < i.minor)), (5, i.major != 1)])
      (orElse (headerBad eBAD_DESCRIPTOR [(6, i.die != gf s (pgTOPO d) TOPO_ID_POS)])
        (headerBad eGRAPH_TOO_LARGE
          [(16, i.frames == 0 || decide (4096 < i.frames)), (20, i.tasks == 0 || decide (262144 < i.tasks)),
           (24, decide (65536 < i.tensors)), (28, decide (4194304 < i.succs)),
           (32, decide (65536 < i.progLen) || i.progLen % 8 != 0)])))

/-! ### The frame table: check 5 -/

/-- Entry `f` under R63 and R93; the commit entry, when one lies below it, decides the types allowed. -/
def frameOk (s : State) (i : Img) (f : Nat) : Bool :=
  let a := i.base + i.frameOff + 16 * f
  let ty := frameType s i f
  let dl := frameDeadline s i f
  let n := memNat s (a + 8) 4
  let after := (List.range f).any fun k => frameType s i k == 2
  (if after then [3, 4, 5, 6] else [0, 1, 2, 6]).contains ty &&
    (if ty = 1 then dl == 0 || (decide (1000 ≤ dl) && decide (dl ≤ 1000000000)) else dl == 0) &&
    n == (frameTasks s i f).length && (ty != 6 || n == 0) && memNat s (a + 1) 3 == 0 && memNat s (a + 12) 4 == 0

/-- Check 5. -/
def frameChecks (s : State) (i : Img) : Option VErr :=
  orElse (firstBad eBAD_DESCRIPTOR 1 i.frames (frameOk s i))
    (if commitFrame s i < i.frames then none else some ⟨eBAD_DESCRIPTOR, 1, i.frames⟩)

/-! ### Tensors: checks 6 to 11 -/

/-- Check 6: codes, fields and reserved fields (R98, R99, R104, R132, R240, R242, R265). -/
def tensorFieldsOk (s : State) (d : DieId) (i : Img) (n : Nat) : Bool :=
  let t := readTensor s i n
  let a := i.base + i.tensorOff + 64 * n
  let b (o : Nat) : Nat := memNat s (a + o) 1
  let rung := rungFmt (watchFld s d t.watch WATCH_DECL0_Q8KIND) (watchFld s d t.watch WATCH_DECL0_INIT)
  decide (t.base < 2 ^ 52) && decide (t.scaleBase < 2 ^ 52) && decide (t.auxBase < 2 ^ 52) && decide (b 9 < 64) &&
    decide (b 10 < 128) && decide (b 11 < 8) && decide (t.fmt ≤ 9) && decide (t.cls ≤ 7) && t.aft != 3 &&
    (t.aft != 2 || (decide (2 ≤ i.minor) && t.fmt != 6)) && (t.cls == 1) == decide (1 ≤ t.vspan) &&
    (t.watch == 0xFFFF || decide (t.watch < gf s (pgWATCH d) WATCH_CFG_COUNT)) &&
    (if t.cls = 2 ∨ t.cls = 3 then decide (t.pair < i.tensors) && (readTensor s i t.pair).cls == 1 else t.pair == 0xFFFF) &&
    (t.cls != 1 || t.fmt == 8 || t.fmt == 2) && (t.cls != 3 || t.fmt == 2) && (t.gcode != 0 || t.scaleBase == 0) &&
    (t.auxBase == 0 || t.fmt == 6 || t.aft == 2) && (!ladderOn s d t.watch || t.fmt == rung)

/-- Check 7: shapes (R98, R99, R131, R152, R242). -/
def tensorShapeOk (s : State) (d : DieId) (i : Img) (n : Nat) : Bool :=
  let t := readTensor s i n
  decide (1 ≤ t.rank) && decide (t.rank ≤ 4) &&
    ((List.range 4).all fun k => decide (1 ≤ t.dim k) && decide (t.dim k ≤ 16777216) && (decide (k < t.rank) || t.dim k == 1)) &&
    (if ladderGrouped s d t then t.gcode != 0 && t.scaleBase != 0 else fmtGrouped t.fmt == (t.gcode != 0)) &&
    (t.fmt != 6 || t.auxBase != 0) && (t.fmt == 9) == t.trunk &&
    (t.gcode == 0 || (t.dim t.gaxis % t.g == 0 && (t.aft == 0 || t.dim (if t.gaxis = 0 then 1 else 0) % t.g == 0))) &&
    (t.rank == 1 || decide (cdiv (t.dim 0 * fmtBits t.fmt) 8 ≤ t.strides.getD 0 0))

/-- Check 8. -/
def tensorAligned (s : State) (i : Img) (n : Nat) : Bool :=
  let t := readTensor s i n
  (t.base :: t.scaleBase :: t.auxBase :: t.strides).all fun v => v % 64 == 0

/-- Check 9. DEDUCED: each part of a tensor lies in one region. -/
def tensorMapped (s : State) (d : DieId) (i : Img) (n : Nat) : Bool :=
  match (tensorParts s d i (readTensor s i n)).map fun e => regionOf e.1 e.2 with
  | some (.regs _) :: _ => false
  | some r :: rs => rs.all fun x => x == some r
  | none :: _ => false
  | [] => true

/-- Check 10. -/
def tensorOutside (s : State) (d : DieId) (i : Img) (n : Nat) : Bool :=
  (tensorParts s d i (readTensor s i n)).all fun e => !inSteward e.1 e.2

/-- Check 11. -/
def tensorUnaliased (s : State) (d : DieId) (i : Img) (n : Nat) : Bool :=
  let t := readTensor s i n
  let before := (List.range n).map (readTensor s i)
  let same := (before.filter fun u => u.cls == t.cls && u.pair == t.pair).length
  let mine := tensorParts s d i t
  match t.cls with
  | 1 => !(before.any fun u => u.cls == 1 && (tensorParts s d i u).any fun e =>
      mine.any fun g => decide (e.1 < g.1 + g.2) && decide (g.1 < e.1 + e.2))
  | 2 => same == 0
  | 3 => decide (same < 2)
  | _ => true

/-- Checks 6 to 11. -/
def tensorChecks (s : State) (d : DieId) (i : Img) : Option VErr :=
  orElse (firstBad eBAD_DESCRIPTOR 2 i.tensors (tensorFieldsOk s d i))
    (orElse (firstBad eBAD_SHAPE 2 i.tensors (tensorShapeOk s d i))
      (orElse (firstBad eBAD_ALIGNMENT 2 i.tensors (tensorAligned s i))
        (orElse (firstBad eUNMAPPED 2 i.tensors (tensorMapped s d i))
          (orElse (firstBad eACCESS_DENIED 2 i.tensors (tensorOutside s d i))
            (firstBad eWEIGHT_ALIASED 2 i.tensors (tensorUnaliased s d i))))))

/-! ### Successors: checks 13 and 14 -/

/-- Tasks whose successor range holds entry `n`. -/
def listers (s : State) (i : Img) (n : Nat) : List (Nat × Task) :=
  ((List.range i.tasks).map fun t => (t, readTask s i t)).filter fun e =>
    decide (e.2.succIdx ≤ n) && decide (n < e.2.succIdx + e.2.succCnt)

/-- A successor entry's own fields (R100). -/
def succFieldsOk (s : State) (i : Img) (n : Nat) : Bool :=
  let e := readSucc s i n
  decide (memNat s (i.base + i.succOff + 4 * n) 4 < 2 ^ 20) && (decide (1 ≤ i.minor) || e.1 == i.die) &&
    (e.1 != i.die || decide (e.2 < i.tasks))

/-- A local successor's FRAME is not below that of a task that lists it (R101). -/
def succFrameOk (s : State) (i : Img) (n : Nat) : Bool :=
  let e := readSucc s i n
  e.1 != i.die || (listers s i n).all fun p => decide (p.2.frame ≤ (readTask s i e.2).frame)

/-- Edges to die `e` (R100). -/
def edgesTo (s : State) (i : Img) (e : Nat) : Nat :=
  ((List.range i.succs).map fun n => if (readSucc s i n).1 = e then (listers s i n).length else 0).foldl (· + ·) 0

/-- Check 13. -/
def succChecks (s : State) (i : Img) : Option VErr :=
  let preds := ((List.range i.tasks).map fun t => (readTask s i t).preds).foldl (· + ·) 0
  orElse (firstBad eBAD_DESCRIPTOR 4 i.succs (succFieldsOk s i))
    (orElse (firstBad eBAD_DESCRIPTOR 3 i.tasks fun t => decide ((readTask s i t).succIdx + (readTask s i t).succCnt ≤ i.succs))
      (orElse (firstBad eBAD_DESCRIPTOR 4 i.succs (succFrameOk s i))
        (orElse (headerBad eBAD_DESCRIPTOR ((List.range 4).map fun e =>
            (52 + 4 * e, (if e = i.die then 0 else edgesTo s i e) != i.outRemote.getD e 0)))
          (orElse (headerBad eBAD_DESCRIPTOR ((List.range 4).map fun e =>
              (36 + 4 * e, i.inRemote.getD e 0 != 0 && (e == i.die || i.minor == 0))))
            (if preds = edgesTo s i i.die + i.inRemote.foldl (· + ·) 0 then none else some ⟨eBAD_DESCRIPTOR, 3, i.tasks⟩)))))

/-- Check 14. -/
def cycleCheck (s : State) (i : Img) : Option VErr :=
  firstBad eGRAPH_CYCLE 4 i.succs fun n => (listers s i n).all fun p => decide (p.1 < (readSucc s i n).2)

/-! ### The program section: check 15 (R179 to R181) -/

/-- The form an opcode's word takes: the types allowed, how many registers VD, VA, VB and VC select from (1 where the field is unused),
whether MK is used without ME, what ME must be (2: either), and the IMM values allowed for a type. -/
structure VForm where
  tys : List Nat
  vd : Nat
  va : Nat
  vb : Nat
  vc : Nat
  msk : Bool
  me : Nat
  imm : Nat → Nat → Bool

/-- IMM forms: unused, any, an A register, a memory operand with SEG, and one without. -/
def immZero : Nat → Nat → Bool := fun n _ => n == 0
/-- R180. -/ def immAny : Nat → Nat → Bool := fun _ _ => true
/-- R180. -/ def immA : Nat → Nat → Bool := fun n _ => decide (n < 8)
/-- R179. -/ def immSeg : Nat → Nat → Bool := fun n _ => n % 2 ^ 17 == 0
/-- R179. -/ def immMem : Nat → Nat → Bool := fun n _ => n % 2 ^ 19 == 0

/-- The form of each opcode of R180. -/
def vForm (op : Nat) : Option VForm :=
  match op with
  | 0x00 | 0x01 | 0x03 => some ⟨[0], 1, 1, 1, 1, false, 0, immZero⟩
  | 0x02 => some ⟨[0], 1, 1, 1, 1, false, 0, fun n _ => !bit n 23 || bits n 3 20 == 0⟩
  | 0x08 | 0x09 => some ⟨[0], 8, 1, 1, 1, false, 0, immAny⟩
  | 0x0A | 0x0B => some ⟨[0], 8, 1, 1, 1, false, 0, immA⟩
  | 0x0C => some ⟨[0], 8, 1, 1, 1, true, 0, immZero⟩
  | 0x0D => some ⟨[0], 1, 64, 1, 1, false, 0, immZero⟩
  | 0x10 => some ⟨[0, 2], 64, 1, 1, 1, false, 2, fun n _ => decide (n < 16)⟩
  | 0x11 => some ⟨[0, 1, 2], 64, 1, 1, 1, false, 2, fun n ty => ty != 1 || n % 256 == 0⟩
  | 0x12 => some ⟨[2], 64, 1, 1, 1, false, 2, immA⟩
  | 0x13 => some ⟨[0, 2], 64, 64, 64, 1, true, 0, immZero⟩
  | 0x14 | 0x31 | 0x50 | 0x51 => some ⟨[0], 64, 64, 1, 1, false, 2, immZero⟩
  | 0x20 | 0x21 | 0x22 | 0x25 | 0x26 => some ⟨[0, 1], 64, 64, 64, 1, false, 2, immZero⟩
  | 0x23 | 0x24 => some ⟨[0, 1], 64, 64, 64, 64, false, 2, immZero⟩
  | 0x27 | 0x28 => some ⟨[0, 1], 64, 64, 1, 1, false, 2, immZero⟩
  | 0x29 => some ⟨[0], 64, 64, 64, 1, false, 2, immZero⟩
  | 0x2A | 0x2B | 0x2C | 0x2D | 0x2E | 0x2F => some ⟨[0], 64, 64, 1, 1, false, 2, immZero⟩
  | 0x30 => some ⟨[2], 64, 64, 1, 1, false, 2, immZero⟩
  | 0x38 | 0x39 | 0x3A | 0x3B | 0x3C | 0x3D | 0x3E | 0x3F => some ⟨[2], 64, 64, 64, 1, false, 2, immZero⟩
  | 0x40 | 0x41 | 0x42 | 0x43 => some ⟨[0, 2], 16, 64, 64, 1, false, 2, immZero⟩
  | 0x48 | 0x49 | 0x4A => some ⟨[0], 16, 16, 16, 1, false, 0, immZero⟩
  | 0x4B => some ⟨[0], 16, 16, 1, 1, false, 0, immZero⟩
  | 0x4C => some ⟨[0], 16, 1, 1, 1, false, 0, immZero⟩
  | 0x58 => some ⟨[0, 2], 64, 64, 1, 1, false, 1, immA⟩
  | 0x59 => some ⟨[0, 2], 64, 64, 1, 1, false, 1, immZero⟩
  | 0x60 => some ⟨[0, 1, 2], 64, 1, 1, 1, false, 2, immSeg⟩
  | 0x61 => some ⟨[0, 1, 2], 1, 64, 1, 1, false, 2, immSeg⟩
  | 0x62 => some ⟨[0], 1, 64, 1, 1, false, 0, immSeg⟩
  | 0x63 => some ⟨[0], 1, 64, 1, 1, false, 0, immMem⟩
  | 0x64 => some ⟨[0, 2], 64, 1, 64, 1, false, 2, immMem⟩
  | 0x65 => some ⟨[0, 2], 1, 64, 64, 1, false, 2, immMem⟩
  | 0x66 => some ⟨[0, 2], 1, 64, 1, 1, false, 1, immMem⟩
  | 0x67 => some ⟨[0, 2], 64, 1, 1, 1, false, 1, immMem⟩
  | 0x68 => some ⟨[0], 64, 1, 1, 1, false, 0, fun n _ => n % 2 ^ 18 == 0⟩
  | 0x69 => some ⟨[0], 16, 1, 1, 1, false, 2, immMem⟩
  | 0x6A => some ⟨[0], 1, 16, 1, 1, false, 2, immMem⟩
  | 0x6B => some ⟨[2], 64, 1, 1, 1, false, 2, immMem⟩
  | _ => none

/-- Whether an instruction word is legal by itself (R181). -/
def vWordOk (w : D) : Bool :=
  let v := vdecode w
  match vForm v.op with
  | none => false
  | some f =>
    f.tys.contains v.ty && (f.me == 2 || b2n v.me == f.me) && (v.me || !v.mz) && (v.me || f.msk || v.msk == 0) &&
      decide (v.vd < f.vd) && decide (v.va < f.va) && decide (v.vb < f.vb) && decide (v.vc < f.vc) && f.imm v.imm v.ty

/-- Scans a program from instruction `n` at a nesting `depth`: the first instruction at which a case of R181 is found. -/
def scanProg : Nat → Nat → List D → Option Nat
  | _, _, [] => none
  | n, depth, w :: ws =>
    if !vWordOk w then some n
    else match (vdecode w).op with
      | 0x02 => if 4 ≤ depth then some n else scanProg (n + 1) (depth + 1) ws
      | 0x03 => if depth = 0 then some n else scanProg (n + 1) (depth - 1) ws
      | _ => scanProg (n + 1) depth ws

/-- The program section's instructions. -/
def progWords (s : State) (i : Img) : List D :=
  (chunks 8 (i.progLen / 8) (peek s (i.base + i.progOff) i.progLen)).map fun b => BitVec.ofNat 64 (leNat b)

/-- Check 15. -/
def progCheck (s : State) (i : Img) : Option VErr := (scanProg 0 0 (progWords s i)).map fun n => ⟨eBAD_OPCODE, 5, n⟩

/-! ### The whole validation -/

/-- Reads `n` entries of `size` bytes of a section through the dispatcher's port (R378). -/
def readEntries (d : DieId) (sec a size n : Nat) (s : State) : State × Option VErr :=
  (List.range n).foldl (fun (acc : State × Option VErr) k =>
    match acc.2 with
    | some _ => acc
    | none =>
      match readRange (.disp d) (a + size * k) size acc.1 with
      | (s1, 0) => (s1, none)
      | (s1, c) => (s1, some ⟨c, sec, k⟩)) (s, none)

/-- Reads a section unless an earlier one has failed. -/
def thenRead (d : DieId) (sec a size n : Nat) (x : State × Option VErr) : State × Option VErr :=
  match x.2 with
  | some _ => x
  | none => readEntries d sec a size n x.1

/-- Reads the image: its header, and, once checks 1 to 4 have passed, its sections. -/
def readSections (d : DieId) (i : Img) (s : State) : State × Option VErr :=
  thenRead d 5 (i.base + i.progOff) 8 (i.progLen / 8) (thenRead d 4 (i.base + i.succOff) 4 i.succs
    (thenRead d 3 (i.base + i.taskOff) 128 i.tasks (thenRead d 2 (i.base + i.tensorOff) 64 i.tensors
      (readEntries d 1 (i.base + i.frameOff) 16 i.frames s))))

/-- Validation of the image at `base` (R102): the checks in order, and the reads that may fail (R378). An image range the dispatcher
cannot read fails with the access's code at the header. -/
def validate (d : DieId) (base len : Nat) (s : State) : State × Option VErr :=
  match memRead (.disp d) base 256 s with
  | (s1, 0, _) =>
    let i := readImg s1 base
    match headerChecks s1 d i len with
    | some e => (s1, some e)
    | none =>
      match readSections d i s1 with
      | (s2, some e) => (s2, some e)
      | (s2, none) =>
        match orElse (frameChecks s2 i) (orElse (tensorChecks s2 d i)
            (orElse (firstBad eBAD_DESCRIPTOR 3 i.tasks (check12 s2 d i)) (orElse (succChecks s2 i) (orElse (cycleCheck s2 i) (progCheck s2 i))))) with
        | some e => (s2, some e)
        | none =>
          match memRead (.disp d) base i.len s2 with
          | (s3, 0, _) => (s3, none)
          | (s3, c, _) => (s3, some ⟨c, 0, 0⟩)
  | (s1, c, _) => (s1, some ⟨c, 0, 0⟩)

end Sys2Proof.Machine
end

