-- ==== Sys2Proof/Machine/Slots.lean ====
section
/-!
DEFINITION. Slots.lean: the commands of the graph slots (R103, R105, R106, R108), the end of a validation, and the end of a task (R109).
-/
namespace Sys2Proof.Machine

/-! ### Slot commands -/

/-- Changes slot `k` of die `d`. -/
def onSlot (d : DieId) (k : Nat) (f : Slot → Slot) (s : State) : State :=
  onDisp d (fun p => if k = 0 then { p with slotA := f p.slotA } else { p with slotB := f p.slotB }) s

/-- STEP of the last tick the die received, when it has received one (R106). -/
def lastStep (s : State) (d : DieId) : Option Nat :=
  match s.dies[d].tick.rx.getLast? with
  | some r => some r.t.step
  | none => s.dies[d].tick.last.map (·.step)

/-- LOAD (R105, R106): the image range is latched and its validation starts. -/
def slotLoad (d : DieId) (k : Nat) (s : State) : State × Nat :=
  let p := pgDISP d
  let base := rd64 s (p + DISP_IMG_LO_V.off)
  let len := gf s p DISP_IMG_LEN_V
  if base % 4096 ≠ 0 then (s, eBAD_ALIGNMENT)
  else if len = 0 then (s, eBAD_VALUE)
  else (setSlotState d k 1 (onSlot d k (fun _ => ⟨base, len * 4096, 0, 0, 0⟩) s), eOK)

/-- ARM (R105, R106, R243). -/
def slotArm (d : DieId) (k : Nat) (s : State) : State × Nat :=
  let step := rd64 s (pgDISP d + DISP_ACT_STEP_LO_V.off)
  let late := gf s (pgTICK d) TICK_CTRL_EN == 1 && (match lastStep s d with | some n => decide (step ≤ n) | none => false)
  let dig := if k = 0 then s.dies[d].watch.digA else s.dies[d].watch.digB
  if slotState s d (1 - k) = 3 ∨ late ∨ dig ≠ watchDigest s d then (s, eBAD_VALUE)
  else (setSlotState d k 3 (onSlot d k (fun x => { x with actStep := step }) s), eOK)

/-- A command of DISP_CMD on slot `k` (R105): 1 LOAD, 2 ARM, 3 DISARM, 4 UNLOAD. One the table does not list for the slot's state is
rejected. -/
def slotCommand (d : DieId) (op k : Nat) (s : State) : State × Nat :=
  let st := slotState s d k
  match op, st with
  | 0, _ => (s, eOK)
  | 1, 0 => slotLoad d k s
  | 1, 2 => slotLoad d k s
  | 2, 2 => slotArm d k s
  | 3, 3 => (setSlotState d k 2 s, eOK)
  | 4, 1 => (setSlotState d k 0 s, eOK)
  | 4, 2 => (setSlotState d k 0 s, eOK)
  | _, _ => (s, if st = 4 ∧ op ≤ 4 then eSLOT_ACTIVE else eBAD_VALUE)

/-! ### The end of a validation (R103, R105, R519) -/

/-- SEQ register and version fields of slot `k`. -/
def slotSeq (k : Nat) : Fld := if k = 0 then DISP_SEQ_A_V else DISP_SEQ_B_V
/-- R120. -/ def slotMinor (k : Nat) : Fld := if k = 0 then DISP_SLOT_A_MINOR else DISP_SLOT_B_MINOR
/-- R120. -/ def slotMajor (k : Nat) : Fld := if k = 0 then DISP_SLOT_A_MAJOR else DISP_SLOT_B_MAJOR

/-- A validation that fails (R103). -/
def validationFails (d : DieId) (k : Nat) (e : VErr) (s : State) : State :=
  let p := pgDISP d
  let s1 := wr (p + DISP_VAL_IDX_V.off) (BitVec.ofNat 32 (e.idx % 2 ^ 23))
    (wr (p + DISP_VAL_ERR_CODE.off) (BitVec.ofNat 32 (e.code + e.section_ * 2 ^ 16 + k * 2 ^ 19)) s)
  setSlotState d k 0 (raise p 1 (tallyAdd p 8 1 (blockErr p e.code s1)))

/-- A validation that passes (R103, R105, R243). -/
def validationPasses (d : DieId) (k : Nat) (s : State) : State :=
  let p := pgDISP d
  let i := readImg s (slotOf s d k).base
  let bs := peek s i.base i.len
  let w := watchDigest s d
  let s1 := onSlot d k (fun x => { x with digest0 := crcA bs, digest1 := crcB bs }) s
  let s2 := onDie d (fun x => { x with watch := if k = 0 then { x.watch with digA := w } else { x.watch with digB := w } }) s1
  let s3 := sf p (slotSeq k) i.seq (sf p (slotMinor k) i.minor (sf p (slotMajor k) i.major s2))
  setSlotState d k 2 (raise p 0 (tallyAdd p 7 1 s3))

/-- VALIDATION_DONE (R102, R103): the validation of a LOADING slot ends. -/
def doValidationDone (d : DieId) (slot : Fin 2) (s : State) : State :=
  let k := slot.val
  if !dieLive s d || slotState s d k != 1 then s else
  match validate d (slotOf s d k).base (slotOf s d k).len s with
  | (s1, some e) => validationFails d k e s1
  | (s1, none) => validationPasses d k s1

/-! ### The end of a task (R109) -/

/-- Whether an executing task has done all its work: a vector task has executed END, a CE task has what its end needs. -/
def unitDone (s : State) (d : DieId) (t : Nat) (tk : Task) : Bool :=
  if tk.unit < 6 then !bankHeld s d t && !sampleHeld s d t
  else if tk.unit = 6 ∨ tk.unit = 7 then (s.dies[d].vx[0].task != some t) && (s.dies[d].vx[1].task != some t)
  else if tk.unit = 9 then ceDone s d t tk
  else true

/-- The unit's own side of a completion. -/
def unitComplete (d : DieId) (i : Img) (tk : Task) (t : Nat) (s : State) : State :=
  if tk.unit < 6 then matComplete d i tk s
  else if tk.unit ≤ 7 then (if tk.opcode = 1 then vxComplete d tk s else updComplete d tk s)
  else if tk.unit = 8 then tallyAdd (pgRE d) 0 1 s
  else if tk.unit = 9 then ceComplete d i tk t s
  else if tk.unit = 10 then s
  else mvComplete d tk s

/-- The work a matrix task that waited for its bank has still to do (R155). -/
def lateWork (d : DieId) (i : Img) (tk : Task) (t : Nat) (s : State) : State × Nat :=
  if tk.unit < 6 ∧ s.dies[d].disp.bankWait.contains t then matmul d t (tk.opcode == 2) i tk s else (s, eOK)

/-- TASK_COMPLETE (R109): an executing task whose outputs are all written ends. A matrix task that waited for its bank works first. -/
def doTaskComplete (d : DieId) (t : Nat) (s : State) : State :=
  match activeImg s d with
  | none => s
  | some i =>
    let tk := readTask s i t
    if dieLive s d && tstat s d t == .executing && unitDone s d t tk then
      match lateWork d i tk t s with
      | (s1, 0) => completeTask d i t (unitComplete d i tk t s1)
      | (s1, c) => taskFault d t c s1
    else s

/-! ### Meanings of the commands -/

/-- VALIDATION_DONE (R102). -/
def execValidationDone (d : DieId) (slot : Fin 2) (s : State) : Host.Outcome State Fault Refusal :=
  .next (dieStep d (doValidationDone d slot) s)
/-- TASK_COMPLETE (R109). -/
def execTaskComplete (d : DieId) (task : Nat) (s : State) : Host.Outcome State Fault Refusal :=
  .next (dieStep d (doTaskComplete d task) s)

end Sys2Proof.Machine
end

