-- ==== Sys2Proof/Machine/Deliver.lean ====
section
/-!
DEFINITION. Deliver.lean: what a receiving port does with a whole message (R312), and the payload of null flits (R294, R368).
-/
namespace Sys2Proof.Machine

/-- Hands a collective-engine message to the die its header names; SIDE_UP and SIDE_DOWN go to the tick die (R333, R341). A message with a
reserved OP has no effect. -/
def ceDeliver (l : LinkMsg) (s : State) : State :=
  let x := ceParse l
  let d : DieId := ⟨x.2.dstDie % 4, Nat.mod_lt _ (by decide)⟩
  let td := (pkgTickDie s).getD d
  match x.1 with
  | 1 => doContrib d x.2 s
  | 2 => doCheck d x.2 s
  | 3 => doAck d x.2 s
  | 4 => doTreeUp d x.2 s
  | 5 => doTreeDown d x.2 s
  | 6 => doSideUp td x.2 s
  | 7 => doSideDown td x.2 s
  | 8 => doShard d x.2 s
  | 9 => doMove d x.2 s
  | 10 => doRefuse d x.2 s
  | _ => s

/-- Delivers a message for this package by its class and KIND (R61, R296, R341, R366). The rules name no class 0 message of KIND 0. -/
def deliver (m : LinkMsg) (s : State) : State :=
  match m.cls, m.kind with
  | 0, 2 => doDoneReport (reportParse m.payload) s
  | 1, 0 => doExportStreamReceive ⟨field m.payload 12 4 % 4, Nat.mod_lt _ (by decide)⟩ (field m.payload 0 8)
      ((m.payload.drop 16).take (field m.payload 8 4)) s
  | 2, 0 => ceDeliver m s
  | 3, 0 => ceDeliver m s
  | _, _ => s

/-- The checks of R312 on a message of port `p` that crossed port `c`, and what follows them: it is dropped and counted, forwarded, or
delivered. A tick meets only the first (R74). -/
def judgeMessage (p c : PortId) (m : LinkMsg) (s : State) : State :=
  let d := portDie p
  let pg := pgLPof p
  let mine := m.dst == ownMember s d
  let age := (m.pgen + 65536 - gf s (pgLP d) LS_PGEN_CUR) % 65536
  if m.kind = 3 then s
  else if m.slice ≠ gf s (pgLP d) LS_SLICE_SLICE_ID then tallyAdd pg 11 1 s
  else if m.kind = 1 then tickArrive p c (tickParse m.payload) s
  else if 1 < age then tallyAdd pg 14 1 s
  else if mine && stopped s && decide (1 ≤ m.cls) then tallyAdd (pgPWR d) 3 1 s
  else if mine then deliver m s
  else if gf s (pgLP d) LS_CFG_HOP_MAX ≤ m.hops + 1 then tallyAdd pg 13 1 s
  else
    match routePort s d m.dst m.flow with
    | some q => sendOn q { m with hops := m.hops + 1 } s
    | none => tallyAdd pg 12 1 s

/-- A port whose receive buffer has space that its peer does not know of returns the credits at once: an idle port sends null flits (R294). -/
def returnCredits (p : PortId) (s : State) : State :=
  if portActive s p && s.ports[p].freed.toList.any (0 < ·) then sendNull p false s else s

/-- LINK_MESSAGE (R312): a port takes a whole message: one it has reassembled, whose buffer entries it frees, or one that comes to an
ACTIVE port from outside the model. -/
def doLinkMessage (p : PortId) (m : LinkMsg) (s : State) : State :=
  if !dieLive s (portDie p) then s
  else
    match s.ports[p].inbox.find? (·.msg == m) with
    | some r =>
      let s1 := onPort p (fun x => { x with inbox := x.inbox.erase r }) s
      match r.buf with
      | some q => returnCredits q (judgeMessage p r.crossed m (freeCredits q m.cls (max 1 (cdiv m.payload.length 256)) s1))
      | none => judgeMessage p r.crossed m s1
    | none => if portState s p = 5 then judgeMessage p p m s else s

/-- FLIT_RECEIVE (R293 to R299, R368): a null flit's payload goes to the twin unit when it comes on the twin port. -/
def doFlitReceive (p : PortId) (bytes : List Byte) (fec : Fec) (s : State) : State :=
  let s1 := takeFlit p bytes fec s
  let f := readFlit bytes
  match pkgTickDie s with
  | none => s1
  | some d =>
    if portActive s p && !fec.bad && flitCrcOk bytes && flitFormOk bytes && f.null && twinPort s d == p then twinTake d f.payload s1
    else s1

/-! ### Meanings of the commands -/

/-- FLIT_RECEIVE (R293). -/
def execFlitReceive (p : PortId) (bytes : List Byte) (fec : Fec) (s : State) : Host.Outcome State Fault Refusal :=
  .next (dieStep (portDie p) (doFlitReceive p bytes fec) s)

end Sys2Proof.Machine
end

