-- ==== Sys2Proof/Machine/Boot.lean ====
section
/-!
DEFINITION. Boot.lean: power-on, the choice and check of a configuration slot, the start of the dies (R14 to R17, R440 to R450), slot
writes (R452), attestation (R454 to R456), the seal, and what a host reset clears (R416).
-/
namespace Sys2Proof.Machine

/-- Changes the steward. -/
def onStw (f : Steward → Steward) (s : State) : State := { s with stw := f s.stw }

/-- Exactly `n` bytes: zeros are added, and a longer value is cut. -/
def fixLen (n : Nat) (bs : List Byte) : List Byte := (bs ++ List.replicate n 0).take n

/-- Sets bit `i` of a register field. -/
def orBit (p : Nat) (f : Fld) (i : Nat) (s : State) : State :=
  let v := gf s p f
  if bit v i then s else sf p f (v + 2 ^ i) s

/-! ### The configuration flash (R443, R444) -/

/-- Flash offset of slot `k`. -/
def slotBase (k : Nat) : Nat := if k = 0 then 0 else 0xF00000

/-- Bytes of slot `k` from slot offset `a`. -/
def slotBytes (s : State) (k a n : Nat) : List Byte := sgetList zflash s.stw.flash (slotBase k + a) n

/-- A little-endian field of slot `k`. -/
def slotNat (s : State) (k a n : Nat) : Nat := leNat (slotBytes s k a n)

/-- Erases flash bytes. -/
def flashErase (a n : Nat) (s : State) : State :=
  onStw (fun x => { x with flash := skeep (fun k => decide (k < a) || decide (a + n ≤ k)) x.flash }) s

/-- Writes flash bytes. -/
def flashWrite (a : Nat) (bs : List Byte) (s : State) : State :=
  onStw (fun x => { x with flash := ssetList zflash x.flash a bs }) s

/-- Firmware and configuration record of a slot. -/
def slotFw (s : State) (k : Nat) : List Byte := slotBytes s k 0x12000 (slotNat s k 136 4)
/-- R443. -/ def slotCfg (s : State) (k : Nat) : List Byte := slotBytes s k 0x2000 (slotNat s k 12 4)

/-! ### Configuration records (R448, R449) -/

/-- An entry of a configuration record. -/
structure CalEntry where
  id : Nat
  index : Nat
  value : Int
  deriving DecidableEq, Repr

/-- Elements of an item: INDEX runs below this count. -/
def calCount (id : Nat) : Nat :=
  match id with
  | 1 => 64
  | 2 => 64
  | 3 => 32
  | 4 => 256
  | 5 => 64
  | 0x100 => 1
  | 0x101 => 1
  | _ => 0

/-- Entries of a slot's record. -/
def recEntries (s : State) (k : Nat) : List CalEntry :=
  (List.range (slotNat s k 0x2006 2)).map fun n =>
    let a := 0x2010 + 8 * n
    ⟨slotNat s k a 2, slotNat s k (a + 2) 2, (BitVec.ofNat 32 (slotNat s k (a + 4) 4)).toInt⟩

/-- Check 9 of R445 on entry `n`: known ID, INDEX in range, no earlier entry of the same element, and no reserved boot option. -/
def entryOk (es : List CalEntry) (n : Nat) : Bool :=
  match es[n]? with
  | none => true
  | some e => decide (e.index < calCount e.id) && !((es.take n).any fun x => x.id == e.id && x.index == e.index) &&
      (e.id != 0x100 || (decide (0 ≤ e.value) && decide (e.value ≤ 3)))

/-- Check 10 of R445: the adjustment within its factory bounds and the result within the item's range (R449). -/
def entryBounds (e : CalEntry) : Bool :=
  if e.id = 0x100 then true
  else if e.id = 0x101 then decide (1200 ≤ e.value) && decide (e.value ≤ 3200)
  else
    let r := Config.calFactory e.id e.index + e.value
    decide (Config.calMin e.id e.index ≤ e.value) && decide (e.value ≤ Config.calMax e.id e.index) &&
      (if e.id = 2 then decide (650 ≤ r) && decide (r ≤ 850)
       else if e.id = 4 ∨ e.id = 5 then decide (Config.pmdLeast e.id ≤ r) && decide (r ≤ Config.pmdMost e.id)
       else true)

/-! ### Checking a slot (R445) -/

/-- Check 1: magic numbers, reserved fields and lengths. -/
def slotForm (s : State) (k : Nat) : Bool :=
  let zero (a n : Nat) : Bool := (slotBytes s k a n).all (· == 0)
  slotNat s k 0 4 == 0x544C5359 && slotNat s k 128 4 == 0x57465359 && zero 6 2 && zero 64 64 && zero 140 4 && zero 192 64 &&
    zero 5432 2760 && decide (16 ≤ slotNat s k 12 4) && decide (slotNat s k 12 4 ≤ 65536) &&
    decide (4096 ≤ slotNat s k 136 4) && decide (slotNat s k 136 4 ≤ 15654912)

/-- Check 8: the record's header. -/
def recordForm (s : State) (k : Nat) : Bool :=
  slotNat s k 0x2000 4 == 0x47464359 && slotNat s k 0x2004 1 == 0 && slotNat s k 0x2005 1 == 1 &&
    (slotBytes s k 0x2008 8).all (· == 0) && decide (slotNat s k 0x2006 2 ≤ 8190) &&
    slotNat s k 12 4 == 16 + 8 * slotNat s k 0x2006 2

/-- Checks 1 to 7 of R445: OK or the code of the first that fails. -/
def slotFirmware (s : State) (k : Nat) : Nat :=
  let block := slotBytes s k 128 128
  if !slotForm s k then eBAD_VALUE
  else if slotNat s k 5 1 ≠ 1 ∨ slotNat s k 4 1 ≠ 0 then eCFG_VERSION
  else if slotBytes s k 144 48 ≠ Config.sha384 (slotFw s k) then eHASH_MISMATCH
  else if !Config.ecdsaOk (slotBytes s k 256 96) block then eSIG_ECDSA
  else if slotNat s k 352 4 ≠ 5076 || !Config.hssOk (slotBytes s k 356 5076) block then eSIG_LMS
  else if slotNat s k 132 4 < s.stw.floor then eROLLBACK
  else if slotBytes s k 16 48 ≠ Config.sha384 (slotCfg s k) then eHASH_MISMATCH
  else eOK

/-- The ten checks of R445: the code, and the entry that checks 9 and 10 refuse. -/
def slotCheck (s : State) (k : Nat) : Nat × Option Nat :=
  match slotFirmware s k with
  | 0 =>
    if !recordForm s k then (eCFG_VERSION, none) else
    let es := recEntries s k
    match (List.range es.length).find? fun n => !entryOk es n with
    | some n => (eBAD_VALUE, some n)
    | none =>
      match (List.range es.length).find? fun n => !((es[n]?).all entryBounds) with
      | some n => (eCAL_BOUNDS, some n)
      | none => (eOK, none)
  | c => (c, none)

/-- Slot sequence `p` is newer than `q` (R446). -/
def seqNewer (p q : Nat) : Bool :=
  let n := (p + 2 ^ 32 - q) % 2 ^ 32
  decide (1 ≤ n) && decide (n ≤ 2 ^ 31 - 1)

/-- The order in which slots are tried (R446). -/
def slotOrder (s : State) : List Nat := if seqNewer (slotNat s 1 8 4) (slotNat s 0 8 4) then [1, 0] else [0, 1]

/-! ### Calibration in force -/

/-- The user adjustment in force of an element; 0 for an element with no entry (R449). -/
def calUser (s : State) (id index : Nat) : Int := (sget z32 s.stw.cal (65536 * id + index)).toInt

/-- Factory plus user adjustment. -/
def calInForce (s : State) (id index : Nat) : Int := Config.calFactory id index + calUser s id index

/-- Core voltage of point `i` of die `d` in mV (R470): kept from 650 to 850. -/
def pointVolts (s : State) (d : DieId) (i : Nat) : Nat := (max 650 (min 850 (calInForce s 2 (16 * d.val + i)))).toNat

/-- The point that applies at a temperature (R470). -/
def pointOf (hot : Nat) : Nat := min 15 (hot / 8)

/-! ### The start of the dies (R15, R169, R380, R381, R404, R440) -/

/-- A stage of R440 is entered: PKG_READY is high in READY alone, and FAULT_N is low in FAULT (R507). -/
def enterStage (n : Nat) (s : State) : State :=
  emits [.pin "PKG_READY" (n == 4), .pin "FAULT_N" (n != 6)] (sf pgBOOT BOOT_STAT_STAGE n s)

/-- Boot halts with a code (R441). -/
def bootFault (code : Nat) (s : State) : State := enterStage 6 (sf pgBOOT BOOT_STAT_CODE code s)

/-- POS_CONFLICT or POS_UNSTABLE (R16). -/
def posFault (code : Nat) (s : State) : State := bootFault code (sf pgPKG PKG_STRAPS_POS_FAULT 1 (blockErr pgPKG code s))

/-- Seals the configuration (R457). -/
def sealNow (s : State) : State :=
  if gf s pgBOOT BOOT_STAT_SEALED = 1 then s else raise pgBOOT 1 (sf pgBOOT BOOT_STAT_SEALED 1 s)

/-- A die is marked absent (R15, R17). -/
def markAbsent (h : DieId) (s : State) : State := orBit pgPKG PKG_RELEASE_ABSENT h.val (sf (pgHTSof h) HTS_DIE_STATE 0 s)

/-- Whether a die of the boot is ready for release: a report held and the fill ended (R15, R380). -/
def dieReady (s : State) (h : DieId) : Bool :=
  gf s (pgHTSof h) HTS_DIE_STATE == 1 && s.stw.reports.any (fun r => r.1 == h.val) && gf s (pgINTEG h) INTEG_STAT_FILL_DONE == 1

/-- Releases a die's control core: its time stamp is loaded (R58), and sides that face an absent die are FAILED. -/
def releaseDie (h : DieId) (s : State) : State :=
  let sides (e : SideId) (s : State) : State :=
    if gf s (pgHTSof (across h e)) HTS_DIE_STATE = 0 then swFail h e 7 s else s
  orBit pgPKG PKG_RELEASE_RELEASED h.val (sf (pgTIME h) TS_STAT_SYNCED 1 (sf (pgHTSof h) HTS_DIE_STATE 2 (sides 1 (sides 0 s))))

/-- READY once every die can be released or is absent; FAULT when none is left (R440, R441). -/
def bootProgress (s : State) : State :=
  if gf s pgBOOT BOOT_STAT_STAGE ≠ 3 then s
  else if allDies.any fun h => gf s (pgHTSof h) HTS_DIE_STATE == 1 && !dieReady s h then s
  else
    match allDies.filter (dieReady s) with
    | [] => bootFault eDIE_LOST s
    | hs =>
      let s1 := retopo (forEach releaseDie hs s)
      let s2 := raise pgBOOT 0 (enterStage 4 (wr (pgBOOT + BOOT_TIME_V.off) (BitVec.ofNat 32 (s.time / 1000)) s1))
      if bit s.stw.opts 1 then sealNow s2 else s2

/-- A self-test maps failing cell row `row` of array `m` onto a spare row; with all four in use the array fails (R169). -/
def rowRepair (d : DieId) (m row : Nat) (s : State) : State :=
  let q := pgMXof d m
  let used := gf s q MX_ROWS_USED
  if used < 4 then
    raise q 3 (sf q MX_ROWS_USED (used + 1) (wr (q + 0x110 + 4 * used) (BitVec.ofNat 32 (row % 256 + 2 ^ 31)) s))
  else
    let s1 := sf q MX_ROWS_EXHAUSTED 1 s
    if gf s q MX_STATE_STATE = 4 then s1 else arrayFails d m s1

/-- After the power-on self-test an array that failed loses its rank to the spare (R166, R169, R485). -/
def bootArrays (d : DieId) (s : State) : State := sampleStatus d (arrayTick d false s)

/-- The checker self-test of a booting die, which follows its strap report (R381, R440): a die that fails it is marked absent. -/
def checkerTest (d : DieId) (s : State) : State :=
  match s.stw.env.checkerFail.find? fun x => x.1 == d.val with
  | some x =>
    let p := pgINTEG d
    let s1 := raise p 5 (sf p INTEG_STAT_CHK_CHAN x.2.2 (sf p INTEG_STAT_CHK_UNIT x.2.1 (sf p INTEG_STAT_CHK_FAIL 1 s)))
    sf pgBOOT BOOT_STAT_CODE eCHECKER_FAIL (markAbsent d (orBit pgBOOT BOOT_DIES_CHECKER d.val s1))
  | none => s

/-- The start-up of a die: the wire test when enabled (R404), hatch and stack training, and the array rows (R169). A die that holds its
position from an earlier start goes on to its checkers. -/
def dieTests (d : DieId) (s : State) : State :=
  let e := s.stw.env
  let s1 := sf (pgHTSof d) HTS_DIE_STATE 1 s
  let s2 :=
    if bit s.stw.opts 0 then
      let wires (sd : SideId) : List (Nat × Nat) :=
        (e.wireFail.filter fun x => x.1 == d.val && x.2.1 == sd.val).map fun x => (x.2.2.1, x.2.2.2)
      let put (sd : SideId) (s : State) : State := onSide d sd (fun x => { x with
        fails := Vector.ofFn fun f => ((wires sd).filter fun w => w.1 == f.val).map (·.2) }) s
      let sA := put 1 (put 0 s1)
      if (wires 0).isEmpty && (wires 1).isEmpty && !(e.hatchFail.any fun x => x.1 == d.val) then sA
      else orBit pgBOOT BOOT_DIES_WIRE d.val sA
    else s1
  let s3 := forEach (stackTrain d) [0, 1, 2] (hatchTrain d s2)
  let s4 := bootArrays d (forEach (fun x s => if x.1 = d.val then rowRepair d (x.2.1 % 7) x.2.2 s else s) e.rowFaults s3)
  let s5 := sf (pgPWR d) PWR_VCORE_SET (pointVolts s4 d (pointOf (gf s4 (pgPWR d) PWR_STATE_HOT))) s4
  if s.stw.reports.any fun x => x.1 == d.val then checkerTest d s5 else s5

/-- The DIES stage begins (R440). -/
def enterDies (s : State) : State :=
  let s1 := wr (pgBOOT + BOOT_DIES_CHECKER.off) 0 (wr (pgPKG + PKG_RELEASE_RELEASED.off) 0 (enterStage 3 s))
  let s2 := sf pgBOOT BOOT_STAT_WIRE_TEST (b2n (bit s.stw.opts 0)) s1
  bootProgress (forEach dieTests allDies s2)

/-- The accepted slot's record and firmware come into force (R449, R450). -/
def applySlot (k : Nat) (s : State) : State :=
  let es := recEntries s k
  let val (id : Nat) (dflt : Nat) : Nat := ((es.find? fun e => e.id == id).map fun e => e.value.toNat).getD dflt
  let cal := es.foldl (fun m e => if e.id ≠ 0x100 then sset z32 m (65536 * e.id + e.index) (BitVec.ofInt 32 e.value) else m) []
  let svn := slotNat s k 132 4
  let s1 := onStw (fun x => { x with opts := val 0x100 0, cal := cal, fwHash := slotBytes s k 144 48, cfgHash := slotBytes s k 16 48 }) s
  let s2 := sf pgSEC SEC_SVN_SVN svn (wr (pgPCAP + PCAP_CAP_V.off) (BitVec.ofNat 32 (val 0x101 3200)) s1)
  let s3 := wr (pgBOOT + BOOT_SEQ_V.off) (BitVec.ofNat 32 (slotNat s k 8 4)) (sf pgBOOT BOOT_STAT_SLOT k s2)
  sf pgSSVC CS_SRC_OTHER 0 (sf pgSSVC CS_SRC_SLOT (15 * k) s3)

/-- VALID and SEQ of a checked slot, and the tally of failed checks (R460). -/
def noteCheck (k code : Nat) (s : State) : State :=
  let s1 := sf pgCFG (if k = 0 then CFG_STAT_VALID_A else CFG_STAT_VALID_B) (b2n (code == 0)) s
  let s2 := wr (pgCFG + (if k = 0 then CFG_SEQ_A_V.off else CFG_SEQ_B_V.off)) (BitVec.ofNat 32 (slotNat s k 8 4)) s1
  if code = 0 then s2 else tallyAdd pgCFG 1 1 s2

/-- BOOT_VAL_IDX names the table entry at which the check of slot `k` failed, where it is one of the table's. -/
def noteIndex (k : Nat) (idx : Option Nat) (s : State) : State :=
  match idx with
  | some n => sf pgBOOT BOOT_VAL_IDX_VALID 1 (sf pgBOOT BOOT_VAL_IDX_SLOT k (sf pgBOOT BOOT_VAL_IDX_ENTRY n s))
  | none => s

/-- Slots are tried in order; with both refused the package enters RECOVERY (R441, R446). -/
def trySlots (first : Nat) : List Nat → State → State
  | [], s =>
    enterStage 5 (sf pgBOOT BOOT_STAT_CODE (gf s pgBOOT (if first = 0 then BOOT_CODE_CODE_A else BOOT_CODE_CODE_B)) s)
  | k :: ks, s =>
    let r := slotCheck s k
    if r.1 = 0 then enterDies (applySlot k (noteCheck k 0 s))
    else trySlots first ks (noteIndex k r.2 (sf pgBOOT (if k = 0 then BOOT_CODE_CODE_A else BOOT_CODE_CODE_B) r.1 (noteCheck k r.1 s)))

/-- The SLOT stage (R440, R446). -/
def slotStage (s : State) : State :=
  let o := slotOrder s
  let s1 := wr (pgBOOT + BOOT_VAL_IDX_ENTRY.off) 0 (wr (pgBOOT + BOOT_CODE_CODE_A.off) 0 (sf pgBOOT BOOT_STAT_CODE 0 (enterStage 2 s)))
  trySlots (o.headD 0) o s1

/-! ### Power-on and power-down (R10, R440, R501) -/

/-- Everything at its power-on value: what is kept is the flash, the fuses, the host's memory, the queue of waiting commands, what
has been driven, and the model's count of free values. -/
def powerDown (s : State) : State :=
  { State.reset with
    pending := s.pending, hostMem := s.hostMem, out := s.out, fresh := s.fresh
    stw := { Steward.reset with
      deviceId := s.stw.deviceId, floor := s.stw.floor, lmsA := s.stw.lmsA, lmsB := s.stw.lmsB, trip := s.stw.trip
      service := s.stw.service, flash := s.stw.flash } }

/-- HSS indices used: the higher valid record of the state area (R455). -/
def lmsIndex (s : State) : Nat := max (s.stw.lmsA.getD 0) (s.stw.lmsB.getD 0)

/-- The package stops for coolant: STOPPED is set and its event raised (R473). -/
def setStopped (s : State) : State :=
  if stopped s then s else
  let s1 := forEach (fun d s => sf (pgPWR d) PWR_STATE_STOPPED 1 s) allDies (sf pgTRAY TRAY_STOP_STOPPED 1 s)
  raise pgTRAY 0 (tallyAdd pgTRAY 0 1 s1)

/-- POWER_ON_RESET (R440): the ROM stage reads the fuses and pins; then the SLOT stage. With COOLANT_OK low the package starts
stopped (R507). -/
def doPowerOnReset (env : BootEnv) (s : State) : State :=
  let s0 := onStw (fun x => { x with env := env }) (powerDown s)
  let s1 := wr64 (pgSEC + SEC_DEVID_LO_V.off) s.stw.deviceId (sf pgSEC SEC_SVN_FLOOR s.stw.floor
    (wr (pgSEC + SEC_LMS_LEFT_V.off) (BitVec.ofNat 32 (2 ^ 20 - lmsIndex s)) s0))
  let s2 := sf (4 * 0x1000000 + 0x2000) TS_STAT_SYNCED 1 (sf pgMGMT MGMT_ADDR_V (0x58 + env.smbStraps.val)
    (sf pgTRAY TRAY_IN_COOLANT_OK (b2n env.coolantOk) s1))
  let s3 := match s.stw.trip with
    | some t => sf pgTRAY TRAY_TRIP_VALID 1 (sf pgTRAY TRAY_TRIP_SENSOR t.2 (sf pgTRAY TRAY_TRIP_DIE t.1 s2))
    | none => s2
  let s4 := emit (.pin "THERM_TRIP_N" true) (if env.coolantOk then s3 else setStopped s3)
  if env.fuseBad then bootFault eUNCORRECTABLE s4 else slotStage s4

/-- PWRGD_FALL (R501, R507): the VCORE rails go off and the package is held in reset. -/
def doPwrgdFall (s : State) : State :=
  emits [.pin "PKG_READY" false, .pin "FAULT_N" true] (onStw (fun x => { x with halt := .off }) (powerDown s))

/-! ### Straps and reports (R14, R15) -/

/-- STRAP_SAMPLE (R14, R31): the third sample settles the position, and the die reports it. -/
def doStrapSample (d : DieId) (v : Fin 4) (s : State) : State :=
  let xs := s.stw.straps[d]
  if gf s (pgHTSof d) HTS_DIE_STATE ≠ 1 ∨ 3 ≤ xs.length then s else
  let ys := xs ++ [v.val]
  let p := pgTOPO d
  let s1 := onStw (fun x => { x with straps := x.straps.set d ys }) s
  if ys.length < 3 then s1 else
  let a := ys.getD 0 0
  let b := ys.getD 1 0
  let same := a == b && b == v.val
  let s2 := wr (p + TOPO_STRAP_SAMPLE0.off) (BitVec.ofNat 32 (a + 4 * b + 16 * v.val + 64 * b2n same)) s1
  if same then
    let n := v.val
    let cw := (n + 1) % 4
    let ccw := (n + 3) % 4
    let id := n + 4 * n + 16 * ccw + 64 * n + 256 * (4 * ccw) + 2 ^ 12 * cw + 2 ^ 14 * ccw + 2 ^ 16 * ((n + 2) % 4)
    let s3 := sf (pgSWof d 1) SW_STATE_PEER ccw (sf (pgSWof d 0) SW_STATE_PEER cw (wr (p + TOPO_ID_POS.off) (BitVec.ofNat 32 id) s2))
    emit (.posReport d (.stable v)) s3
  else emit (.posReport d .unstable) s2

/-- POS_REPORT (R15, R16). DESIGN CHOICE: of several faults the first reported gives the code; later reports still show in HT_POS. -/
def doPosReport (h : DieId) (r : PosReport) (s : State) : State :=
  let boots := gf s pgBOOT BOOT_STAT_STAGE == 3
  let takes := boots || gf s pgPKG PKG_STRAPS_POS_FAULT == 1
  if !takes ∨ gf s (pgHTSof h) HTS_DIE_STATE ≠ 1 ∨ s.stw.reports.any (fun x => x.1 == h.val) then s
  else
    match r with
    | .unstable => if boots then posFault ePOS_UNSTABLE s else s
    | .stable v =>
      let pos := gf s pgPKG PKG_STRAPS_HT_POS
      let s1 := orBit pgPKG PKG_STRAPS_HT_VALID h.val
        (sf pgPKG PKG_STRAPS_HT_POS (pos - pos / 4 ^ h.val % 4 * 4 ^ h.val + v.val * 4 ^ h.val) s)
      let s2 := onStw (fun x => { x with reports := (h.val, v.val) :: x.reports }) s1
      if !boots then s2
      else if v ≠ h ∨ s.stw.reports.any (fun x => x.2 == v.val) then posFault ePOS_CONFLICT s2
      else bootProgress (checkerTest h s2)

/-- DIE_REPORT_TIMEOUT (R15). -/
def doDieReportTimeout (d : DieId) (s : State) : State :=
  if gf s pgBOOT BOOT_STAT_STAGE = 3 ∧ gf s (pgHTSof d) HTS_DIE_STATE = 1 ∧ !s.stw.reports.any (fun x => x.1 == d.val) then
    bootProgress (markAbsent d s)
  else s

/-- VR_ANSWER_TIMEOUT (R500): the die stays unpowered and is marked absent. -/
def doVrAnswerTimeout (d : DieId) (s : State) : State :=
  if gf s pgBOOT BOOT_STAT_STAGE = 3 ∧ gf s (pgHTSof d) HTS_DIE_STATE = 1 then
    bootProgress (markAbsent d (sf (pgPWR d) PWR_VCORE_SET 0 s))
  else s

/-- FILL_DONE (R380): the fill of a booting die ends, and its stairway sides train. -/
def doFillDone (d : DieId) (s : State) : State :=
  if gf s (pgHTSof d) HTS_DIE_STATE ≠ 1 ∨ gf s (pgINTEG d) INTEG_STAT_FILL_DONE = 1 then s
  else
    let train (e : SideId) (s : State) : State :=
      if swState s d e = 0 ∧ gf s (pgHTSof (across d e)) HTS_DIE_STATE ≠ 0 then swTrain d e 0 s else s
    bootProgress (train 1 (train 0 (sf (pgINTEG d) INTEG_STAT_FILL_DONE 1 s)))

/-- A training that fails before the side has ever reached ACTIVE is a boot fault of the die (R441, R459). -/
def edgeFault (d : DieId) (e : SideId) (s : State) : State :=
  if swState s d e = 6 ∧ gf s (pgSWof d e) SW_LAT_V = 0 ∧ (gf s (pgHTSof d) HTS_DIE_STATE = 1 ∨ gf s (pgHTSof d) HTS_DIE_STATE = 2) then
    orBit pgBOOT BOOT_DIES_EDGE d.val s
  else s

/-! ### Host reset and reboot (R416, R458) -/

/-- Whether a register of the HOST or a QUEUE page keeps its value across R416: HOST_B2MAP, and of a feed queue Q_CFG, Q_BASE and the
four counts. Q_CTRL of a feed queue keeps EN, which is handled apart. -/
def hostKeeps (a : Nat) : Bool :=
  if pgHOST ≤ a ∧ a < pgHOST + 0x1000 then decide (0x110 ≤ a - pgHOST) && decide (a - pgHOST < 0x120)
  else if pgQ 8 ≤ a ∧ a < pgQ 16 then
    let o := a % 0x1000
    o == 0x100 || o == 0x104 || o == 0x108 || o == 0x10C || (decide (0x120 ≤ o) && decide (o < 0x140))
  else false

/-- A register of the HOST page or of a QUEUE page. -/
def inHostPages (a : Nat) : Bool :=
  (decide (pgHOST ≤ a) && decide (a < pgHOST + 0x1000)) || (decide (pgQ 0 ≤ a) && decide (a < pgQ 32))

/-- The reset of the HOST and QUEUE pages (R416). -/
def hostReset (s : State) : State :=
  let gone (k : Nat) : Bool := inHostPages (k % 2 ^ 28)
  let s1 : State := { s with
    regs := skeep (fun a => !inHostPages a || hostKeeps a) s.regs
    sel := skeep (fun k => !gone k) s.sel, hiLatch := skeep (fun k => !gone k) s.hiLatch
    loShadow := skeep (fun k => !gone k) s.loShadow
    queues := s.queues.mapIdx fun i q => if 8 ≤ i ∧ i < 16 then { q with irqSent := false } else ⟨0, false⟩ }
  let s2 := forEach (fun q s => wr (pgQ q + Q_CTRL_EN.off) (BitVec.ofNat 32 (gf s (pgQ q) Q_CTRL_EN)) s) [8, 9, 10, 11, 12, 13, 14, 15] s1
  onStw (fun x => { x with cmd := none, tlist := [] }) s2

/-- PERST (R416). -/
def doPerst (s : State) : State := raise pgHOST 2 (tallyAdd pgHOST 6 1 (hostReset s))

/-- BOOT_CTRL.REBOOT (R458): no die is powered until a slot is accepted (R447). The seal's check comes before (R40). In FAULT boot is
halted, and the write has no effect. -/
def rebootAction (s : State) : State × Nat :=
  if (liveDies s).any fun d => gf s (pgTICK d) TICK_CTRL_EN == 1 then (s, eBAD_VALUE)
  else if gf s pgBOOT BOOT_STAT_STAGE = 6 then (s, eOK)
  else
    let s1 := sf pgPKG PKG_RELEASE_RELEASED 0 (forEach (fun d s => resetDie d false (sf (pgHTSof d) HTS_DIE_STATE 0 s)) allDies s)
    (slotStage (hostReset s1), eOK)

/-! ### Slot commands (R452) -/

/-- A control-store load from the slot is in progress (R491). -/
def csLoads (s : State) (k : Nat) : Bool := match s.stw.csJob with | some j => j.2 == k | none => false

/-- A CFG command (R452): WRITE 1, VERIFY 2, ERASE 3. WRITE and ERASE erase the slot header first. -/
def cfgCommand (op k : Nat) (s : State) : State × Nat :=
  let booted := gf s pgBOOT BOOT_STAT_STAGE != 5 && gf s pgBOOT BOOT_STAT_SLOT == k
  let len := gf s pgCFG CFG_LEN_V
  if gf s pgCFG CFG_STAT_BUSY = 1 then (s, eBAD_VALUE)
  else if op ≠ 2 && (booted || csLoads s k) then (s, eBAD_VALUE)
  else if op = 1 && (decide (len < 8192) || decide (15728640 < len)) then (s, eBAD_VALUE)
  else
    let s1 := if op = 2 then s else flashErase (slotBase k) 0x2000 s
    let s2 := onStw (fun x => { x with cfgJob := some ⟨op, k, rd64 s (pgCFG + CFG_SRC_LO_V.off), len⟩ }) s1
    (sf pgCFG CFG_STAT_BUSY 1 s2, eOK)

/-- CFG_DONE (R452): the command in course ends. An erased slot is no longer valid. -/
def doCfgDone (s : State) : State :=
  match s.stw.cfgJob with
  | none => s
  | some j =>
    let b := slotBase j.slot
    let s1 :=
      if j.op = 1 then flashWrite b (hostPeek s j.src j.len) (flashErase b 0xF00000 s)
      else if j.op = 3 then flashErase b 0xF00000 s else s
    let code := if j.op = 3 then eOK else (slotCheck s1 j.slot).1
    let s2 :=
      if j.op = 3 then
        wr (pgCFG + (if j.slot = 0 then CFG_SEQ_A_V.off else CFG_SEQ_B_V.off)) 0xFFFFFFFF
          (sf pgCFG (if j.slot = 0 then CFG_STAT_VALID_A else CFG_STAT_VALID_B) 0 s1)
      else noteCheck j.slot code s1
    let s3 := if code = 0 then s2 else blockErr pgCFG code s2
    raise pgCFG 0 (tallyAdd pgCFG 0 1 (sf pgCFG CFG_STAT_CODE code (sf pgCFG CFG_STAT_BUSY 0
      (onStw (fun x => { x with cfgJob := none }) s3))))

/-! ### Attestation and the floor (R451, R454 to R456) -/

/-- The body of an attestation report that uses HSS index `q` (R454). -/
def attBody (s : State) (q : Nat) : List Byte :=
  fixLen 256 (leBytes 4 0x54415359 ++ leBytes 8 s.stw.deviceId ++
    ((List.range 8).flatMap fun n => leBytes 4 (rd s (pgSEC + SEC_NONCE_V.off + 4 * n)).toNat) ++
    leBytes 8 (timeStamp s 4) ++ leBytes 1 (gf s pgBOOT BOOT_STAT_SLOT) ++ leBytes 1 (gf s pgSEC SEC_SVN_SVN) ++
    leBytes 1 s.stw.floor ++ leBytes 1 (gf s pgBOOT BOOT_STAT_SEALED + 2 * gf s pgBOOT BOOT_STAT_WIRE_TEST) ++
    leBytes 4 (rd s (pgBOOT + BOOT_SEQ_V.off)).toNat ++ leBytes 4 (rd s (pgPKG + PKG_RELEASE_RELEASED.off)).toNat ++
    fixLen 48 s.stw.fwHash ++ fixLen 48 s.stw.cfgHash ++ leBytes 48 Config.fuseHash ++ leBytes 4 q)

/-- The state area takes the next index: the record that holds the lower index is overwritten (R455). -/
def lmsWrite (n : Nat) (x : Steward) : Steward :=
  if x.lmsA.getD 0 ≤ x.lmsB.getD 0 then { x with lmsA := some n } else { x with lmsB := some n }

/-- SEC_ATT_CTRL.GO (R454 to R456). -/
def attGoAction (s : State) : State × Nat :=
  let q := lmsIndex s
  if gf s pgSEC SEC_ATT_CTRL_BUSY = 1 then (s, eBAD_VALUE)
  else if 2 ^ 20 ≤ q then
    (blockErr pgSEC eLMS_EXHAUSTED (raise pgSEC 0 (tallyAdd pgSEC 1 1 (sf pgSEC SEC_ATT_CTRL_CODE eLMS_EXHAUSTED s))), eOK)
  else
    let s1 := onStw (fun x => { lmsWrite (q + 1) x with att := some (attBody s q) }) s
    let left := 2 ^ 20 - (q + 1)
    let s2 := wr (pgSEC + SEC_LMS_LEFT_V.off) (BitVec.ofNat 32 left) (sf pgSEC SEC_ATT_CTRL_BUSY 1 s1)
    (if left = gf s pgSEC SEC_LMS_LOW_V then raise pgSEC 1 s2 else s2, eOK)

/-- ATT_DONE (R454): the report goes to host memory, with both signatures and 12 zero bytes. -/
def doAttDone (s : State) : State :=
  match s.stw.att with
  | none => s
  | some body =>
    let q := leNat ((body.drop 208).take 4)
    let (n, s0) := drawFresh s
    let rep := fixLen 5440 (body ++ leBytes 96 (Config.ecdsaSig n body) ++ leBytes 5076 (Config.hssSig q body))
    let s1 := hostPoke (rd64 s (pgSEC + SEC_ATT_ADDR_LO_V.off)) rep (onStw (fun x => { x with att := none }) s0)
    raise pgSEC 0 (tallyAdd pgSEC 0 1 (sf pgSEC SEC_ATT_CTRL_CODE eOK (sf pgSEC SEC_ATT_CTRL_BUSY 0 s1)))

/-- SEC_FLOOR_REQ (R451). -/
def floorAction (v : Nat) (s : State) : State × Nat :=
  if v ≤ s.stw.floor ∨ gf s pgSEC SEC_SVN_SVN < v then (s, eBAD_VALUE)
  else (sf pgSEC SEC_SVN_FLOOR v (tallyAdd pgSEC 2 (v - s.stw.floor) (onStw (fun x => { x with floor := v }) s)), eOK)

/-! ### Meanings of the commands -/

/-- POWER_ON_RESET (R440). -/
def execPowerOnReset (env : BootEnv) (s : State) : Host.Outcome State Fault Refusal :=
  .next (doPowerOnReset env s)
/-- STRAP_SAMPLE (R14). -/
def execStrapSample (d : DieId) (v : Fin 4) (s : State) : Host.Outcome State Fault Refusal :=
  .next (dieStep d (doStrapSample d v) s)
/-- POS_REPORT (R15). -/
def execPosReport (h : DieId) (r : PosReport) (s : State) : Host.Outcome State Fault Refusal :=
  .next (onPower (doPosReport h r) s)
/-- DIE_REPORT_TIMEOUT (R15). -/
def execDieReportTimeout (d : DieId) (s : State) : Host.Outcome State Fault Refusal :=
  .next (onPower (doDieReportTimeout d) s)
/-- VR_ANSWER_TIMEOUT (R500). -/
def execVrAnswerTimeout (d : DieId) (s : State) : Host.Outcome State Fault Refusal :=
  .next (onPower (doVrAnswerTimeout d) s)
/-- FILL_DONE (R380). -/
def execFillDone (d : DieId) (s : State) : Host.Outcome State Fault Refusal :=
  .next (dieStep d (doFillDone d) s)
/-- PWRGD_FALL (R501). -/
def execPwrgdFall (s : State) : Host.Outcome State Fault Refusal :=
  .next (doPwrgdFall s)
/-- PERST (R416). -/
def execPerst (s : State) : Host.Outcome State Fault Refusal :=
  .next (onPower doPerst s)
/-- CFG_DONE (R452). -/
def execCfgDone (s : State) : Host.Outcome State Fault Refusal :=
  .next (onPower doCfgDone s)
/-- ATT_DONE (R454). -/
def execAttDone (s : State) : Host.Outcome State Fault Refusal :=
  .next (onPower doAttDone s)

end Sys2Proof.Machine
end

