-- ==== Sys2Proof/Machine/Power.lean ====
section
/-!
DEFINITION. Power.lean: idle states (R462 to R466), the power cap, sensors and core voltages (R467 to R470), droop and brake (R471, R472),
the coolant stop (R473 to R475), the thermal trip (R476), and scan state (R493, R494).
-/
namespace Sys2Proof.Machine

/-! ### Idle states -/

/-- Exit latency of a state in microseconds (R462). -/
def exitUs (st : Nat) : Nat :=
  match st with
  | 0 => 0
  | 1 => 1
  | 2 => 50
  | 3 => 2000
  | _ => 40000

/-- The deepest state within a tolerance (R463). -/
def idleTarget (tol : Nat) : Nat :=
  if 40000 ≤ tol then 4 else if 2000 ≤ tol then 3 else if 50 ≤ tol then 2 else if 1 ≤ tol then 1 else 0

/-- Nothing the X4 itself knows of keeps the package busy (R463, R489). -/
def isIdle (s : State) : Bool :=
  gf s pgBOOT BOOT_STAT_STAGE == 4 &&
  (liveDies s).all (fun d => gf s (pgTICK d) TICK_CTRL_EN == 0 && gf s (pgSVC d) SVC_STAT_BUSY == 0) &&
  s.stw.cmd.isNone && qProd s 0 == qRd s 0 && s.stw.cfgJob.isNone && s.stw.att.isNone && s.stw.csJob.isNone &&
  gf s pgSSVC RMA_STAT_BUSY == 0

/-- PSTATE on the PCAP page and on every live die. -/
def setPState (st : Nat) (s : State) : State :=
  forEach (fun d s => sf (pgPWR d) PWR_STATE_PSTATE st s) (liveDies s) (sf pgPCAP PCAP_STATE_PSTATE st s)

/-- The stacks of the live dies enter self-refresh, or leave it (R234, R235). -/
def stackMode (rest : Bool) (s : State) : State :=
  forEach (fun d s => forEach (if rest then stackRest d else stackTrain d) [0, 1, 2] s) (liveDies s) s

/-- What entering a state turns off on a die (R462, R465). -/
def idleLoses (st : Nat) (d : DieId) (s : State) : State :=
  if st < 2 then s else
  let s1 := onDie d (fun x => { x with acc := [], prog := [], vx := Vector.replicate 2 Vx.reset }) s
  if st < 4 then s1 else
  let s2 := onDie d (fun x => { x with shelf := [], loft := [], plru := [] }) s1
  forEach (fun k s => stopPort (diePort d k) s) (List.finRange 4) s2

/-- IDLE_ENTRY (R463): an idle package moves to the deepest state within the tolerance. -/
def doIdleEntry (s : State) : State :=
  let st := idleTarget (gf s pgPCAP PCAP_LTR_V)
  if !isIdle s || pState s != 0 || st == 0 then s
  else
    let s1 := forEach (idleLoses st) (liveDies s) s
    let s2 := if 3 ≤ st then stackMode true s1 else s1
    tallyAdd pgPCAP (3 + st) 1 (setPState st s2)

/-- The program stores of a die's vector engines from the active slot's image (R105, R465, R483). -/
def reloadProg (d : DieId) (s : State) : State :=
  match activeImg s d with
  | some i => loadProg d i s
  | none => onDie d (fun x => { x with prog := [] }) s

/-- What leaving a state restores on a die, in order (R465). -/
def idleRestores (st : Nat) (d : DieId) (s : State) : State :=
  let s1 := if 4 ≤ st then
      fillDie d false (sf (pgTIME d) TS_STAT_SYNCED 1
        (sf (pgPWR d) PWR_VCORE_SET (pointVolts s d (pointOf (gf s (pgPWR d) PWR_STATE_HOT))) s)) else s
  let s2 := if 2 ≤ st then reloadProg d (onDie d (fun x => { x with acc := [] }) s1) else s1
  if 4 ≤ st then forEach (fun k s => startPort (diePort d k) s) (List.finRange 4) s2 else s2

/-- The package returns to P0 (R465); while it is stopped, it does not leave P3 or P4 (R474). -/
def wakeNow (s : State) : State :=
  let st := pState s
  if st = 0 ∨ (stopped s ∧ 3 ≤ st) ∨ s.stw.halt ≠ .none then s
  else
    let s1 := if 3 ≤ st then stackMode false s else s
    setPState 0 (forEach (idleRestores st) (liveDies s1) (onStw (fun x => { x with waking := false }) s1))

/-- WAKE (R464): the exit of the idle state starts. A package that is stopped does not leave P3 or P4
(R474). -/
def doWake (s : State) : State := if pState s = 0 ∨ (stopped s ∧ 3 ≤ pState s) then s else onStw (fun x => { x with waking := true }) s

/-- IDLE_EXIT_DONE (R465): the exit ends. -/
def doIdleExitDone (s : State) : State := if s.stw.waking then wakeNow s else s

/-! ### The cap (R467, R468) -/

/-- POWER_SAMPLE (R467). -/
def doPowerSample (watts : Nat) (s : State) : State := onStw (fun x => { x with psum := x.psum + watts, pcnt := x.pcnt + 1 }) s

/-- Every array of every live die takes the cap rate (R468). -/
def capArrays (r : Nat) (s : State) : State :=
  let one (d : DieId) (m : Nat) (s : State) : State :=
    let p := pgMXof d m
    sf p MX_RATE_NOW (min (gf s p MX_RATE_RAMP) r) (sf p MX_RATE_CAP r s)
  forEach (fun d s => forEach (one d) (List.range 7) s) (liveDies s) s

/-- What a control interval finds. -/
structure CapStep where
  overP : Bool
  overT : Bool
  r : Nat
  deriving DecidableEq, Repr

/-- The cap rate of R468 from the interval's samples (their sum and number), the target, the hysteresis, the temperatures and their
limits, and the rate before. -/
def capStep (sum cnt target hyst t tl ts sl r : Nat) : CapStep :=
  let overP := decide (target * cnt < sum)
  let overT := decide (tl ≤ t) || decide (sl ≤ ts)
  let r1 :=
    if overP then r - max 1 (min 8 (64 * (sum - target * cnt) / sum))
    else if overT then r - 1
    else if sum < (target - hyst) * cnt ∧ t + 2 < tl ∧ ts + 2 < sl then r + 1
    else r
  ⟨overP, overT, min (max r1 1) 64⟩

/-- Hottest die and stack of the package (R468, R469). -/
def hotDie (s : State) : Nat := ((liveDies s).map fun d => gf s (pgPWR d) PWR_STATE_HOT).foldl max 0
/-- R468. -/ def hotStack (s : State) : Nat :=
  ((liveDies s).flatMap fun d => [0, 1, 2].map fun c => gf s (pgSCof d c) SC_STAT_TEMP).foldl max 0

/-- CAP_INTERVAL (R468, R479, R481). An interval without a sample has no mean and changes nothing. -/
def doCapInterval (s : State) : State :=
  let x := s.stw
  if x.pcnt = 0 then s else
  let p := pgPCAP
  let target := if gf s p PCAP_STATE_BRAKED = 1 then 1200 else gf s p PCAP_CAP_V
  let tl := gf s p PCAP_THERM_THERM_LIMIT
  let r := gf s p PCAP_STATE_RATE
  let c := capStep x.psum x.pcnt target (gf s p PCAP_CTL_HYST_W) (hotDie s) tl (hotStack s) (gf s p PCAP_THERM_STACK_LIMIT) r
  let unmet := c.r == 1 && c.overP
  let s1 := tallyAdd p 0 1 (wr (p + PCAP_POWER_V.off) (BitVec.ofNat 32 (min 65535 (x.psum / x.pcnt)))
    (onStw (fun x => { x with psum := 0, pcnt := 0 }) s))
  let s2 := if c.r < r then tallyAdd p (if c.overP then 1 else 2) 1 s1 else s1
  let s3 := if unmet then raise p 0 (tallyAdd p 3 1 s2) else s2
  let s4 := if c.overT then raise p 1 s3 else s3
  let s5 := forEach (fun d s => if tl ≤ gf s (pgPWR d) PWR_STATE_HOT then tallyAdd (pgPWR d) 2 1 s else s) (liveDies s4) s4
  let limit := if r < c.r then 3 else if c.r < r then (if c.overP then 1 else 2) else 0
  capArrays c.r (sf p PCAP_STATE_LIMIT limit (sf p PCAP_STATE_RATE c.r s5))

/-! ### Sensors, voltages, droop (R469 to R471) -/

/-- A compensated reading in 1/16 degree: raw, factory offset and user offset (R469). -/
def compensated (s : State) (d : DieId) (n : Nat) : Int := sget zi s.stw.raws (16 * d.val + n) + calInForce s 1 (16 * d.val + n)

/-- SENSOR_READ (R469, R479): 16 raw readings of the die, and the temperatures of its stacks. -/
def doSensorRead (d : DieId) (raws : List Int) (temps : List Nat) (s : State) : State :=
  if !dieLive s d || raws.length != 16 then s else
  let s1 := onStw (fun x => { x with raws := ssetList zi x.raws (16 * d.val) raws }) s
  let top := ((List.range 16).map (compensated s1 d)).foldl max (compensated s1 d 0)
  let hot := min 255 (top / 16).toNat
  let was := gf s (pgPWR d) PWR_STATE_HOT
  let lim := gf s pgPCAP PCAP_THERM_THERM_LIMIT
  let s2 := forEach (fun c s => sf (pgSCof d c) SC_STAT_TEMP (min 255 (temps.getD c 0)) s) [0, 1, 2] s1
  let s3 := sf (pgPWR d) PWR_STATE_HOT hot s2
  if was < lim ∧ lim ≤ hot then raise (pgPWR d) 1 s3 else s3

/-- The setpoint moves towards a target by at most 5 mV (R470). -/
def voltStep (now target : Nat) : Nat := if now < target then min target (now + 5) else max target (now - 5)

/-- A die's point is selected again, and its rail steps towards it (R470); the sense reads a free value (R478). -/
def selectPoint (d : DieId) (s : State) : State :=
  let p := pgPWR d
  let i := pointOf (gf s p PWR_STATE_HOT)
  let (n, s1) := drawFresh s
  sf p PWR_VCORE_SET (voltStep (gf s p PWR_VCORE_SET) (pointVolts s d i)) (sf p PWR_VCORE_SENSE (Config.vcoreSense n d.val)
    (sf p PWR_STATE_VF_POINT i s1))

/-- VF_POINT_SELECT (R470). -/
def doVfPointSelect (s : State) : State := forEach selectPoint (liveDies s) s

/-- DROOP (R471, R479): a detector crosses below its threshold. -/
def doDroop (d : DieId) (det : Fin 8) (s : State) : State :=
  let p := pgPWR d
  if !dieLive s d then s
  else raise p 0 (tallyAdd p 0 1 (sf p PWR_DROOP_STAT_VALID 1 (sf p PWR_DROOP_STAT_LAST det.val (orBit p PWR_DROOP_STAT_ACTIVE det.val s))))

/-- DROOP_HOLD_EXPIRY (R471): every detector has recovered for HOLD_NS, and the stretch ends. -/
def doDroopHoldExpiry (d : DieId) (s : State) : State := if dieLive s d then sf (pgPWR d) PWR_DROOP_STAT_ACTIVE 0 s else s

/-! ### The brake (R472) -/

/-- BRAKE (R472). -/
def doBrake (s : State) : State :=
  if gf s pgPCAP PCAP_STATE_BRAKED = 1 then s
  else
    let r := min (gf s pgPCAP PCAP_STATE_RATE) (gf s pgPCAP PCAP_CTL_BRAKE_RATE)
    let s1 := raise pgTRAY 2 (tallyAdd pgTRAY 2 1 (sf pgTRAY TRAY_IN_BRAKE 1 s))
    capArrays r (sf pgPCAP PCAP_STATE_RATE r (sf pgPCAP PCAP_STATE_BRAKED 1 s1))

/-- BRAKE_RELEASE (R472): the target returns to PCAP_CAP. -/
def doBrakeRelease (s : State) : State := sf pgTRAY TRAY_IN_BRAKE 0 (sf pgPCAP PCAP_STATE_BRAKED 0 s)

/-! ### The coolant stop (R473 to R475) -/

/-- The end of a service request with a code (R488): BUSY clears, the result is kept, and SVC_FAIL follows a failure. -/
def svcEnd (d : DieId) (code : Nat) (s : State) : State :=
  let p := pgSVC d
  let s1 := sf p SVC_STAT_BUSY 0 (sf p SVC_RESULT_VALID 1 (sf p SVC_RESULT_CODE code s))
  raise p 0 (if code = 0 then s1 else raise p 1 s1)

/-- Executing tasks of the frame are cut, the rest never issue, and the frame fails with COOLANT_STOP (R473). -/
def coolantCut (d : DieId) (s : State) : State :=
  let cut (s : State) : State :=
    match activeImg s d with
    | none => s
    | some i =>
      let ts := (s.dies[d].disp.tstat.filter fun e => e.2 == .executing || e.2 == .draining).map (·.1)
      forEach (fun t s => cutTask d i t (vxRelease d t s)) ts s
  failCause d eCOOLANT_STOP (cut s)

/-- COOLANT_STOP (R473, R477, R489): COOLANT_OK has been low for 1 µs. -/
def doCoolantStop (s : State) : State :=
  let s0 := onStw (fun x => { x with waking := false }) (sf pgTRAY TRAY_STOP_OK_STABLE 0 (sf pgTRAY TRAY_IN_COOLANT_OK 0 s))
  if stopped s0 then s0 else
  let live := liveDies s0
  let s1 := forEach coolantCut live s0
  let s2 := forEach (fun d s => if gf s (pgSVC d) SVC_STAT_BUSY = 1 then svcEnd d eCOOLANT_STOP s else s) live s1
  forEach doDieDoneState live (stackMode true (setStopped s2))

/-- COOLANT_OK_PULSE (R473). -/
def doCoolantOkPulse (s : State) : State := tallyAdd pgTRAY 3 1 s

/-- COOLANT_OK_STABLE (R475). -/
def doCoolantOkStable (s : State) : State :=
  let was := gf s pgTRAY TRAY_STOP_OK_STABLE
  let s1 := sf pgTRAY TRAY_STOP_OK_STABLE 1 (sf pgTRAY TRAY_IN_COOLANT_OK 1 s)
  if stopped s ∧ was = 0 then raise pgTRAY 1 s1 else s1

/-- TRAY_CTRL.RESTART (R475): the cellars leave self-refresh and STOPPED clears. -/
def restartAction (s : State) : State × Nat :=
  if !stopped s || gf s pgTRAY TRAY_STOP_OK_STABLE == 0 then (s, eBAD_VALUE)
  else
    let s1 := if 3 ≤ pState s then s else stackMode false s
    let s2 := forEach (fun d s => sf (pgPWR d) PWR_STATE_STOPPED 0 s) allDies s1
    (tallyAdd pgTRAY 1 1 (sf pgTRAY TRAY_STOP_STOPPED 0 s2), eOK)

/-! ### Thermal trip and scan state (R476, R493, R494, R503) -/

/-- THERM_TRIP (R476): the comparators stop every compute die; the record waits to be written. -/
def doThermTrip (d : DieId) (sensor : Fin 16) (s : State) : State :=
  if s.stw.halt ≠ .none then s
  else emit (.pin "THERM_TRIP_N" false) (onStw (fun x => { x with halt := .trip, tripPend := some (d.val, sensor.val) }) s)

/-- TRIP_LOG_WRITE (R503): the steward's supply has held for 5 ms. -/
def doTripLogWrite (s : State) : State :=
  match s.stw.tripPend with
  | some t => onStw (fun x => { x with trip := some t, tripPend := none }) s
  | none => s

/-- A TAP instruction is updated (R493). -/
def setTap (tap : Fin 5) (i : TapInstr) (s : State) : State := onStw (fun x => { x with taps := x.taps.set tap i }) s

/-- Scan state (R494): as after a trip, with THERM_TRIP_N left high and no record. -/
def enterScan (s : State) : State := if s.stw.halt = .none then onStw (fun x => { x with halt := .scan }) s else s

/-- EXTEST, CLAMP and HIGHZ (R494). -/
def doScan (tap : Fin 5) (i : TapInstr) (s : State) : State := enterScan (setTap tap i s)

/-- The identification register of a TAP: version, part number, maker, and bit 0 at 1 (R493). -/
def idcodeOf (tap : Fin 5) : Nat :=
  Config.idVersion % 16 * 2 ^ 28 + (if tap = 0 then 0x5E01 else 0x5E04) * 2 ^ 12 + Config.idMaker % 2 ^ 11 * 2 + 1

/-- Bits of a number, least significant first. -/
def lowBits (n w : Nat) : List Bool := (List.range w).map (bit n)

/-- IDCODE (R493): the TAP shifts out its identification register. -/
def doIdcode (tap : Fin 5) (s : State) : State := emit (.tdo tap (lowBits (idcodeOf tap) 32)) (setTap tap .idcode s)

/-- BYPASS, or a code that names no other instruction (R493): the bypass register captures 0. A code of another instruction is no
BYPASS. -/
def doBypass (tap : Fin 5) (code : Nat) (s : State) : State :=
  if code < 256 ∧ !(([0x00, 0x01, 0x02, 0x04, 0x05] : List Nat).contains code) then emit (.tdo tap [false]) (setTap tap .bypass s) else s

/-- SAMPLE/PRELOAD (R493): the boundary register's capture is shifted out, and the data shifted in is preloaded. -/
def doSamplePreload (tap : Fin 5) (data : List Bool) (s : State) : State :=
  let (n, s1) := drawFresh s
  emit (.tdo tap (Config.boundary n tap.val)) (onStw (fun x => { x with bnd := x.bnd.set tap data }) (setTap tap .samplePreload s1))

/-! ### Meanings of the commands -/

/-- THERM_TRIP (R476). -/
def execThermTrip (d : DieId) (sensor : Fin 16) (s : State) : Host.Outcome State Fault Refusal :=
  .next (doThermTrip d sensor s)
/-- TRIP_LOG_WRITE (R503). -/
def execTripLogWrite (s : State) : Host.Outcome State Fault Refusal :=
  .next (doTripLogWrite s)
/-- COOLANT_STOP (R473). -/
def execCoolantStop (s : State) : Host.Outcome State Fault Refusal :=
  .next (onPower doCoolantStop s)
/-- COOLANT_OK_STABLE (R475). -/
def execCoolantOkStable (s : State) : Host.Outcome State Fault Refusal :=
  .next (onPower doCoolantOkStable s)
/-- BRAKE (R472). -/
def execBrake (s : State) : Host.Outcome State Fault Refusal :=
  .next (onPower doBrake s)
/-- BRAKE_RELEASE (R472). -/
def execBrakeRelease (s : State) : Host.Outcome State Fault Refusal :=
  .next (onPower doBrakeRelease s)
/-- DROOP (R471). -/
def execDroop (d : DieId) (det : Fin 8) (s : State) : Host.Outcome State Fault Refusal :=
  .next (dieStep d (doDroop d det) s)
/-- DROOP_HOLD_EXPIRY (R471). -/
def execDroopHoldExpiry (d : DieId) (s : State) : Host.Outcome State Fault Refusal :=
  .next (dieStep d (doDroopHoldExpiry d) s)
/-- POWER_SAMPLE (R467). -/
def execPowerSample (watts : Nat) (s : State) : Host.Outcome State Fault Refusal :=
  .next (onPower (doPowerSample watts) s)
/-- CAP_INTERVAL (R468). -/
def execCapInterval (s : State) : Host.Outcome State Fault Refusal :=
  .next (onPower doCapInterval s)
/-- SENSOR_READ (R469). -/
def execSensorRead (d : DieId) (raws : List Int) (temps : List Nat) (s : State) : Host.Outcome State Fault Refusal :=
  .next (clocked (doSensorRead d raws temps) s)
/-- VF_POINT_SELECT (R470). -/
def execVfPointSelect (s : State) : Host.Outcome State Fault Refusal :=
  .next (clocked doVfPointSelect s)
/-- IDLE_ENTRY (R463). -/
def execIdleEntry (s : State) : Host.Outcome State Fault Refusal :=
  .next (clocked doIdleEntry s)
/-- WAKE (R464). -/
def execWake (s : State) : Host.Outcome State Fault Refusal :=
  .next (clocked doWake s)
/-- IDLE_EXIT_DONE (R465). -/
def execIdleExitDone (s : State) : Host.Outcome State Fault Refusal :=
  .next (clocked doIdleExitDone s)
/-- EXTEST (R494). -/
def execExtest (tap : Fin 5) (s : State) : Host.Outcome State Fault Refusal :=
  .next (doScan tap .extest s)
/-- CLAMP (R494). -/
def execClamp (tap : Fin 5) (s : State) : Host.Outcome State Fault Refusal :=
  .next (doScan tap .clamp s)
/-- HIGHZ (R494). -/
def execHighz (tap : Fin 5) (s : State) : Host.Outcome State Fault Refusal :=
  .next (doScan tap .highz s)
/-- IDCODE (R493). -/
def execIdcode (tap : Fin 5) (s : State) : Host.Outcome State Fault Refusal :=
  .next (doIdcode tap s)
/-- BYPASS (R493). -/
def execBypass (tap : Fin 5) (code : Nat) (s : State) : Host.Outcome State Fault Refusal :=
  .next (doBypass tap code s)
/-- SAMPLE_PRELOAD (R493). -/
def execSamplePreload (tap : Fin 5) (data : List Bool) (s : State) : Host.Outcome State Fault Refusal :=
  .next (doSamplePreload tap data s)
/-- COOLANT_OK_PULSE (R473). -/
def execCoolantOkPulse (s : State) : Host.Outcome State Fault Refusal :=
  .next (onPower doCoolantOkPulse s)

end Sys2Proof.Machine
end

