-- ==== Sys2Proof/Machine/Service.lean ====
section
/-!
DEFINITION. Service.lean: fencing (R483 to R485), self-test and calibration (R486 to R489), control-store loads (R490 to R492), and the
service record (R495).
-/
namespace Sys2Proof.Machine

/-- The die of a page. -/
def pageDie (p : Nat) : DieId := ⟨homeOf p % 4, Nat.mod_lt _ (by decide)⟩

/-- The die-local page number of a page. -/
def pageNumOf (p : Nat) : Nat := p % 0x1000000 / 0x1000

/-- Whether a unit accepts work: STAT.READY (R37, R166, R488). -/
def unitReady (s : State) (p : Nat) : Bool :=
  match pageAt p with
  | some (.mx, _) => gf s p MX_STATE_STATE != 4 && !s.dies[pageDie p].notReady.contains (pageNumOf p)
  | _ => !s.dies[pageDie p].notReady.contains (pageNumOf p)

/-- Whether a service request runs on the unit of a page. -/
def inService (s : State) (p : Nat) : Bool :=
  gf s (pgSVC (pageDie p)) SVC_STAT_BUSY == 1 && gf s (pgSVC (pageDie p)) SVC_STAT_PAGE_NUM == pageNumOf p

/-- The page of the other side of a stairway edge. -/
def peerSide (p : Nat) : Nat :=
  let e : SideId := if pageNumOf p = 0x48 then 0 else 1
  pgSWof (across (pageDie p) e) (1 - e)

/-! ### Fencing -/

/-- FENCED changes at once on a link port or a stairway side (R483). -/
def fenceNow (k : PageKind) (inst p : Nat) (req : Bool) (s : State) : State :=
  let d := pageDie p
  let s1 := setFenced p (b2n req) (sf p FENCE_DRAINING 0 s)
  match k with
  | .lp =>
    let q : PortId := diePort d ⟨inst % 4, Nat.mod_lt _ (by decide)⟩
    if req then stopPort q s1 else startPort q s1
  | _ =>
    let e : SideId := ⟨inst % 2, Nat.mod_lt _ (by decide)⟩
    if req then swFence d e s1 else swTrain d e 0 s1

/-- A pending change takes effect while EN is 0 (R484). -/
def fenceIdle (k : PageKind) (inst p : Nat) (s : State) : State :=
  let d := pageDie p
  if gf s (pgTICK d) TICK_CTRL_EN = 1 then s
  else match k with
    | .mx => sampleStatus d (arrayFence d inst s)
    | _ => fenceSettle p s

/-- A write of FENCE.REQ (R37, R166, R483, R488, R489). -/
def fenceAction (k : PageKind) (inst p : Nat) (req : Bool) (s : State) : State × Nat :=
  let d := pageDie p
  let isSw := k == .sw
  let st := gf s p MX_STATE_STATE
  if !k.caps.2.2 then (if req then (s, eBAD_VALUE) else (s, eOK))
  else if !req && (inService s p || (isSw && inService s (peerSide p))) then (s, eBAD_VALUE)
  else if !req && !unitReady s p then (s, eNOT_READY)
  else if b2n req = gf s p FENCE_FENCED then (sf p FENCE_DRAINING 0 (sf p FENCE_REQ (b2n req) s), eOK)
  else if k = .mx && req && (st == 0 || st == 2) && (activeSpare s d).isNone && gf s p CTRL_ALLOW_GAP == 0 then (s, eNO_SPARE)
  else
    let s1 := sf p FENCE_DRAINING 1 (sf p FENCE_REQ (b2n req) s)
    if k = .lp ∨ k = .sw then (fenceNow k inst p req s1, eOK) else (fenceIdle k inst p s1, eOK)

/-! ### Self-test and calibration -/

/-- Whether a unit supports an operation (R487): every fenceable unit a self-test, ports and stairway sides a calibration. -/
def supportsOp (k : PageKind) (op : Nat) : Bool := k.caps.2.2 && (op == 1 || (op == 2 && (k == .lp || k == .sw)))

/-- SVC_REQ (R486, R496). -/
def svcAction (d : DieId) (op num : Nat) (s : State) : State × Nat :=
  let q := pgSVC d
  let p := d.val * 0x1000000 + num * 0x1000
  if op = 0 ∨ op = 3 then (s, eBAD_VALUE)
  else if gf s q SVC_STAT_BUSY = 1 then (s, eBAD_VALUE)
  else match pageAt p with
    | none => (s, eBAD_INDEX)
    | some (k, _) =>
      if !supportsOp k op then (s, eBAD_VALUE)
      else if stopped s then (s, eCOOLANT_STOP)
      else if !fenced s p || gf s p FENCE_DRAINING == 1 || (k == .sw && !fenced s (peerSide p)) then (tallyAdd q 4 1 s, eUNIT_BUSY)
      else (sf q SVC_STAT_PAGE_NUM num (sf q SVC_STAT_OP op (sf q SVC_STAT_BUSY 1 s)), eOK)

/-- The READY status of a unit after a self-test (R488). -/
def setReady (d : DieId) (num : Nat) (ok : Bool) (s : State) : State :=
  onDie d (fun x => { x with notReady := if ok then x.notReady.filter (· != num) else if x.notReady.contains num then x.notReady else num :: x.notReady }) s

/-- The rows an array's self-test finds failing are mapped, and the array moves with the result (R166, R169, R488). -/
def arrayTested (d : DieId) (m res : Nat) (rows : List Nat) (s : State) : State × Bool :=
  let p := pgMXof d m
  let s1 := forEach (fun r s => rowRepair d m r s) rows s
  let ok := res == 0 && decide (gf s p MX_ROWS_USED + rows.length ≤ 4)
  if ok then (if gf s1 p MX_STATE_STATE = 4 then sf p MX_STATE_STATE 3 s1 else s1, true)
  else (if gf s1 p MX_STATE_STATE = 4 then s1 else arrayFails d m s1, false)

/-- What a finished test leaves in the unit of the page at `p` (R404, R488): whether the unit is ready after it, and SVC_DETAIL. The registers of
a vector engine go to their start-up state, which the unfencing restores (R487). -/
def svcResult (d : DieId) (p res detail : Nat) (rows : List Nat) (s : State) : State × Bool × Nat :=
  match pageAt p with
  | some (.mx, m) => let r := arrayTested d m res rows s; (r.1, r.2, gf r.1 p MX_ROWS_USED - gf s p MX_ROWS_USED)
  | some (.sw, e) =>
    let wires (f : Nat) : List Nat := (rows.filter fun w => w / 128 == f).map (· % 128)
    (onSide d ⟨e % 2, Nat.mod_lt _ (by decide)⟩ (fun x => { x with fails := Vector.ofFn fun f => wires f.val }) s, res == 0, detail)
  | some (.lp, _) => (s, res == 0, detail)
  | some (.vx, v) => (onVx d ⟨v % 2, Nat.mod_lt _ (by decide)⟩ (fun k => { Vx.reset with serial := k.serial }) s, res == 0, 0)
  | _ => (s, res == 0, 0)

/-- The code that ends a test: a test that fails only for want of spare rows ends with a free one (R169, R488). -/
def svcCode (res : Nat) (ok : Bool) (s : State) : State × Nat :=
  if res = 0 ∧ !ok then ((drawFresh s).2, errCodes.getD (Config.testCode (drawFresh s).1).val ePARITY) else (s, res)

/-- SVC_DONE (R404, R488, R496): `rows` are an array's failing cell rows, or a side's failing wires as 128 × flight + wire. -/
def doSvcDone (d : DieId) (res detail : Nat) (rows : List Nat) (s : State) : State :=
  let q := pgSVC d
  if !dieLive s d || gf s q SVC_STAT_BUSY == 0 then s else
  let num := gf s q SVC_STAT_PAGE_NUM
  let p := d.val * 0x1000000 + num * 0x1000
  if gf s q SVC_STAT_OP = 2 then svcEnd d res (wr (q + SVC_DETAIL_V.off) (BitVec.ofNat 32 (detail % 2 ^ 16)) (tallyAdd q 3 1 s))
  else
    let r := svcResult d p res detail rows s
    let s2 := tallyAdd q 1 1 (setReady d num r.2.1 r.1)
    let s3 := if r.2.1 then s2 else tallyAdd q 2 1 s2
    let s4 := wr (q + SVC_DETAIL_V.off) (BitVec.ofNat 32 (r.2.2 % 2 ^ 16)) s3
    let c := svcCode res r.2.1 s4
    svcEnd d c.2 c.1

/-! ### Control-store loads -/

/-- CS_CMD.LOAD (R490, R491). The seal's check comes before (R40). -/
def csLoadAction (d : DieId) (k : Nat) (s : State) : State × Nat :=
  let refuse (c : Nat) : State × Nat := (tallyAdd pgSSVC 1 1 s, c)
  let st := gf s (pgHTSof d) HTS_DIE_STATE
  if gf s pgBOOT BOOT_STAT_SEALED = 1 then refuse eLOCKED
  else if gf s pgSSVC CS_STAT_BUSY = 1 ∨ gf s pgCFG CFG_STAT_BUSY = 1 then refuse eBAD_VALUE
  else if st ≠ 2 ∧ st ≠ 3 then refuse eBAD_VALUE
  else if (liveDies s).any fun h => gf s (pgTICK h) TICK_CTRL_EN == 1 then refuse eUNIT_BUSY
  else match slotFirmware s k with
    | 0 =>
      if Config.dieIface (slotBytes s k 144 48) ≠ Config.stewardIface s.stw.fwHash then refuse eCFG_VERSION
      else
        let s1 := (dieResetAction d .warm s).1
        (sf pgSSVC CS_STAT_BUSY 1 (onStw (fun x => { x with csJob := some (d.val, k) }) s1), eOK)
    | c => refuse c

/-- CS_SRC of die `d` (R491, R497): its slot, and whether that is another than the booted one. -/
def setCsSrc (d k : Nat) (s : State) : State :=
  let old := gf s pgSSVC CS_SRC_SLOT
  let oth := gf s pgSSVC CS_SRC_OTHER
  let o := b2n (k != gf s pgBOOT BOOT_STAT_SLOT)
  sf pgSSVC CS_SRC_OTHER (oth - oth / 2 ^ d % 2 * 2 ^ d + o * 2 ^ d)
    (sf pgSSVC CS_SRC_SLOT (old - old / 2 ^ d % 2 * 2 ^ d + k % 2 * 2 ^ d) s)

/-- A load ends when its die is ready to rejoin, or with DIE_LOST when the die is lost (R491). -/
def csSettle (s : State) : State :=
  match s.stw.csJob with
  | none => s
  | some (d, k) =>
    let h : DieId := ⟨d % 4, Nat.mod_lt _ (by decide)⟩
    let st := gf s (pgHTSof h) HTS_DIE_STATE
    let fin (code tl : Nat) (s : State) : State :=
      raise pgSSVC 0 (tallyAdd pgSSVC tl 1 (sf pgSSVC CS_STAT_CODE code (sf pgSSVC CS_STAT_BUSY 0
        (onStw (fun x => { x with csJob := none }) s))))
    if st = 5 then
      let s1 := fin eOK 0 (setCsSrc d k s)
      if gf s1 pgSSVC CS_SRC_OTHER = 0 then s1 else raise pgSSVC 2 s1
    else if st = 3 then blockErr pgSSVC eDIE_LOST <| fin eDIE_LOST 1 (setCsSrc d (gf s pgBOOT BOOT_STAT_SLOT) s)
    else s

/-! ### The service record -/

/-- The registers a service record holds (R495), SW_REPAIR apart. -/
def serviceAddrs : List Nat :=
  [pgSEC + 0x100, pgSEC + 0x104, pgBOOT + 0x100, pgBOOT + 0x104, pgBOOT + 0x110, pgTRAY + 0x10C] ++
  allDies.flatMap fun d =>
    [pgHTSof d + 0x114] ++
    ((List.range 7).flatMap fun m => [0x100, 0x10C, 0x110, 0x114, 0x118, 0x11C].map (pgMXof d m + ·)) ++
    [0x118, 0x11C, 0x120, 0x124, 0x128, 0x12C, 0x13C].map (pgINTEG d + ·)

/-- The service record (R495). -/
def serviceRecord (s : State) : ServiceRec :=
  let rep := allDies.flatMap fun d => ([0, 1] : List SideId).flatMap fun e => (List.range 16).map fun f => (pgSWof d e + 0x11C, swRepair s d e f)
  ⟨(serviceAddrs.map fun a => (a, rd s a)) ++ rep, s.tally⟩

/-- RMA_CMD.PREP (R495). -/
def rmaAction (s : State) : State × Nat :=
  if gf s pgBOOT BOOT_STAT_STAGE ≠ 4 ∨ (liveDies s).any (fun d => gf s (pgTICK d) TICK_CTRL_EN == 1) then (s, eUNIT_BUSY)
  else (sf pgSSVC RMA_STAT_DONE 0 (sf pgSSVC RMA_STAT_BUSY 1 s), eOK)

/-- RMA_DONE (R495). -/
def doRmaDone (s : State) : State :=
  if gf s pgSSVC RMA_STAT_BUSY = 0 then s
  else
    let s1 := onStw (fun x => { x with service := x.service ++ [serviceRecord s] }) s
    raise pgSSVC 1 (tallyAdd pgSSVC 2 1 (sf pgSSVC RMA_STAT_DONE 1 (sf pgSSVC RMA_STAT_BUSY 0 s1)))

/-! ### Meanings of the commands -/

/-- SVC_DONE (R488). -/
def execSvcDone (d : DieId) (res : Nat) (detail : Nat) (rows : List Nat) (s : State) : Host.Outcome State Fault Refusal :=
  .next (dieStep d (doSvcDone d res detail rows) s)
/-- RMA_DONE (R495). -/
def execRmaDone (s : State) : Host.Outcome State Fault Refusal :=
  .next (onPower doRmaDone s)

end Sys2Proof.Machine
end

