-- ==== Sys2Proof/Machine/RegRead.lean ====
section
/-!
DEFINITION. RegRead.lean: what a register access finds: its place (R35, R48 to R50), the checks of R40 that come before the
value, what every register reads as, the latches of 64-bit reads (R45), and the pop of a queue (R421).
-/
namespace Sys2Proof.Machine

/-! ### Places -/

/-- Where a register access lands: the page, its kind and instance, and the offset in it. -/
structure Loc where
  kind : PageKind
  inst : Nat
  page : Nat
  off : Nat
  deriving DecidableEq, Repr

/-- The place of BAR0 offset `a`, when it lies in a listed page. -/
def locate (a : Nat) : Option Loc := (pageAt a).map fun e => ⟨e.1, e.2, pageBase a, a % 0x1000⟩

/-- The home of a place: a die, or 4 for the steward. -/
def Loc.home (l : Loc) : Nat := homeOf l.page
/-- The die of a place on a die's page. -/
def Loc.die (l : Loc) : DieId := pageDie l.page
/-- The key of the register. -/
def Loc.key (l : Loc) : Nat := canon (l.page + l.off)
/-- The register's layout; a DIR page has no entry beyond its DIR_COUNT (R50). -/
def Loc.spec (l : Loc) : RegSpec :=
  if l.kind = .dir ∧ 0x200 + 4 * (pagesOf l.home).length ≤ l.off then undefinedSpec l.off else specAt l.kind l.inst l.off
/-- A place whose page is a die's. -/
def Loc.onDie (l : Loc) : Bool := decide (l.home < 4)

/-- Key of what the page holds for each requester (R36, R45, R46). -/
def reqKey (r : Req) (a : Nat) : Nat := Req.src r * 2 ^ 28 + a

/-- A selector register as a requester holds it (R36). -/
def selOf (s : State) (r : Req) (a : Nat) : W := sget z32 s.sel (reqKey r a)

/-- Sets a selector register of a requester. -/
def setSel (r : Req) (a : Nat) (v : W) (s : State) : State := { s with sel := sset z32 s.sel (reqKey r a) v }

/-- The low registers of 64-bit pairs: first offset, spacing and number (R45). -/
def pairsOf : PageKind → List (Nat × Nat × Nat)
  | .time => [(0x100, 0, 1)]
  | .tick => [(0x128, 8, 2), (0x154, 0, 1)]
  | .disp => [(0x108, 0, 1), (0x118, 0, 1), (0x140, 0, 1)]
  | .cc => [(0x200, 8, 64), (0x400, 8, 64)]
  | .watch => [(0x110, 8, 2), (0x140, 8, 8)]
  | .upd => [(0x100, 8, 2), (0x120, 0, 1)]
  | .jrnl => [(0x104, 0, 1), (0x110, 8, 3), (0x130, 0, 1), (0x140, 8, 2), (0x180, 0, 1), (0x194, 0, 1)]
  | .integ => [(0x118, 0, 1), (0x124, 0, 1), (0x130, 0, 1)]
  | .shelf => [(0x100, 0, 1), (0x128, 0, 1)]
  | .sc => [(0x108, 0, 1)]
  | .mv => [(0x10C, 0, 1)]
  | .lp => [(0x218, 0, 1)]
  | .host => [(0x120, 0, 1)]
  | .sec => [(0x100, 0, 1), (0x114, 0, 1)]
  | .cfg => [(0x108, 0, 1)]
  | .queue => [(0x108, 8, 7)]
  | _ => []

/-- Whether an offset is the low register of a pair; QUEUE16 to QUEUE31 have none (R418). -/
def isLo (k : PageKind) (inst off : Nat) : Bool :=
  !(k == .queue && decide (16 ≤ inst)) &&
    (off == 0x2C || (pairsOf k).any fun e => (RegSpec.mk e.1 e.2.1 e.2.2 0 0 0 0 0 0 0 []).covers off)

/-- The low register of a pair, and the high one. -/
def Loc.lo (l : Loc) : Bool := isLo l.kind l.inst l.off
/-- R45. -/ def Loc.hi (l : Loc) : Bool := decide (4 ≤ l.off) && isLo l.kind l.inst (l.off - 4)

/-! ### Checks before the value -/

/-- Whether a requester can act: the host and the steward while the package is not held in reset, a control core while its die
runs (R8, R501). -/
def reqActs (s : State) : Req → Bool
  | .cc d => dieLive s d && s.stw.halt == .none
  | _ => s.stw.halt != .off

/-- Pages that BAR0 and the management target reach outside READY (R442). -/
def bootPage (l : Loc) : Bool :=
  l.home == 4 && [PageKind.dir, .pkg, .time, .boot, .cfg, .sec].contains l.kind

/-- Whether R442 restricts the requester now. -/
def restricted (s : State) (r : Req) : Bool :=
  gf s pgBOOT BOOT_STAT_STAGE != 4 && (match r with | .cc _ => false | _ => true)

/-- Whether a requester may reach a home's registers (R23). -/
def mayReach (r : Req) (home : Nat) (write : Bool) : Bool :=
  match r with
  | .cc d => home == d.val || (home == 4 && !write)
  | _ => true

/-- Whether a die's pages answer: the die runs (R17, R399), and no trip or scan stops it (R476, R494). -/
def pageAnswers (s : State) (l : Loc) : Bool := !l.onDie || (dieLive s l.die && s.stw.halt == .none)

/-- The outcome of the checks 1 to 4 of R40 and of R442: the place, or the code, the page that records it and its offset. -/
def checkAccess (r : Req) (a width : Nat) (write : Bool) (s : State) : Except (Nat × Nat) Loc :=
  match locate a with
  | none => .error (eUNMAPPED, homeOf a * 0x1000000)
  | some l =>
    if restricted s r && !bootPage l then .error (eNOT_READY, pgSDIR)
    else if !pageAnswers s l then .error (eDIE_LOST, l.page)
    else if width ≠ 4 ∨ a % 4 ≠ 0 then .error (eBAD_WIDTH, l.page)
    else if !mayReach r l.home write then .error (eACCESS_DENIED, l.page)
    else .ok l

/-- An error of a register access is recorded on a page (R43); one outside all five register spaces is on none. -/
def recAccess (r : Req) (a code page : Nat) (s : State) : State :=
  if 5 ≤ homeOf a then s else recErr page code (a % 0x1000 / 4) (Req.src r) s

/-! ### Tallies as a requester selects them -/

/-- The tally TALLY_SEL names for a requester (R37). -/
def selTally (s : State) (r : Req) (p : Nat) : Tally :=
  let v := (selOf s r (p + 0x28)).toNat
  sget zt (if bit v 8 then s.snap else s.tally) (p + v % 256)

/-- TALLY_HI without CLR. -/
def tallyHi (t : Tally) : Nat := t.count.toNat / 2 ^ 32 + b2n t.sat * 2 ^ 30

/-- Whether a live tally of the page is saturated. -/
def satAny (s : State) (l : Loc) : Bool := (List.range l.kind.caps.1).any fun i => (sget zt s.tally (l.page + i)).sat

/-- STAT.READY: a die's unit after its last self-test; a steward page while the boot stage serves it (R37, R442, R488). -/
def pageReady (s : State) (l : Loc) : Bool :=
  if l.onDie then unitReady s l.page else gf s pgBOOT BOOT_STAT_STAGE == 4 || (gf s pgBOOT BOOT_STAT_STAGE == 5 && bootPage l)

/-- A header register as a requester reads it (R36, R37). -/
def headerValue (s : State) (r : Req) (l : Loc) : Nat :=
  match l.off with
  | 0x00 => pageId l.page
  | 0x04 => 0x100
  | 0x08 => l.kind.caps.1 + l.kind.caps.2.1 * 2 ^ 8 + b2n l.kind.caps.2.2 * 2 ^ 13
  | 0x10 => b2n (pageReady s l) + gf s l.page FENCE_FENCED * 2 + b2n (satAny s l) * 4 + gf s l.page LAST_ERR_VALID * 8
  | 0x28 => (selOf s r l.key).toNat
  | 0x2C => (selTally s r l.page).count.toNat % 2 ^ 32
  | 0x30 => tallyHi (selTally s r l.page)
  | _ => (rd s l.key).toNat

/-! ### Registers that show what the state holds elsewhere -/

/-- DIR_ENTRY n (R50). -/
def dirEntry (home n : Nat) : Nat :=
  match (pagesOf home)[n]? with
  | some e => e.1 + pageId (home * 0x1000000 + e.1 * 0x1000) % 4096 * 2 ^ 12 +
      pageId (home * 0x1000000 + e.1 * 0x1000) / 4096 % 64 * 2 ^ 24
  | none => 0

/-- MX_TASK (R172): the first executing task of an array's rank. PASS counts the passes before the last once the task has its bank. -/
def mxTask (s : State) (d : DieId) (i : Img) (u : Nat) : Nat :=
  match execOn s d i u with
  | [] => 0
  | t :: _ =>
    let tk := readTask s i t
    let passes := cdiv (matP tk).k (pairKt (operView s d i tk 0 false).fmt (operView s d i tk 1 false).fmt)
    t % 2 ^ 18 + 2 ^ 18 + (if bankHeld s d t then 0 else min (min (passes - 1) (passes - passesHeld s d t)) 31 * 2 ^ 19)

/-- MX_BANKS (R172) of bank `b` of rank `u`: 1 while a matrix task writes it, 2 while a vector task reads it. -/
def bankUse (s : State) (d : DieId) (i : Img) (u b : Nat) : Nat :=
  let at_ (v : Nat) := (execOn s d i v).filter fun t => !bankHeld s d t
  if (at_ u).any fun t => (matP (readTask s i t)).bank == b then 1
  else if [6, 7].any fun v => (at_ v).any fun t => let k := readTask s i t; k.opcode == 1 && bit (k.p 66 2) (2 * u + b) then 2
  else 0

/-- MX_STATE.ROLE_NOW, MX_TASK, MX_BANKS and MX_SHADOW (R172). -/
def mxValue (s : State) (d : DieId) (m off : Nat) : Nat :=
  let q := pgMXof d m
  let rank := gf s q MX_STATE_RANK
  match off with
  | 0x100 =>
    let now := match activeImg s d with
      | some i => s.dies[d].disp.frameOpen && decide (rank < 6) && bit (gf s q MX_ROLE_AFT) (frameType s i (curFrame s d))
      | none => false
    (rd s (q + 0x100)).toNat + b2n now * 2 ^ 12
  | 0x120 => match activeImg s d with | some i => if rank < 6 then mxTask s d i rank else 0 | none => 0
  | 0x124 =>
    match activeImg s d with
    | some i => if rank < 6 then bankUse s d i rank 0 + 4 * bankUse s d i rank 1 else 0
    | none => 0
  | 0x128 =>
    if activeSpare s d = some m then
      min 15 ((s.dies[d].shadow.map (·.passes)).foldl (· + ·) 0) + b2n (s.dies[d].shadow.any fun x => !x.wait.isEmpty) * 2 ^ 4 +
        b2n (takesSamples s d) * 2 ^ 5
    else 0
  | _ => (rd s (q + off)).toNat

/-- The task a unit executes, with its opcode. -/
def unitNow (s : State) (d : DieId) (u : Nat) : Option (Nat × Nat) :=
  match activeImg s d with
  | none => none
  | some i => (execOn s d i u).head?.map fun t => (t, (readTask s i t).opcode)

/-- TASK, BUSY and OP of a unit's state register (R208, R238). -/
def unitState (x : Option (Nat × Nat)) (w : Nat) : Nat :=
  match x with
  | some (t, op) => t % 2 ^ 18 + 2 ^ 18 + op % 2 ^ w * 2 ^ 19
  | none => 0

/-- VX_STATE of vector engine `x` (R206); an update task that executes has no program, and PC reads 0. -/
def vxState (s : State) (d : DieId) (x : Fin 2) : Nat :=
  let k := s.dies[d].vx[x]
  match k.task, unitNow s d (6 + x.val) with
  | some t, _ => t % 2 ^ 18 + 2 ^ 18 + k.pc % 2 ^ 13 * 2 ^ 19
  | none, some (t, op) => if op = 0x100 ∨ op = 0x101 then t % 2 ^ 18 + 2 ^ 18 else 0
  | none, none => 0

/-- SC_MAP_RES of stack `c` (R215, R216, R234). -/
def scMap (d : DieId) (c a : Nat) : Nat :=
  let o := a - cellarBase d
  let g := o / 4096
  if a < cellarBase d ∨ cellarSize ≤ o ∨ g % 96 / 32 ≠ c then 0 else
  let x := g / 96 * 4096 + o % 4096
  g % 96 % 32 + bits x 6 1 * 2 ^ 5 + bits x 7 2 * 2 ^ 6 + ((bits x 9 2) ^^^ (bits x 15 2)) * 2 ^ 8 + 2 ^ 10

/-- The words of the watch entry that WATCH_SEL names, its counts, and TOKENS (R262). -/
def watchValue (s : State) (r : Req) (d : DieId) (off : Nat) : Nat :=
  let sel := (selOf s r (pgWATCH d + 0x120)).toNat
  let e := sel % 4096
  let w := s.dies[d].watch
  let cnt (k : Nat) : Nat := sget zn (if bit sel 12 then w.acc else w.red.counts) (8 * e + k)
  if off = 0x120 then sel
  else if 0x124 ≤ off ∧ off < 0x140 then (sget zwatch w.tab (8 * e + (off - 0x124) / 4)).toNat
  else if 0x140 ≤ off ∧ off < 0x178 then cnt ((off - 0x140) / 8) / 2 ^ (if off % 8 = 0 then 0 else 32) % 2 ^ 32
  else match off with
    | 0x110 => (watchDigest s d).toNat % 2 ^ 32
    | 0x114 => (watchDigest s d).toNat / 2 ^ 32
    | 0x118 => (watchSDigest s d).toNat % 2 ^ 32
    | 0x11C => (watchSDigest s d).toNat / 2 ^ 32
    | 0x178 => w.red.tokens % 2 ^ 32
    | 0x17C => w.red.tokens / 2 ^ 32 % 2 ^ 32
    | _ => (rd s (pgWATCH d + off)).toNat

/-- Weights of the active graph (R272). -/
def activeWeights (s : State) (d : DieId) : List Nat := match activeImg s d with | some i => weightIds s i | none => []

/-- The version entry that UPD_VSEL names, and the counts of the table (R286, R287). -/
def updValue (s : State) (r : Req) (d : DieId) (off : Nat) : Nat :=
  let k := (selOf s r (pgUPD d + 0x114)).toNat % 2 ^ 16
  let e := ventry s d k
  let v := (rd s (pgUPD d + off)).toNat
  match off with
  | 0x110 => v + (activeWeights s d).length * 2 ^ 4
  | 0x114 => k
  | 0x118 => b2n e.cur + b2n e.pending * 2 + b2n ((activeWeights s d).contains k) * 4
  | 0x120 => e.version % 2 ^ 32
  | 0x124 => e.version / 2 ^ 32 % 2 ^ 32
  | 0x12C => v % 2 ^ 17 + min 32767 (((activeWeights s d).filter fun n => (ventry s d n).pending).length) * 2 ^ 17
  | _ => v

/-- A word of a member bitmap (R90, R348). -/
def memberWord (ms : List Nat) (n : Nat) : Nat :=
  (ms.filter fun m => m / 32 == n).foldl (fun v m => if bit v (m % 32) then v else v + 2 ^ (m % 32)) 0

/-- Registers of a link page that show its port or the routing banks (R317, R318). -/
def lpValue (s : State) (r : Req) (d : DieId) (k off : Nat) : Nat :=
  let q : PortId := diePort d ⟨k % 4, Nat.mod_lt _ (by decide)⟩
  let sel := (selOf s r (pgLP d + 0x20C)).toNat
  match off with
  | 0x120 => (rd s (pgLPof q + off)).toNat + min 227 s.ports[q].replay.length
  | 0x20C => sel
  | 0x210 => (sget z32 s.dies[d].rt (sel % 8192)).toNat
  | 0x218 => (rtDigest s d).toNat % 2 ^ 32
  | 0x21C => (rtDigest s d).toNat / 2 ^ 32
  | _ => (rd s (canon (pgLPof q + off))).toNat

/-- A 32-bit two's complement word. -/
def i32 (v : Int) : Nat := (BitVec.ofInt 32 v).toNat

/-- CFG_CAL of the element that CFG_CAL_SEL names (R449, R460). -/
def calValue (s : State) (off : Nat) : Nat :=
  let id := gf s pgCFG CFG_CAL_SEL_ID
  let ix := gf s pgCFG CFG_CAL_SEL_INDEX
  if calCount id ≤ ix then 0 else
  match off with
  | 0x120 => if id = 0x100 then 0 else if id = 0x101 then 3200 else i32 (Config.calFactory id ix)
  | 0x124 => i32 (Config.calMin id ix) % 2 ^ 16 + i32 (Config.calMax id ix) % 2 ^ 16 * 2 ^ 16
  | _ =>
    if id = 0x100 then s.stw.opts % 2 ^ 32
    else if id = 0x101 then (if calUser s id ix = 0 then 3200 else i32 (calUser s id ix))
    else i32 (calInForce s id ix)

/-- Q_STAT (R438). -/
def qStat (s : State) (q : Nat) : Nat :=
  gf s (pgQ q) Q_STAT_UNDERRUN + b2n (decide (qFree s q < 2)) * 2 + b2n (decide (0 < qDrops s q)) * 4 +
    min (2 ^ 29 - 1) (qDrops s q) * 8

/-- A block register as a requester reads it. -/
def blockValue (s : State) (r : Req) (l : Loc) : Nat :=
  let v := (rd s l.key).toNat
  let d := l.die
  match l.kind with
  | .dir => if 0x200 ≤ l.off ∧ l.off < 0x300 then dirEntry l.home ((l.off - 0x200) / 4)
            else if l.off = 0x100 then (pagesOf l.home).length else v
  | .time =>
    match l.off with
    | 0x100 => timeStamp s l.home % 2 ^ 32
    | 0x104 => timeStamp s l.home / 2 ^ 32
    | 0x108 => if l.home = 4 then 1 else v
    | _ => v
  | .tick =>
    match l.off with
    | 0x140 =>
      if isMaster s d then v
      else v - fld (rd s l.key) TICK_STATE_MSTATE - fld (rd s l.key) TICK_STATE_HOLD_CAUSE * 4 + b2n s.dies[d].tick.lost * 20
    | 0x154 => phaseSel s d (rd s (l.page + 0x150)).toNat % 2 ^ 32
    | 0x158 => phaseSel s d (rd s (l.page + 0x150)).toNat / 2 ^ 32 % 2 ^ 32
    | _ => v
  | .disp =>
    match l.off with
    | 0x14C => pendingTasks s d % 2 ^ 19
    | 0x154 => (dispHead s d).toNat
    | _ => v
  | .watch => watchValue s r d l.off
  | .upd => updValue s r d l.off
  | .ce =>
    if l.off = 0x168 then v % 2 ^ 16 + s.dies[d].ce.excl.length % 2 ^ 13 * 2 ^ 16
    else if 0x200 ≤ l.off ∧ l.off < 0x400 then memberWord s.dies[d].ce.excl ((l.off - 0x200) / 4) else v
  | .jrnl => if l.off = 0x158 then v % 16 + b2n (twinPortOk s d) * 2 ^ 4 else v
  | .integ =>
    match l.off with
    | 0x10C => scrubAge s d
    | 0x114 => s.dies[d].integ.next * 65536 / lapWords % 2 ^ 16
    | _ => v
  | .pwr =>
    match l.off with
    | 0x108 => (selOf s r l.key).toNat
    | 0x10C => i32 (compensated s d ((selOf s r (l.page + 0x108)).toNat % 16)) % 2 ^ 16
    | _ => v
  | .mx => mxValue s d l.inst l.off
  | .vx => if l.off = 0x100 then vxState s d (if l.inst = 0 then 0 else 1) else v
  | .re => if l.off = 0x100 then unitState (unitNow s d 8) 3 else v
  | .mv => if l.off = 0x100 then unitState (unitNow s d (16 + l.inst)) 2 else v
  | .shelf =>
    match l.off with
    | 0x118 => (shelfQ s d).1
    | 0x11C => (shelfQ s d).2 % 2 ^ 24
    | 0x128 => (shelfPeek s d).toNat % 2 ^ 32
    | 0x12C => (shelfPeek s d).toNat / 2 ^ 32
    | _ => v
  | .loft =>
    match l.off with
    | 0x108 => loftCount s d fun _ _ => true
    | 0x10C => loftCount s d fun _ x => x.stepStable
    | _ => v
  | .trunk => if l.off = 0x100 then s.dies[d].trunk.length else v
  | .sc => if l.off = 0x110 then scMap d l.inst (rd64 s (l.page + 0x108) % 2 ^ 52) else v
  | .lp => lpValue s r d l.inst l.off
  | .sw => if l.off = 0x11C then
      (swRepair s d ⟨l.inst % 2, Nat.mod_lt _ (by decide)⟩ (gf s l.page SW_REPAIR_SEL_V)).toNat else v
  | .host =>
    match l.off with
    | 0x130 => (selOf s r l.key).toNat
    | 0x134 => (sget z32 s.stw.tlist ((selOf s r (l.page + 0x130)).toNat % 256)).toNat
    | _ => v
  | .cfg => if l.off = 0x120 ∨ l.off = 0x124 ∨ l.off = 0x128 then calValue s l.off else v
  | .queue => if l.inst < 16 ∧ l.off = 0x140 then qStat s l.inst else v
  | _ => v

/-- What a register reads as for a requester (R38, R42). -/
def regValue (s : State) (r : Req) (l : Loc) : W :=
  BitVec.ofNat 32 (if l.off < 0x100 then headerValue s r l else blockValue s r l)

/-! ### Reads -/

/-- The entry a pop takes (R421): from a ring in host memory, or a slot header from the cellar of a feed queue. -/
def popEntry (q : Nat) (s : State) : State × Nat × List Byte :=
  if isFeed q then memRead .steward (feedAddr s q (qRd s q)) 16 s
  else (s, eOK, hostPeek s (rd64 s (pgQ q + Q_BASE_LO_V.off) + qRd s q % max 1 (gf s (pgQ q) Q_CFG_SIZE) * 16) 16)

/-- The pop latch of a requester takes four words. -/
def setPop (r : Req) (q : Nat) (bs : List Byte) (s : State) : State :=
  { s with hiLatch := (List.range 4).foldl (fun m i =>
      sset z32 m (reqKey r (pgQ q + 0x150 + 4 * i)) (BitVec.ofNat 32 (leNat ((bs.drop (4 * i)).take 4)))) s.hiLatch }

/-- Q_POP0 read by a requester (R421): the code, and word 0 of its latch after the pop. -/
def popRead (r : Req) (q : Nat) (s : State) : State × Nat × W :=
  if q = 0 then (s, eOK, 0) else
  let word (s : State) : W := sget z32 s.hiLatch (reqKey r (pgQ q + 0x150))
  if qRd s q < qProd s q then
    match popEntry q s with
    | (s1, 0, bs) => let s2 := setPop r q bs (setRd q (qRd s q + 1) s1); (s2, eOK, word s2)
    | (s1, c, _) => (s1, c, 0)
  else
    let s1 := raise (pgQ q) 1 (tallyAdd (pgQ q) 3 1 (sf (pgQ q) Q_STAT_UNDERRUN 1 s))
    (s1, eOK, word s1)

/-- Key of the HI latch that a page holds for a requester (R45). -/
def latchKey (r : Req) (l : Loc) : Nat := reqKey r l.page

/-- What a read of a low register does besides: a peek of a spilled row reads it from its home (R211). DEDUCED: one that cannot be read
answers with the code of the memory. -/
def readEffect (l : Loc) (s : State) : State × Nat :=
  if l.kind = .shelf ∧ l.off = 0x128 then
    match shelfHome s l.die with
    | some a => let x := memRead (.mover l.die) a 8 s; (x.1, x.2.1)
    | none => (s, eOK)
  else (s, eOK)

/-- A read that no check refuses: LO latches HI, HI reads the latch, and Q_POP0 pops (R45, R421). -/
def readAt (r : Req) (l : Loc) (s : State) : State × Nat × W :=
  if l.kind = .queue ∧ l.inst < 16 ∧ l.off = 0x150 then popRead r l.inst s
  else if l.kind = .queue ∧ l.inst < 16 ∧ 0x154 ≤ l.off ∧ l.off < 0x160 then
    (s, eOK, if l.inst = 0 then 0 else sget z32 s.hiLatch (reqKey r l.key))
  else if l.hi then (s, eOK, sget z32 s.hiLatch (latchKey r l))
  else if l.lo then
    match readEffect l s with
    | (s1, 0) =>
      let h := regValue s r { l with off := l.off + 4 }
      ({ s1 with hiLatch := sset z32 s1.hiLatch (latchKey r l) h }, eOK, regValue s r l)
    | (s1, c) => (s1, c, 0)
  else (s, eOK, regValue s r l)

/-- Whether an access by the host or the management target to a die's page finds the package idle, and wakes it (R464). -/
def wakesBy (r : Req) (a : Nat) (s : State) : Bool :=
  (match r with | .cc _ => false | _ => true) && decide (homeOf a < 4) && pState s != 0

/-- Whether a stop holds the package in P3 or P4 against an access that would wake it: the access fails with COOLANT_STOP (R474). -/
def idleHeld (r : Req) (a : Nat) (s : State) : Bool := wakesBy r a s && stopped s && decide (3 ≤ pState s)

/-- A register read (R39, R40, R43): the state after it, its code, and the value of a read that succeeds. -/
def regRead (r : Req) (a width : Nat) (s : State) : State × Nat × W :=
  let s := if wakesBy r a s then wakeNow s else s
  match checkAccess r a width false s with
  | .error (c, p) => (recAccess r a c p s, c, 0)
  | .ok l =>
    if idleHeld r a s then (recAccess r a eCOOLANT_STOP l.page s, eCOOLANT_STOP, 0) else
    match readAt r l s with
    | (s1, 0, v) => (s1, eOK, v)
    | (s1, c, _) => (recAccess r a c l.page s1, c, 0)

end Sys2Proof.Machine
end

