-- ==== Sys2Proof/Machine/RegWrite.lean ====
section
/-!
DEFINITION. RegWrite.lean: register writes: checks 5 and 6 of R40, the shadow of 64-bit writes (R46), what a write that passes does
on every page, and one entry point, `regWrite`.
-/
namespace Sys2Proof.Machine

/-! ### Fields -/

/-- The value of every RW field lies in its range, and no reserved field is written non-zero (R11, R38). -/
def formOk (sp : RegSpec) (v : W) : Bool :=
  v &&& BitVec.ofNat 32 sp.rsv == 0 && sp.ranges.all fun f => decide (f.least ≤ bits v.toNat f.lo f.width) && decide (bits v.toNat f.lo f.width ≤ f.most)

/-- A register value after a write by access type (R38): RW and RWL take the value, W1S sets, W1C clears, the rest stays. -/
def written (sp : RegSpec) (old v : W) : W :=
  ((old &&& ~~~(BitVec.ofNat 32 sp.rw)) ||| (v &&& BitVec.ofNat 32 sp.rw) ||| (v &&& BitVec.ofNat 32 sp.w1s)) &&&
    ~~~(v &&& BitVec.ofNat 32 sp.w1c)

/-- A write with no action of its own. -/
def plain (l : Loc) (v : W) (s : State) : State × Nat := (wr l.key (written l.spec (rd s l.key) v) s, eOK)

/-- Whether a register has a field that a write acts on. -/
def RegSpec.writable (sp : RegSpec) : Bool := sp.rw != 0 || sp.w1c != 0 || sp.w1s != 0 || sp.wo != 0

/-- TICK_CTRL.EN of a die. -/
def enOn (s : State) (d : DieId) : Bool := gf s (pgTICK d) TICK_CTRL_EN == 1

/-- A write that is rejected while EN is 1. -/
def gateEn (d : DieId) (f : State → State × Nat) (s : State) : State × Nat := if enOn s d then (s, eBAD_VALUE) else f s

/-- A check and a write. -/
def guardW (ok : Bool) (code : Nat) (f : State → State × Nat) (s : State) : State × Nat := if ok then f s else (s, code)

/-! ### The header (R37, R44, R47, R54) -/

/-- Clears a live tally, its SAT flag and its remainder (R54, R173). -/
def clearTally (p i : Nat) (s : State) : State :=
  { s with tally := sset zt s.tally (p + i) ⟨0, false⟩, rem := sset zn s.rem (p + i) 0 }

/-- Clears every live tally of a page (R54). -/
def clearTallies (p : Nat) (s : State) : State := forEach (clearTally p) (List.range 256) s

/-- A write of a header register. -/
def headerWrite (r : Req) (l : Loc) (v : W) (s : State) : State × Nat :=
  match l.off with
  | 0x0C => plain l v (if bit v.toNat 2 then clearTallies l.page s else s)
  | 0x14 => (if bit v.toNat 31 then wr l.key 0 s else s, eOK)
  | 0x20 => (forEach (raiseAs true l.page) ((List.range 32).filter (bit v.toNat)) s, eOK)
  | 0x24 => fenceAction l.kind l.inst l.page (bit v.toNat 0) s
  | 0x28 => if l.kind.caps.1 ≤ v.toNat % 256 then (s, eBAD_INDEX) else (setSel r l.key v s, eOK)
  | 0x30 =>
    let sel := (selOf s r (l.page + 0x28)).toNat
    (if bit v.toNat 31 && !bit sel 8 then clearTally l.page (sel % 256) s else s, eOK)
  | _ => plain l v s

/-! ### Die pages -/

/-- TICK page (R78, R79, R89, R90). EN at 0 settles the pending fences (R484). -/
def tickWrite (l : Loc) (v : W) (s : State) : State × Nat :=
  let d := l.die
  if l.off = 0x100 then
    match tickCtrlWrite d v.toNat s with
    | (s1, 0) => (if enOn s d && !enOn s1 d then fenceTick d true s1 else s1, eOK)
    | (_, c) => (s, c)
  else if 0x104 ≤ l.off ∧ l.off ≤ 0x120 then gateEn d (plain l v) s
  else if l.off = 0x150 ∧ 12 ≤ v.toNat % 16 then (s, eBAD_INDEX)
  else plain l v s

/-- DISP page (R105, R120). -/
def dispWrite (l : Loc) (v : W) (s : State) : State × Nat :=
  let n := v.toNat
  if l.off = 0x104 then slotCommand l.die (n % 8) (n / 16 % 2) s
  else if l.off = 0x150 then guardW (!(decide (11 ≤ n) && decide (n ≤ 15))) eBAD_VALUE (plain l v) s
  else plain l v s

/-- A watch word is legal for its entry (R263). -/
def watchWordOk (s : State) (d : DieId) (e k : Nat) (v : W) : Bool :=
  let n := v.toNat
  match k with
  | 0 => decide (n % 4 ≤ n / 4 % 4) && decide (n / 4 % 4 ≤ n / 16 % 4)
  | 2 | 3 | 4 => decide (n / 2 ^ 16 ≤ n % 2 ^ 16)
  | 5 => decide (watchFld s d e WATCH_DECL0_FLOOR ≤ n % 4) && decide (n % 4 ≤ watchFld s d e WATCH_DECL0_CEIL)
  | _ => true

/-- A sentinel register is legal (R263): ALPHA_SH with EN, a finite mean, a finite variance that is not negative. -/
def sentOk (off : Nat) (v : W) : Bool :=
  match off % 16 with
  | 0 => !bit v.toNat 0 || bits v.toNat 24 4 != 0
  | 8 => (x32 v).isFin
  | 12 => (x32 v).isFin && !fLt (x32 v) (.fin false 0 0)
  | _ => true

/-- WATCH page (R243, R259, R262, R263). -/
def watchWrite32 (r : Req) (l : Loc) (v : W) (s : State) : State × Nat :=
  let d := l.die
  let n := v.toNat
  let e := (selOf s r (l.page + 0x120)).toNat % 4096
  let k := (l.off - 0x124) / 4
  if l.off = 0x120 then (setSel r l.key v s, eOK)
  else if !l.spec.writable then (s, eOK)
  else gateEn d (fun s =>
    if l.off = 0x100 then let x := plain l v s; (sampleStatus d x.1, x.2)
    else if l.off = 0x10C then
      if bit n 0 && bit n 1 then (s, eBAD_VALUE)
      else if bit n 0 then (sf l.page WATCH_LADDER_VALID 1 s, eOK)
      else if bit n 1 then (sf l.page WATCH_LADDER_VALID 0 s, eOK)
      else (s, eOK)
    else if 0x124 ≤ l.off ∧ l.off < 0x140 then
      guardW (watchWordOk s d e k v) eBAD_VALUE
        (fun s => (onDie d (fun x => { x with watch := { x.watch with tab := sset zwatch x.watch.tab (8 * e + k) v } }) s, eOK)) s
    else if 0x180 ≤ l.off ∧ l.off < 0x200 then guardW (sentOk l.off v) eBAD_VALUE (plain l v) s
    else plain l v s) s

/-- The entry of the version table that a requester has selected. -/
def selWeight (s : State) (r : Req) (d : DieId) : Nat := (selOf s r (pgUPD d + 0x114)).toNat % 2 ^ 16

/-- Changes the selected entry, which must be a weight of the active graph (R287). -/
def onSelWeight (r : Req) (d : DieId) (f : VEntry → VEntry) (s : State) : State × Nat :=
  let k := selWeight s r d
  if (activeWeights s d).contains k then
    (onDie d (fun x => { x with vtab := sset zv x.vtab k (f (sget zv x.vtab k)) }) s, eOK)
  else (s, eBAD_INDEX)

/-- UPD page (R272, R286, R287). -/
def updWrite (r : Req) (l : Loc) (v : W) (s : State) : State × Nat :=
  let d := l.die
  let n := v.toNat
  if l.off = 0x114 then (setSel r l.key v s, eOK)
  else if 0x12C < l.off then (s, eOK)
  else gateEn d (fun s =>
    match l.off with
    | 0x110 =>
      match n % 8 with
      | 0 => (s, eOK)
      | 1 => (updSetValid d s, eOK)
      | 2 => (updInitTable d s, eOK)
      | 4 => (updForgetTable d s, eOK)
      | _ => (s, eBAD_VALUE)
    | 0x118 => onSelWeight r d (fun e => { e with cur := bit n 0 }) s
    | _ => plain l v s) s

/-- The valid tree children ascend (R348). -/
def childrenAscend (ms : List Nat) : Bool := (ms.zip ms.tail).all fun e => decide (e.1 < e.2)

/-- Members of the valid tree children, with register `n` taken as `v`. -/
def childList (s : State) (p n : Nat) (v : W) : List Nat :=
  ((List.range 8).map fun k => if k = n then v else rd s (p + 0x134 + 4 * k)).filterMap fun x =>
    if bit x.toNat 31 then some (x.toNat % 4096) else none

/-- CE page (R337, R344, R347, R348). DEDUCED: ARM acts before DISARM. -/
def ceWrite (l : Loc) (v : W) (s : State) : State × Nat :=
  let d := l.die
  let n := v.toNat
  if 0x100 ≤ l.off ∧ l.off ≤ 0x154 then
    gateEn d (fun s =>
      let ok :=
        if l.off = 0x104 then decide (n % 8 < gf s l.page CE_CFG_GSIZE)
        else if l.off = 0x108 then decide (1000 ≤ n) && decide (n ≤ 10000000)
        else if 0x134 ≤ l.off ∧ l.off ≤ 0x150 then childrenAscend (childList s l.page ((l.off - 0x134) / 4) v)
        else true
      guardW ok eBAD_VALUE (plain l v) s) s
  else if l.off = 0x164 then
    let (s1, c) := if bit n 0 then reshardArm d (n / 2 ^ 16) s else plain l v s
    if c ≠ 0 then (s, c) else (if bit n 1 then reshardDisarm d s1 else s1, eOK)
  else plain l v s

/-- A window of the JRNL page: an empty one, or one aligned and inside the die's own cellar (R371). -/
def windowOk (d : DieId) (base bytes : Nat) : Nat :=
  if base % 4096 ≠ 0 then eBAD_ALIGNMENT
  else if bytes = 0 ∨ inOwnCellar d base bytes then eOK else eACCESS_DENIED

/-- A write that keeps a window legal. -/
def windowed (code : Nat) (f : State → State × Nat) (s : State) : State × Nat := if code = 0 then f s else (s, code)

/-- JRNL page (R359, R363, R371, R372). -/
def jrnlWrite (l : Loc) (v : W) (s : State) : State × Nat :=
  let d := l.die
  let p := l.page
  let n := v.toNat
  let o := l.off
  let run (s : State) : State × Nat :=
    match o with
    | 0x10C => guardW (n == 0 || decide (256 ≤ n)) eBAD_VALUE (windowed (windowOk d (rd64 s (p + 0x104)) (n * 4096)) (plain l v)) s
    | 0x128 => windowed (windowOk d (rd64 s (p + 0x120)) (n * 4096)) (plain l v) s
    | 0x12C => (replayModeAction d (bit n 0) s, eOK)
    | 0x138 =>
      windowed (windowOk d (rd64 s (p + 0x130)) (8 * (n % 2 ^ 13)))
        (fun s => let x := plain l v s; (if bit n 13 then exportCheck d x.1 else x.1, x.2)) s
    | 0x150 =>
      (if bit n 0 then (plain l v s).1
        else sf p JRNL_TWIN_STAT_STATE 0 (onJrnl d (fun j => { j with own := none, twinWait := false }) (plain l v s).1), eOK)
    | 0x19C => windowed (windowOk d (rd64 s (p + 0x194)) (n * 4096)) (plain l v) s
    | _ => plain l v s
  if (0x100 ≤ o ∧ o ≤ 0x10C) ∨ (0x120 ≤ o ∧ o ≤ 0x138) ∨ (0x150 ≤ o ∧ o ≤ 0x154) ∨ (0x190 ≤ o ∧ o ≤ 0x19C) then gateEn d run s
  else run s

/-- INTEG page (R385, R387). -/
def integWrite (l : Loc) (v : W) (s : State) : State × Nat :=
  if l.off = 0x138 ∧ bit v.toNat 2 then injArmAction l.die (v.toNat % 4) s else plain l v s

/-- A link page (R301, R313, R317, R318). -/
def lpWrite (r : Req) (l : Loc) (v : W) (s : State) : State × Nat :=
  let d := l.die
  let n := v.toNat
  let q : PortId := diePort d ⟨l.inst % 4, Nat.mod_lt _ (by decide)⟩
  match l.off with
  | 0x100 => let x := plain l v s; (lpCtrlAction q (bit n 1) x.1, x.2)
  | 0x104 => guardW (gf s l.page LP_CTRL_ENABLE == 0 && n % 4 != 3 && n / 4 % 4 != 3) eBAD_VALUE (plain l v) s
  | 0x200 => gateEn d (plain l v) s
  | 0x204 => gateEn d (plain l v) s
  | 0x20C => (setSel r l.key v s, eOK)
  | 0x210 =>
    let sel := (selOf s r (pgLP d + 0x20C)).toNat % 8192
    if sel < 4096 && enOn s d then (s, eBAD_VALUE)
    else (onDie d (fun x => { x with rt := sset z32 x.rt sel v }) s, eOK)
  | 0x214 =>
    if bit n 1 && gf s (pgLP d) RT_CTRL_PENDING == 1 then (s, eBAD_VALUE)
    else
      let s1 := if bit n 1 then rtCopyBank d s else s
      (if bit n 0 then rtSwapArm d s1 else s1, eOK)
  | _ => plain l v s

/-- A stairway page (R394, R406). -/
def swWrite (l : Loc) (v : W) (s : State) : State × Nat :=
  let x := plain l v s
  if l.off = 0x100 ∧ bit v.toNat 0 then (swRetrainAction l.die ⟨l.inst % 2, Nat.mod_lt _ (by decide)⟩ x.1, x.2) else x

/-- Shelf, loft, matrix and control-core pages (R118, R157, R209, R228, R236). -/
def engineWrite (l : Loc) (v : W) (s : State) : State × Nat :=
  let d := l.die
  match l.kind, l.off with
  | .mx, 0x104 => gateEn d (plain l v) s
  | .shelf, 0x108 => gateEn d (plain l v) s
  | .loft, 0x100 => gateEn d (plain l v) s
  | .loft, 0x104 => (if bit v.toNat 0 then loftFlushAll d s else s, eOK)
  | _, _ => plain l v s

/-! ### Steward pages -/

/-- HTS_CTRL (R400, R401, R408). -/
def htsWrite (l : Loc) (v : W) (s : State) : State × Nat :=
  let h : DieId := ⟨l.inst % 4, Nat.mod_lt _ (by decide)⟩
  let n := v.toNat
  if l.off ≠ 0x110 then plain l v s else
  let (s1, c1) := if bit n 0 then dieResetAction h (if bit n 1 then .cold else .warm) s else (s, eOK)
  if c1 ≠ 0 then (s, c1) else
  let (s2, c2) := if bit n 2 then rejoinAction h s1 else (s1, eOK)
  if c2 ≠ 0 then (s, c2) else (sf l.page HTS_CTRL_KIND (n / 2 % 2) s2, eOK)

/-- HOST_NEG (R417). -/
def negAction (v : W) (s : State) : State × Nat :=
  let n := v.toNat
  if n / 256 % 256 ≠ 1 ∨ 1 < n % 256 then (s, eHOST_VERSION)
  else if (List.range 32).any fun q => !isFeed q && gf s (pgQ q) Q_CTRL_EN == 1 then (s, eBAD_VALUE)
  else
    let s1 := sf pgHOST HOST_NEG_NEGOTIATED 1 (sf pgHOST HOST_NEG_MAJOR (n / 256) (sf pgHOST HOST_NEG_MINOR n s))
    (raise pgHOST 1 s1, eOK)

/-- A tally list entry in use names a listed page and one of its tallies (R435). -/
def tallyEntryOk (v : W) : Bool :=
  fld v HOST_TL_ENTRY_VALID == 0 ||
    (match pageAt (fld v HOST_TL_ENTRY_HOME * 0x1000000 + fld v HOST_TL_ENTRY_PAGE_NUM * 0x1000) with
      | some (k, _) => decide (fld v HOST_TL_ENTRY_INDEX < k.caps.1)
      | none => false)

/-- HOST page (R413, R417, R429, R435). -/
def hostWrite (r : Req) (l : Loc) (v : W) (s : State) : State × Nat :=
  match l.off with
  | 0x104 => negAction v s
  | 0x110 | 0x114 | 0x118 | 0x11C => guardW (decide (v.toNat ≤ 13)) eBAD_VALUE (plain l v) s
  | 0x130 => (setSel r l.key v s, eOK)
  | 0x134 =>
    guardW (tallyEntryOk v) eBAD_INDEX
      (fun s => (onStw (fun x => { x with tlist := sset z32 x.tlist ((selOf s r (l.page + 0x130)).toNat % 256) v }) s, eOK)) s
  | _ => plain l v s

/-- SEC page (R451, R454, R461). -/
def secWrite (l : Loc) (v : W) (s : State) : State × Nat :=
  if l.off = 0x10C then floorAction (v.toNat % 64) s
  else if l.off = 0x110 then (if bit v.toNat 0 then attGoAction s else (s, eOK))
  else if 0x120 ≤ l.off ∧ l.off < 0x140 then guardW (gf s pgSEC SEC_ATT_CTRL_BUSY == 0) eBAD_VALUE (plain l v) s
  else plain l v s

/-- BOOT_CTRL (R457, R458). A write of both bits seals and reboots; the seal's check on REBOOT comes before. -/
def bootWrite (l : Loc) (v : W) (s : State) : State × Nat :=
  if l.off ≠ 0x118 then plain l v s
  else
    let s1 := if bit v.toNat 0 then sealNow s else s
    if bit v.toNat 1 then (match rebootAction s1 with | (s2, 0) => (s2, eOK) | (_, c) => (s, c)) else (s1, eOK)

/-- Steward SVC page (R490, R495). -/
def ssvcWrite (l : Loc) (v : W) (s : State) : State × Nat :=
  let n := v.toNat
  match l.off with
  | 0x100 => if bit n 0 then csLoadAction ⟨n / 2 % 4, Nat.mod_lt _ (by decide)⟩ (n / 8 % 2) s else (s, eOK)
  | 0x10C => if bit n 0 then rmaAction s else (s, eOK)
  | _ => plain l v s

/-! ### Queue pages (R417 to R422, R431, R433, R437, R438) -/

/-- A feed queue whose home die runs with EN at 1. -/
def feedBusy (s : State) (q : Nat) : Bool := isFeed q && dieLive s (feedHome s q) && enOn s (feedHome s q)

/-- Q_CFG. -/
def qCfgWrite (l : Loc) (q : Nat) (v : W) (s : State) : State × Nat :=
  let feed := isFeed q
  guardW (gf s l.page Q_CTRL_EN == 0 && (if feed then decide (bits v.toNat 27 4 ≤ 12) else bits v.toNat 25 6 == 0)) eBAD_VALUE (plain l v) s

/-- The checks of Q_CTRL. -/
def qCtrlCheck (s : State) (q : Nat) (n : Nat) : Nat :=
  let home := feedHome s q
  if bit n 0 && gf s pgHOST HOST_NEG_NEGOTIATED == 0 then eHOST_VERSION
  else if bit n 4 && gf s pgHOST HOST_NEG_MINOR == 0 then eHOST_VERSION
  else if q = 0 && (bit n 1 || bit n 2) then eBAD_VALUE
  else if feedBusy s q && (bit n 1 || bit n 2 || bit n 3) then eBAD_VALUE
  else if bit n 0 && isFeed q &&
      !inOwnCellar home (rd64 s (pgQ q + Q_BASE_LO_V.off)) (gf s (pgQ q) Q_CFG_SIZE * feedSlotSize s q) then eACCESS_DENIED
  else eOK

/-- Q_CTRL: EN and MIRROR, then MARK, REWIND and TRUNCATE in the order of R423. -/
def qCtrlWrite (l : Loc) (q : Nat) (v : W) (s : State) : State × Nat :=
  let n := v.toNat
  let c := qCtrlCheck s q n
  if c ≠ 0 then (s, c) else
  let was := gf s l.page Q_CTRL_EN
  let s1 := (plain l v s).1
  let s2 := if was = 0 && bit n 0 && !isFeed q then clearCounts q s1 else s1
  let s3 := if bit n 1 then markQueue q s2 else s2
  let s4 := if bit n 2 then rewindQueue q s3 else s3
  (if bit n 3 && isFeed q then truncateQueue q s4 else s4, eOK)

/-- Q_DOORBELL (R422): on the submission queue it produces, on a queue the host consumes it consumes. -/
def doorbell (q n : Nat) (s : State) : State × Nat :=
  if q = 0 then
    if qRel s q + gf s (pgQ q) Q_CFG_SIZE < qProd s q + n then (s, eQUEUE_FULL)
    else (qIrq q (tallyAdd (pgQ q) 0 n (setProd q (qProd s q + n) s)), eOK)
  else if isFeed q ∨ n = 0 ∨ qProd s q - qRd s q < n then (s, eBAD_VALUE)
  else (doorbellConsume q n s, eOK)

/-- The four counts of a queue by their low offsets: PROD, RD, MARK, REL. A feed queue's counts are restored as written (R431). -/
def qCount (q off v : Nat) (s : State) : State × Nat :=
  if isFeed q then
    if feedBusy s q then (s, eBAD_VALUE)
    else match off with
      | 0x120 => (setProd q v s, eOK)
      | 0x128 => (setRd q v s, eOK)
      | 0x130 => (setMark q v s, eOK)
      | _ => (wr64 (pgQ q + Q_REL_LO_V.off) v s, eOK)
  else if q = 0 then
    if off ≠ 0x120 ∨ v < qRd s q then (s, eBAD_VALUE)
    else if qRel s q + gf s (pgQ q) Q_CFG_SIZE < v then (s, eQUEUE_FULL)
    else (qIrq q (tallyAdd (pgQ q) 0 (v - qProd s q) (setProd q v s)), eOK)
  else match off with
    | 0x120 => (s, eBAD_VALUE)
    | 0x128 => guardW (decide (qMark s q ≤ v) && decide (v ≤ qProd s q)) eBAD_VALUE (fun s => (setRd q v s, eOK)) s
    | 0x130 =>
      guardW (gf s (pgQ q) Q_CTRL_EN == 0 && decide (qRel s q ≤ v) && decide (v ≤ qRd s q)) eBAD_VALUE (fun s => (setMark q v s, eOK)) s
    | _ => guardW (decide (qRel s q ≤ v) && decide (v ≤ qRd s q)) eBAD_VALUE (fun s => (releaseTo q v s, eOK)) s

/-- A 64-bit register of a queue page. -/
def queuePair (q off v : Nat) (s : State) : State × Nat :=
  if 0x120 ≤ off then qCount q off v s
  else if gf s (pgQ q) Q_CTRL_EN = 1 then (s, eBAD_VALUE)
  else if off ≠ 0x110 ∧ v % 4096 ≠ 0 then (s, eBAD_ALIGNMENT)
  else (wr64 (pgQ q + off) v s, eOK)

/-- A 32-bit register of a queue page. -/
def queueWrite (l : Loc) (v : W) (s : State) : State × Nat :=
  let q := l.inst
  if 16 ≤ q then (s, eOK)
  else match l.off with
    | 0x100 => qCfgWrite l q v s
    | 0x104 => qCtrlWrite l q v s
    | 0x148 => doorbell q (v.toNat % 2 ^ 16) s
    | _ => plain l v s

/-! ### Every page -/

/-- A write of a 32-bit register that passes the form of its fields. -/
def blockWrite (r : Req) (l : Loc) (v : W) (s : State) : State × Nat :=
  match l.kind with
  | .topo => plain l v s
  | .tick => tickWrite l v s
  | .disp => dispWrite l v s
  | .watch => watchWrite32 r l v s
  | .upd => updWrite r l v s
  | .ce => ceWrite l v s
  | .jrnl => jrnlWrite l v s
  | .integ => integWrite l v s
  | .pwr => if l.off = 0x108 then (setSel r l.key v s, eOK) else plain l v s
  | .svc => if l.off = 0x100 then svcAction l.die (v.toNat / 2 ^ 12 % 4) (v.toNat % 2 ^ 12) s else plain l v s
  | .lp => lpWrite r l v s
  | .sw => swWrite l v s
  | .hts => htsWrite l v s
  | .host => hostWrite r l v s
  | .sec => secWrite l v s
  | .cfg => if l.off = 0x100 ∧ v.toNat % 4 ≠ 0 then cfgCommand (v.toNat % 4) (v.toNat / 4 % 2) s else plain l v s
  | .boot => bootWrite l v s
  | .tray => if l.off = 0x108 ∧ bit v.toNat 0 then restartAction s else plain l v s
  | .ssvc => ssvcWrite l v s
  | .queue => queueWrite l v s
  | _ => engineWrite l v s

/-- A write of a whole 64-bit register; `l` is its low half. -/
def pairWrite (r : Req) (l : Loc) (v : Nat) (s : State) : State × Nat :=
  let d := l.die
  let p := l.page
  let put (s : State) : State × Nat := (wr64 (p + l.off) v s, eOK)
  match l.kind, l.off with
  | .tick, _ => guardW (isMaster s d && s.master.st == .off) eBAD_VALUE put s
  | .cc, _ => gateEn d put s
  | .upd, 0x120 => gateEn d (onSelWeight r d fun e => { e with version := v }) s
  | .upd, _ => gateEn d put s
  | .jrnl, 0x104 => gateEn d (fun s => windowed (windowOk d v (gf s p JRNL_RING_LEN_V * 4096)) put s) s
  | .jrnl, 0x118 => jrnlRelAction d v s
  | .jrnl, 0x120 => gateEn d (fun s => windowed (windowOk d v (gf s p JRNL_RPL_LEN_V * 4096)) put s) s
  | .jrnl, 0x130 => gateEn d (fun s => windowed (windowOk d v (8 * gf s p JRNL_EXP_CFG_COUNT)) put s) s
  | .jrnl, 0x194 => gateEn d (fun s => windowed (windowOk d v (gf s p JRNL_RX_LEN_V * 4096)) put s) s
  | .integ, _ => guardW (gf s p INJ_CTRL_ARM == 0) eBAD_VALUE put s
  | .shelf, _ => gateEn d (guardW (v % 4096 == 0) eBAD_ALIGNMENT put) s
  | .sec, _ => guardW (gf s p SEC_ATT_CTRL_BUSY == 0 && v % 64 == 0) eBAD_VALUE put s
  | .cfg, _ => guardW (v % 4096 == 0) eBAD_ALIGNMENT put s
  | .queue, o => queuePair l.inst o v s
  | _, _ => put s

/-- What rejects a write of a low register at once (R89, R118, R209, R286, R287, R371, R385, R418, R461): the state that closes the register
to writes. -/
def loGate (s : State) (r : Req) (l : Loc) : Nat :=
  let d := l.die
  let open_ (ok : Bool) : Nat := if ok then eOK else eBAD_VALUE
  match l.kind, l.off with
  | .tick, _ => open_ (isMaster s d && s.master.st == .off)
  | .cc, _ => open_ (!enOn s d)
  | .upd, 0x120 => if enOn s d then eBAD_VALUE else if (activeWeights s d).contains (selWeight s r d) then eOK else eBAD_INDEX
  | .upd, _ => open_ (!enOn s d)
  | .jrnl, 0x118 => eOK
  | .jrnl, _ => open_ (!enOn s d)
  | .integ, _ => open_ (gf s l.page INJ_CTRL_ARM == 0)
  | .shelf, _ => open_ (!enOn s d)
  | .sec, _ => open_ (gf s l.page SEC_ATT_CTRL_BUSY == 0)
  | .queue, o => open_ (decide (0x120 ≤ o) || gf s l.page Q_CTRL_EN == 0)
  | _, _ => eOK

/-- The shadow of a requester for the pair whose low register is at key `a` (R46). -/
def shadowOf (s : State) (r : Req) (a : Nat) : Option W := sget zo s.loShadow (reqKey r a)

/-- Sets or empties a shadow. -/
def setShadow (r : Req) (a : Nat) (v : Option W) (s : State) : State := { s with loShadow := sset zo s.loShadow (reqKey r a) v }

/-- HI written (R46): it commits with the shadow, or alone; the shadow empties whether or not the commit is rejected. -/
def commitHi (r : Req) (l : Loc) (v : W) (s : State) : State × Nat :=
  let lo : Loc := { l with off := l.off - 4 }
  let low := (shadowOf s r lo.key).getD (regValue s r lo)
  let s1 := setShadow r lo.key none s
  if !formOk l.spec v then (s1, eBAD_VALUE) else pairWrite r lo (low.toNat + v.toNat * 2 ^ 32) s1

/-- Check 5 of R40: a field the seal locks would change, or an action the seal forbids is asked for (R457, R458, R490). -/
def sealBars (s : State) (l : Loc) (v : W) : Bool :=
  gf s pgBOOT BOOT_STAT_SEALED == 1 &&
    ((rd s l.key ^^^ v) &&& BitVec.ofNat 32 l.spec.rwl != 0 || (l.kind == .boot && l.off == 0x118 && bit v.toNat 1) ||
      (l.kind == .ssvc && l.off == 0x100 && bit v.toNat 0))

/-- A write at a place that passed checks 1 to 4. -/
def writeAt (r : Req) (l : Loc) (v : W) (s : State) : State × Nat :=
  if l.lo && l.spec.rw != 0 then
    match loGate s r l with
    | 0 => (setShadow r l.key (some v) s, eOK)
    | c => (s, c)
  else if sealBars s l v then (if l.kind = .ssvc then tallyAdd pgSSVC 1 1 s else s, eLOCKED)
  else if l.hi && l.spec.rw != 0 then commitHi r l v s
  else if !formOk l.spec v then (s, eBAD_VALUE)
  else if l.off < 0x100 then headerWrite r l v s
  else blockWrite r l v s

/-- Whether a write wakes an idle package (R464): on a die's page, of a doorbell, or of a tolerance below the exit latency. -/
def wakesWrite (r : Req) (a : Nat) (v : W) (s : State) : Bool :=
  wakesBy r a s || (pState s != 0 &&
    ((decide (pgQ 0 ≤ a) && decide (a < pgQ 16) && a % 0x1000 == 0x148) ||
      (a == pgPCAP + PCAP_LTR_V.off && decide (v.toNat % 2 ^ 24 < exitUs (pState s)))))

/-- A register write (R39 to R46): the state after it and its code. A requester that cannot act writes nothing. -/
def regWrite (r : Req) (a width : Nat) (v : W) (s : State) : State × Nat :=
  if !reqActs s r then (s, eOK) else
  let s := if wakesWrite r a v s then wakeNow s else s
  match checkAccess r a width true s with
  | .error (c, p) => (recAccess r a c p s, c)
  | .ok l =>
    if idleHeld r a s then (recAccess r a eCOOLANT_STOP l.page s, eCOOLANT_STOP) else
    match writeAt r l v s with
    | (s1, 0) => (csSettle s1, eOK)
    | (s1, c) => (recAccess r a c l.page s1, c)

/-- A register write as a command. -/
def regWr (r : Req) (a : Nat) (v : W) (s : State) : State := (regWrite r a 4 v s).1

/-- A 64-bit register written low half first (R46). -/
def regWr64 (r : Req) (a : Nat) (v : D) (s : State) : State := regWr r (a + 4) (v.extractLsb' 32 32) (regWr r a (v.extractLsb' 0 32) s)

end Sys2Proof.Machine
end

