-- ==== Sys2Proof/Machine/Rows.lean ====
section
/-!
DEFINITION. Rows.lean: the commands that are one register write with an action of its own. Each composes the value that asks for
the action and leaves the register's other writable fields as they stand, and makes the write as the requester (R38 to R46).
-/
namespace Sys2Proof.Machine

/-- A register value: the listed fields as they stand, everything else 0. -/
def keeping (s : State) (p : Nat) (fs : List Fld) : W := fs.foldl (fun v f => setFld v f (gf s p f)) 0

/-- Writes one field of a register at a page, keeping the listed other fields. -/
def ask (r : Req) (p : Nat) (f : Fld) (n : Nat) (keep : List Fld) (s : State) : State :=
  regWr r (p + f.off) (setFld (keeping s p keep) f n) s

/-! ### Tick and dispatcher -/

/-- TICK_EN (R78). -/
def doTickEn (r : Req) (d : DieId) (en : Bool) (s : State) : State := ask r (pgTICK d) TICK_CTRL_EN (b2n en) [TICK_CTRL_RUN] s
/-- RUN (R79). -/
def doRun (r : Req) (d : DieId) (v : Bool) (s : State) : State := ask r (pgTICK d) TICK_CTRL_RUN (b2n v) [TICK_CTRL_EN] s
/-- RESUME (R79). -/
def doResume (r : Req) (d : DieId) (s : State) : State := ask r (pgTICK d) TICK_CTRL_RESUME 1 [TICK_CTRL_EN, TICK_CTRL_RUN] s
/-- STOP (R90). -/
def doStop (r : Req) (d : DieId) (s : State) : State := ask r (pgTICK d) TICK_CTRL_STOP 1 [TICK_CTRL_EN, TICK_CTRL_RUN] s
/-- A DISP_CMD of an operation on a slot (R105). -/
def dispCmd (r : Req) (d : DieId) (op : Nat) (slot : Fin 2) (s : State) : State :=
  regWr r (pgDISP d + DISP_CMD_OP.off) (BitVec.ofNat 32 (op + 16 * slot.val)) s

/-! ### Links and stairway -/

/-- LP_ENABLE (R301). -/
def doLpEnable (r : Req) (p : PortId) (en : Bool) (s : State) : State :=
  ask r (pgLPof p) LP_CTRL_ENABLE (b2n en) [LP_CTRL_AUTO_RETRAIN] s
/-- LP_RETRAIN (R301). -/
def doLpRetrain (r : Req) (p : PortId) (s : State) : State :=
  ask r (pgLPof p) LP_CTRL_RETRAIN 1 [LP_CTRL_ENABLE, LP_CTRL_AUTO_RETRAIN] s
/-- SW_RETRAIN (R394). -/
def doSwRetrain (r : Req) (d : DieId) (e : SideId) (s : State) : State := ask r (pgSWof d e) SW_CTRL_RETRAIN 1 [SW_CTRL_AUTO] s
/-- DIE_RESET (R400). -/
def doDieReset (r : Req) (h : DieId) (k : ResetKind) (s : State) : State :=
  let v := setFld (setFld 0 HTS_CTRL_RESET 1) HTS_CTRL_KIND (match k with | .warm => 0 | .cold => 1)
  regWr r (pgHTSof h + HTS_CTRL_RESET.off) v s
/-- REJOIN (R401). -/
def doRejoin (r : Req) (h : DieId) (s : State) : State := ask r (pgHTSof h) HTS_CTRL_REJOIN 1 [HTS_CTRL_KIND] s
/-- INJ_ARM (R385). -/
def doInjArm (r : Req) (d : DieId) (syms : Fin 4) (s : State) : State :=
  regWr r (pgINTEG d + INJ_CTRL_ARM.off) (setFld (setFld 0 INJ_CTRL_ARM 1) INJ_CTRL_SYMS syms.val) s

/-! ### Collective engine and journal -/

/-- RESHARD_ARM (R344). -/
def doReshardArm (r : Req) (d : DieId) (epoch : Nat) (s : State) : State :=
  regWr r (pgCE d + CE_RESHARD_ARM.off) (BitVec.ofNat 32 (1 + epoch % 2 ^ 16 * 2 ^ 16)) s
/-- RESHARD_DISARM (R346). -/
def doReshardDisarm (r : Req) (d : DieId) (s : State) : State := ask r (pgCE d) CE_RESHARD_DISARM 1 [CE_RESHARD_EPOCH] s
/-- JRNL_REL_WRITE (R372). -/
def doJrnlRelWrite (r : Req) (d : DieId) (v : D) (s : State) : State := regWr64 r (pgJRNL d + JRNL_REL_LO_V.off) v s

/-! ### Queues -/

/-- Q_EN (R419). -/
def doQEn (r : Req) (q : Fin 32) (en : Bool) (s : State) : State := ask r (pgQ q) Q_CTRL_EN (b2n en) [Q_CTRL_MIRROR] s
/-- An action of Q_CTRL (R422, R433). -/
def qAct (f : Fld) (r : Req) (q : Fin 32) (s : State) : State := ask r (pgQ q) f 1 [Q_CTRL_EN, Q_CTRL_MIRROR] s

/-! ### Service -/

/-- An SVC_REQ of an operation on a page (R486). -/
def svcReq (r : Req) (d : DieId) (op pageNum : Nat) (s : State) : State :=
  regWr r (pgSVC d + SVC_REQ_PAGE_NUM.off) (BitVec.ofNat 32 (pageNum % 2 ^ 12 + op * 2 ^ 12)) s
/-- CS_LOAD (R490). -/
def doCsLoad (r : Req) (d : DieId) (slot : Fin 2) (s : State) : State :=
  regWr r (pgSSVC + CS_CMD_LOAD.off) (setFld (setFld (setFld 0 CS_CMD_LOAD 1) CS_CMD_DIE d.val) CS_CMD_SLOT slot.val) s
/-- A CFG command on a slot (R452). -/
def cfgCmd (r : Req) (op : Nat) (slot : Fin 2) (s : State) : State :=
  regWr r (pgCFG + CFG_CMD_OP.off) (setFld (setFld 0 CFG_CMD_OP op) CFG_CMD_SLOT slot.val) s

/-! ### Any page -/

/-- TALLY_CLR_ALL (R54). -/
def doTallyClrAll (r : Req) (page : Nat) (s : State) : State :=
  regWr r (page + 0x0C) (rd s (page + 0x0C) ||| 4) s

/-- REGISTER_WRITE (R41, R415): a host write at or above offset 0x0500_0000 is counted and has no other effect. -/
def doRegisterWrite (r : Req) (addr width : Nat) (v : W) (s : State) : State :=
  match r with
  | .host =>
    if 0x5000000 ≤ addr then (if !reqActs s .host || 0x8000000 ≤ addr then s else tallyAdd pgHOST 5 1 s)
    else (regWrite .host addr width v s).1
  | _ => (regWrite r addr width v s).1

/-- READ_LO_LATCH (R45): the read of a low register, whose value goes to the requester. -/
def doReadLoLatch (r : Req) (addr : Nat) (s : State) : State := if reqActs s r then (regRead r addr 4 s).1 else s

/-! ### Meanings of the commands -/

/-- RESTART (R475). -/
def execRestart (r : Req) (s : State) : Host.Outcome State Fault Refusal :=
  .next (regWr r (pgTRAY + TRAY_CTRL_RESTART.off) 1 s)
/-- TICK_EN (R78). -/
def execTickEn (r : Req) (d : DieId) (en : Bool) (s : State) : Host.Outcome State Fault Refusal :=
  .next (doTickEn r d en s)
/-- RUN (R79). -/
def execRun (r : Req) (d : DieId) (v : Bool) (s : State) : Host.Outcome State Fault Refusal :=
  .next (doRun r d v s)
/-- RESUME (R79). -/
def execResume (r : Req) (d : DieId) (s : State) : Host.Outcome State Fault Refusal :=
  .next (doResume r d s)
/-- STOP (R90). -/
def execStop (r : Req) (d : DieId) (s : State) : Host.Outcome State Fault Refusal :=
  .next (doStop r d s)
/-- DISP_LOAD (R105). -/
def execDispLoad (r : Req) (d : DieId) (slot : Fin 2) (s : State) : Host.Outcome State Fault Refusal :=
  .next (dispCmd r d 1 slot s)
/-- DISP_ARM (R106). -/
def execDispArm (r : Req) (d : DieId) (slot : Fin 2) (s : State) : Host.Outcome State Fault Refusal :=
  .next (dispCmd r d 2 slot s)
/-- DISP_DISARM (R105). -/
def execDispDisarm (r : Req) (d : DieId) (slot : Fin 2) (s : State) : Host.Outcome State Fault Refusal :=
  .next (dispCmd r d 3 slot s)
/-- DISP_UNLOAD (R105). -/
def execDispUnload (r : Req) (d : DieId) (slot : Fin 2) (s : State) : Host.Outcome State Fault Refusal :=
  .next (dispCmd r d 4 slot s)
/-- RESHARD_ARM (R344). -/
def execReshardArm (r : Req) (d : DieId) (epoch : Nat) (s : State) : Host.Outcome State Fault Refusal :=
  .next (doReshardArm r d epoch s)
/-- RESHARD_DISARM (R346). -/
def execReshardDisarm (r : Req) (d : DieId) (s : State) : Host.Outcome State Fault Refusal :=
  .next (doReshardDisarm r d s)
/-- LP_ENABLE (R301). -/
def execLpEnable (r : Req) (p : PortId) (en : Bool) (s : State) : Host.Outcome State Fault Refusal :=
  .next (doLpEnable r p en s)
/-- LP_RETRAIN (R301). -/
def execLpRetrain (r : Req) (p : PortId) (s : State) : Host.Outcome State Fault Refusal :=
  .next (doLpRetrain r p s)
/-- RT_SWAP (R313). -/
def execRtSwap (r : Req) (d : DieId) (s : State) : Host.Outcome State Fault Refusal :=
  .next (regWr r (pgLP d + RT_CTRL_SWAP.off) (setFld 0 RT_CTRL_SWAP 1) s)
/-- RT_COPY (R313). -/
def execRtCopy (r : Req) (d : DieId) (s : State) : Host.Outcome State Fault Refusal :=
  .next (regWr r (pgLP d + RT_CTRL_COPY.off) (setFld 0 RT_CTRL_COPY 1) s)
/-- SW_RETRAIN (R394). -/
def execSwRetrain (r : Req) (d : DieId) (e : SideId) (s : State) : Host.Outcome State Fault Refusal :=
  .next (doSwRetrain r d e s)
/-- DIE_RESET (R400). -/
def execDieReset (r : Req) (h : DieId) (kind : ResetKind) (s : State) : Host.Outcome State Fault Refusal :=
  .next (doDieReset r h kind s)
/-- REJOIN (R401). -/
def execRejoin (r : Req) (h : DieId) (s : State) : Host.Outcome State Fault Refusal :=
  .next (doRejoin r h s)
/-- INJ_ARM (R385). -/
def execInjArm (r : Req) (d : DieId) (syms : Fin 4) (s : State) : Host.Outcome State Fault Refusal :=
  .next (doInjArm r d syms s)
/-- LOFT_FLUSH (R228). -/
def execLoftFlush (r : Req) (d : DieId) (s : State) : Host.Outcome State Fault Refusal :=
  .next (regWr r (pgLOFT d + LOFT_FLUSH_ALL.off) 1 s)
/-- UPD_VALID (R272). -/
def execUpdValid (r : Req) (d : DieId) (s : State) : Host.Outcome State Fault Refusal :=
  .next (regWr r (pgUPD d + UPD_VCTL_VALID.off) (setFld 0 UPD_VCTL_VALID 1) s)
/-- UPD_INIT (R287). -/
def execUpdInit (r : Req) (d : DieId) (s : State) : Host.Outcome State Fault Refusal :=
  .next (regWr r (pgUPD d + UPD_VCTL_INIT.off) (setFld 0 UPD_VCTL_INIT 1) s)
/-- UPD_FORGET (R272). -/
def execUpdForget (r : Req) (d : DieId) (s : State) : Host.Outcome State Fault Refusal :=
  .next (regWr r (pgUPD d + UPD_VCTL_FORGET.off) (setFld 0 UPD_VCTL_FORGET 1) s)
/-- LADDER_VALID (R259). -/
def execLadderValid (r : Req) (d : DieId) (s : State) : Host.Outcome State Fault Refusal :=
  .next (regWr r (pgWATCH d + WATCH_LADDER_VALID.off) (setFld 0 WATCH_LADDER_VALID 1) s)
/-- LADDER_FORGET (R259). -/
def execLadderForget (r : Req) (d : DieId) (s : State) : Host.Outcome State Fault Refusal :=
  .next (regWr r (pgWATCH d + WATCH_LADDER_FORGET.off) (setFld 0 WATCH_LADDER_FORGET 1) s)
/-- EXPORT_TABLE_CHECK (R363). -/
def execExportTableCheck (r : Req) (d : DieId) (v : W) (s : State) : Host.Outcome State Fault Refusal :=
  .next (regWr r (pgJRNL d + JRNL_EXP_CFG_COUNT.off) v s)
/-- REPLAY_MODE (R359). -/
def execReplayMode (r : Req) (d : DieId) (mode : Bool) (s : State) : Host.Outcome State Fault Refusal :=
  .next (regWr r (pgJRNL d + JRNL_RPL_CTRL_MODE.off) (setFld 0 JRNL_RPL_CTRL_MODE (b2n mode)) s)
/-- JRNL_REL_WRITE (R372). -/
def execJrnlRelWrite (r : Req) (d : DieId) (v : D) (s : State) : Host.Outcome State Fault Refusal :=
  .next (doJrnlRelWrite r d v s)
/-- HOST_NEG (R417). -/
def execHostNeg (r : Req) (v : W) (s : State) : Host.Outcome State Fault Refusal :=
  .next (regWr r (pgHOST + HOST_NEG_MINOR.off) v s)
/-- Q_EN (R419). -/
def execQEn (r : Req) (q : Fin 32) (en : Bool) (s : State) : Host.Outcome State Fault Refusal :=
  .next (doQEn r q en s)
/-- Q_MARK (R422). -/
def execQMark (r : Req) (q : Fin 32) (s : State) : Host.Outcome State Fault Refusal :=
  .next (qAct Q_CTRL_MARK r q s)
/-- Q_REWIND (R422). -/
def execQRewind (r : Req) (q : Fin 32) (s : State) : Host.Outcome State Fault Refusal :=
  .next (qAct Q_CTRL_REWIND r q s)
/-- Q_TRUNCATE (R433). -/
def execQTruncate (r : Req) (q : Fin 32) (s : State) : Host.Outcome State Fault Refusal :=
  .next (qAct Q_CTRL_TRUNCATE r q s)
/-- Q_RD_WRITE (R422). -/
def execQRdWrite (r : Req) (q : Fin 32) (v : D) (s : State) : Host.Outcome State Fault Refusal :=
  .next (regWr64 r (pgQ q + Q_RD_LO_V.off) v s)
/-- Q_REL_WRITE (R422). -/
def execQRelWrite (r : Req) (q : Fin 32) (v : D) (s : State) : Host.Outcome State Fault Refusal :=
  .next (regWr64 r (pgQ q + Q_REL_LO_V.off) v s)
/-- Q_DOORBELL (R422). -/
def execQDoorbell (r : Req) (q : Fin 32) (n : BitVec 16) (s : State) : Host.Outcome State Fault Refusal :=
  .next (regWr r (pgQ q + Q_DOORBELL_V.off) (BitVec.ofNat 32 n.toNat) s)
/-- CFG_WRITE (R452). -/
def execCfgWrite (r : Req) (slot : Fin 2) (s : State) : Host.Outcome State Fault Refusal :=
  .next (cfgCmd r 1 slot s)
/-- CFG_VERIFY (R452). -/
def execCfgVerify (r : Req) (slot : Fin 2) (s : State) : Host.Outcome State Fault Refusal :=
  .next (cfgCmd r 2 slot s)
/-- CFG_ERASE (R452). -/
def execCfgErase (r : Req) (slot : Fin 2) (s : State) : Host.Outcome State Fault Refusal :=
  .next (cfgCmd r 3 slot s)
/-- ATT_GO (R454). -/
def execAttGo (r : Req) (s : State) : Host.Outcome State Fault Refusal :=
  .next (regWr r (pgSEC + SEC_ATT_CTRL_GO.off) 1 s)
/-- FLOOR_REQ (R451). -/
def execFloorReq (r : Req) (v : Fin 64) (s : State) : Host.Outcome State Fault Refusal :=
  .next (regWr r (pgSEC + SEC_FLOOR_REQ_V.off) (BitVec.ofNat 32 v.val) s)
/-- SEAL (R457). -/
def execSeal (r : Req) (s : State) : Host.Outcome State Fault Refusal :=
  .next (regWr r (pgBOOT + BOOT_CTRL_SEAL.off) (setFld 0 BOOT_CTRL_SEAL 1) s)
/-- REBOOT (R458). -/
def execReboot (r : Req) (s : State) : Host.Outcome State Fault Refusal :=
  .next (regWr r (pgBOOT + BOOT_CTRL_REBOOT.off) (setFld 0 BOOT_CTRL_REBOOT 1) s)
/-- FENCE_REQ (R483). -/
def execFenceReq (r : Req) (page : Nat) (req : Bool) (s : State) : Host.Outcome State Fault Refusal :=
  .next (regWr r (page + FENCE_REQ.off) (BitVec.ofNat 32 (b2n req)) s)
/-- SELFTEST (R486). -/
def execSelftest (r : Req) (d : DieId) (pageNum : Nat) (s : State) : Host.Outcome State Fault Refusal :=
  .next (svcReq r d 1 pageNum s)
/-- CALIBRATE (R486). -/
def execCalibrate (r : Req) (d : DieId) (pageNum : Nat) (s : State) : Host.Outcome State Fault Refusal :=
  .next (svcReq r d 2 pageNum s)
/-- CS_LOAD (R490). -/
def execCsLoad (r : Req) (d : DieId) (slot : Fin 2) (s : State) : Host.Outcome State Fault Refusal :=
  .next (doCsLoad r d slot s)
/-- RMA_PREP (R495). -/
def execRmaPrep (r : Req) (s : State) : Host.Outcome State Fault Refusal :=
  .next (regWr r (pgSSVC + RMA_CMD_PREP.off) 1 s)
/-- EVT_FORCE (R47). -/
def execEvtForce (r : Req) (page : Nat) (v : W) (s : State) : Host.Outcome State Fault Refusal :=
  .next (regWr r (page + 0x20) v s)
/-- TALLY_CLR (R54). -/
def execTallyClr (r : Req) (page : Nat) (s : State) : Host.Outcome State Fault Refusal :=
  .next (regWr r (page + 0x30) 0x80000000 s)
/-- TALLY_CLR_ALL (R54). -/
def execTallyClrAll (r : Req) (page : Nat) (s : State) : Host.Outcome State Fault Refusal :=
  .next (doTallyClrAll r page s)
/-- LAST_ERR_CLEAR (R44). -/
def execLastErrClear (r : Req) (page : Nat) (s : State) : Host.Outcome State Fault Refusal :=
  .next (regWr r (page + LAST_ERR_V.off) 0x80000000 s)
/-- READ_LO_LATCH (R45). -/
def execReadLoLatch (r : Req) (addr : Nat) (s : State) : Host.Outcome State Fault Refusal :=
  .next (doReadLoLatch r addr s)
/-- WRITE_LO_SHADOW (R46). -/
def execWriteLoShadow (r : Req) (addr : Nat) (v : W) (s : State) : Host.Outcome State Fault Refusal :=
  .next (regWr r addr v s)
/-- WRITE_HI_COMMIT (R46). -/
def execWriteHiCommit (r : Req) (addr : Nat) (v : W) (s : State) : Host.Outcome State Fault Refusal :=
  .next (regWr r addr v s)
/-- REGISTER_WRITE (R41). -/
def execRegisterWrite (r : Req) (addr : Nat) (width : Nat) (v : W) (s : State) : Host.Outcome State Fault Refusal :=
  .next (doRegisterWrite r addr width v s)

end Sys2Proof.Machine
end

