-- ==== Sys2Proof/Machine/HostIf.lean ====
section
/-!
DEFINITION. HostIf.lean: the host interface: BAR0 reads and their answers (R412, R415), BAR2 (R413 to R415), the submission queue and
its commands (R425, R426, R431), and delayed queue interrupts (R424).
-/
namespace Sys2Proof.Machine

/-- Whether the endpoint answers: the package is not held in reset (R501), and boot has entered a stage (R442). -/
def hostUp (s : State) : Bool := s.stw.halt != .off

/-! ### BAR0 -/

/-- A Completer Abort, logged in the AER Uncorrectable Error Status register (R415). -/
def abortHost (s : State) : State := emit .cplAbort (onStw (fun x => { x with aerAbort := true }) s)

/-- BAR0_READ (R412, R415). An offset outside the BAR reaches nothing. -/
def doBar0Read (off width : Nat) (s : State) : State :=
  if !hostUp s || 0x8000000 ≤ off then s
  else if 0x5000000 ≤ off then emit .cplUnsupported (onStw (fun x => { x with aerUnsup := true }) (tallyAdd pgHOST 5 1 s))
  else
    match regRead .host off width s with
    | (s1, 0, v) => emit (.cplData (leBytes 4 v.toNat)) s1
    | (s1, _, _) => abortHost s1

/-- Q_POP (R421): a read of Q_POP0; the host gets the answer of R415. -/
def doQPop (r : Req) (q : Fin 32) (s : State) : State :=
  match r with
  | .host => doBar0Read (pgQ q + Q_POP_V.off) 4 s
  | _ => if reqActs s r then (regRead r (pgQ q + Q_POP_V.off) 4 s).1 else s

/-! ### BAR2 -/

/-- The device address of a BAR2 offset (R413). -/
def bar2Addr (s : State) (off : Nat) : Nat :=
  let d := off / 2 ^ 34
  d * 2 ^ 38 + gf s (pgHOST + 4 * d) HOST_B2MAP_V * 2 ^ 34 + off % 2 ^ 34

/-- A failed BAR2 access (R415, R436). -/
def bar2Fails (a code : Nat) (write : Bool) (s : State) : State :=
  let s1 := wr64 (pgHOST + HOST_B2ERR_LO_V.off) a s
  let s2 := sf pgHOST HOST_B2ERR_CODE_VALID 1 (sf pgHOST HOST_B2ERR_CODE_WRITE (b2n write) (sf pgHOST HOST_B2ERR_CODE_CODE code s1))
  raise pgHOST 0 (tallyAdd pgHOST 4 1 s2)

/-- Whether a BAR2 access of `n` bytes at `off` lies in the BAR. -/
def inBar2 (off n : Nat) : Bool := decide (0 < n) && decide (off + n ≤ 2 ^ 36)

/-- What bars every BAR2 access, copy and feed push whatever it names: a package whose dies are halted, or the coolant stop (R474). -/
def hostBars (s : State) : Nat := if s.stw.halt ≠ .none then eDIE_LOST else if stopped s then eCOOLANT_STOP else eOK

/-- BAR2_READ (R413 to R415). -/
def doBar2Read (off len : Nat) (s : State) : State :=
  if !hostUp s || !inBar2 off len then s else
  let s0 := wakeNow s
  let a := bar2Addr s0 off
  match hostBars s0 with
  | 0 =>
    match memRead .host a len s0 with
    | (s1, 0, bs) => emit (.cplData bs) s1
    | (s1, c, _) => abortHost (bar2Fails a c false s1)
  | c => abortHost (bar2Fails a c false s0)

/-- BAR2_WRITE (R413 to R415). -/
def doBar2Write (off : Nat) (data : List Byte) (s : State) : State :=
  if !hostUp s || !inBar2 off data.length then s else
  let s0 := wakeNow s
  let a := bar2Addr s0 off
  match hostBars s0 with
  | 0 =>
    match memWrite .host a data s0 with
    | (s1, 0) => s1
    | (s1, c) => bar2Fails a c true s1
  | c => bar2Fails a c true s0

/-! ### Submission entries (R425) -/

/-- A field of a submission entry. -/
def Cmd.at (c : Cmd) (o n : Nat) : Nat := leNat ((c.bytes.drop o).take n)
/-- R425. -/ def Cmd.opcode (c : Cmd) : Nat := c.at 0 1
/-- R425. -/ def Cmd.arg (c : Cmd) : Nat := c.at 1 1
/-- R425. -/ def Cmd.cid (c : Cmd) : Nat := c.at 4 4
/-- R425. -/ def Cmd.haddr (c : Cmd) : Nat := c.at 8 8
/-- R425. -/ def Cmd.daddr (c : Cmd) : Nat := c.at 16 8 % 2 ^ 52
/-- R425. -/ def Cmd.len (c : Cmd) : Nat := c.at 24 8

/-- The reserved fields of an entry are 0; a REG_WRITE holds pairs from byte 8 upwards. -/
def Cmd.formOk (c : Cmd) : Bool :=
  c.at 2 2 == 0 && (c.opcode == 1 || (c.at 16 8 / 2 ^ 52 == 0 && c.at 40 8 == 0 && c.at 48 8 == 0 && c.at 56 8 == 0))

/-- The completion of the command in execution (R425, R427): its entry is written, and REL advances past the command. -/
def complete (c : Cmd) (status detail : Nat) (s : State) : State :=
  let s1 := (qPush 1 (entry 5 0 status c.cid detail) s).1
  let s2 := tallyAdd pgHOST (if status = 0 then 0 else 1) 1 s1
  let s3 := if qRel s2 0 < qRd s2 0 then releaseTo 0 (qRel s2 0 + 1) s2 else s2
  onStw (fun x => { x with cmd := none }) s3

/-- SUBMISSION_FETCH (R425): the steward takes the next entry when none is in execution, and the completion queue has room. An entry
whose opcode R426 does not define completes at once. -/
def doSubmissionFetch (s : State) : State :=
  if !hostUp s || gf s pgBOOT BOOT_STAT_STAGE != 4 || s.stw.cmd.isSome || gf s (pgQ 0) Q_CTRL_EN == 0 ||
      gf s (pgQ 1) Q_CTRL_EN == 0 || decide (qProd s 0 ≤ qRd s 0) || decide (qFree s 1 < 2) then s
  else
    let a := rd64 s (pgQ 0 + Q_BASE_LO_V.off) + qRd s 0 % max 1 (gf s (pgQ 0) Q_CFG_SIZE) * 64
    let c : Cmd := ⟨hostPeek s a 64⟩
    let s1 := onStw (fun x => { x with cmd := some c }) (setRd 0 (qRd s 0 + 1) s)
    if 4 < c.opcode then complete c eBAD_VALUE 0 s1 else s1

/-- Executes the command in execution when its opcode is `op`: the work answers a status and a DETAIL. A work that has aborted the
command (R416, R458) completes nothing. -/
def command (op : Nat) (argOk : Cmd → State → Bool) (work : Cmd → State → State × Nat × Nat) (s : State) : State :=
  match s.stw.cmd with
  | none => s
  | some c =>
    if !hostUp s || c.opcode ≠ op then s
    else if !c.formOk || !argOk c s then complete c eBAD_VALUE 0 s
    else
      match work c s with
      | (s1, status, detail) => if s1.stw.cmd.isNone then s1 else complete c status detail s1

/-- CMD_NOP (R426). -/
def doCmdNop (s : State) : State := command 0 (fun c _ => c.arg == 0) (fun _ s => (s, eOK, 0)) s

/-- One pair as a host BAR0 write (R415, R426): its code. -/
def pairAsHost (off : Nat) (v : W) (s : State) : State × Nat :=
  if 0x5000000 ≤ off then (if 0x8000000 ≤ off then s else tallyAdd pgHOST 5 1 s, eUNMAPPED) else regWrite .host off 4 v s

/-- The pairs of a REG_WRITE from pair `i`, `n` left: the status, and the failing pair or the pair count. A pair that aborts the
command is the last. -/
def pairs (c : Cmd) : Nat → Nat → State → State × Nat × Nat
  | i, 0, s => (s, eOK, i)
  | i, n + 1, s =>
    match pairAsHost (c.at (8 + 8 * i) 4) (BitVec.ofNat 32 (c.at (12 + 8 * i) 4)) s with
    | (s1, 0) => if s1.stw.cmd.isNone then (s1, eOK, i) else pairs c (i + 1) n s1
    | (s1, code) => (s1, code, i)

/-- REG_WRITE (R426). -/
def doRegWrite (s : State) : State :=
  command 1 (fun c _ => decide (1 ≤ c.arg) && decide (c.arg ≤ 7)) (fun c s => pairs c 0 c.arg s) s

/-- Moves the pieces of a copy in order, counting the bytes moved: a failing piece stops the copy. -/
def movePieces (f : Nat → Nat → State → State × Nat) : List (Nat × Nat) → Nat → State → State × Nat × Nat
  | [], n, s => (s, eOK, n)
  | (a, k) :: ps, n, s =>
    match f a k s with
    | (s1, 0) => movePieces f ps (n + k) s1
    | (s1, c) => (s1, c, n)

/-- LEN of a copy is legal (R425). -/
def copyLenOk (c : Cmd) (_ : State) : Bool := c.arg == 0 && decide (1 ≤ c.len) && decide (c.len < 2 ^ 40)

/-- A copy of the whole range, checked before any byte moves (R414, R426): `t` counts its bytes. -/
def copyWork (c : Cmd) (write : Bool) (t : Nat) (f : Nat → Nat → State → State × Nat) (s : State) : State × Nat × Nat :=
  let s0 := wakeNow s
  match (if hostBars s0 = 0 then accessCheck .host c.daddr c.len write s0 else hostBars s0) with
  | 0 =>
    match movePieces f (pieces 64 c.daddr c.len) 0 s0 with
    | (s1, code, n) => (tallyQty pgHOST t 256 n s1, code, n)
  | code => (s0, code, 0)

/-- COPY_IN (R426). -/
def doCopyIn (s : State) : State :=
  command 2 copyLenOk (fun c s =>
    copyWork c true 2 (fun a k s => memWrite .host a (hostPeek s (c.haddr + (a - c.daddr)) k) s) s) s

/-- COPY_OUT (R426). -/
def doCopyOut (s : State) : State :=
  command 3 copyLenOk (fun c s =>
    copyWork c false 3 (fun a k s =>
      match memRead .host a k s with
      | (s1, 0, bs) => (hostPoke (c.haddr + (a - c.daddr)) bs s1, eOK)
      | (s1, code, _) => (s1, code)) s) s

/-- FEED_PUSH (R420, R426, R431). -/
def feedPushWork (c : Cmd) (s : State) : State × Nat × Nat :=
  let q := 8 + c.arg
  let s0 := wakeNow s
  if gf s0 (pgQ q) Q_CTRL_EN = 0 ∨ feedSlotSize s0 q < c.len + 64 then (s0, eBAD_VALUE, qProd s0 q)
  else if hostBars s0 ≠ 0 then (s0, hostBars s0, qProd s0 q)
  else if !dieLive s0 (feedHome s0 q) then (s0, eDIE_LOST, qProd s0 q)
  else
    match feedItem q (c.at 32 8) (hostPeek s0 c.haddr c.len) s0 with
    | (s1, code) => let s2 := qIrq q s1; (s2, code, qProd s2 q)

/-- FEED_PUSH (R426). -/
def doFeedPush (s : State) : State := command 4 (fun c _ => decide (c.arg ≤ 7)) feedPushWork s

/-! ### Interrupts -/

/-- QUEUE_IRQ_DELAY (R424): PROD − RD has been non-zero for DELAY. -/
def doQueueIrqDelay (q : Fin 32) (s : State) : State :=
  if hostUp s && gf s (pgQ q) Q_IRQ_EN == 1 && qProd s q != qRd s q && !qIrqSent s q then
    emit (.msix (gf s (pgQ q) Q_IRQ_VECTOR)) (onQueue q (fun x => { x with irqSent := true }) s)
  else s

/-! ### Meanings of the commands -/

/-- BAR0_READ (R415). -/
def execBar0Read (off : Nat) (width : Nat) (s : State) : Host.Outcome State Fault Refusal :=
  .next (doBar0Read off width s)
/-- BAR2_READ (R414). -/
def execBar2Read (off : Nat) (len : Nat) (s : State) : Host.Outcome State Fault Refusal :=
  .next (doBar2Read off len s)
/-- BAR2_WRITE (R414). -/
def execBar2Write (off : Nat) (data : List Byte) (s : State) : Host.Outcome State Fault Refusal :=
  .next (doBar2Write off data s)
/-- CMD_NOP (R426). -/
def execCmdNop (s : State) : Host.Outcome State Fault Refusal :=
  .next (doCmdNop s)
/-- REG_WRITE (R426). -/
def execRegWrite (s : State) : Host.Outcome State Fault Refusal :=
  .next (doRegWrite s)
/-- COPY_IN (R426). -/
def execCopyIn (s : State) : Host.Outcome State Fault Refusal :=
  .next (doCopyIn s)
/-- COPY_OUT (R426). -/
def execCopyOut (s : State) : Host.Outcome State Fault Refusal :=
  .next (doCopyOut s)
/-- FEED_PUSH (R431). -/
def execFeedPush (s : State) : Host.Outcome State Fault Refusal :=
  .next (doFeedPush s)
/-- Q_POP (R421). -/
def execQPop (r : Req) (q : Fin 32) (s : State) : Host.Outcome State Fault Refusal :=
  .next (doQPop r q s)
/-- SUBMISSION_FETCH (R425). -/
def execSubmissionFetch (s : State) : Host.Outcome State Fault Refusal :=
  .next (doSubmissionFetch s)
/-- QUEUE_IRQ_DELAY (R424). -/
def execQueueIrqDelay (q : Fin 32) (s : State) : Host.Outcome State Fault Refusal :=
  .next (doQueueIrqDelay q s)

end Sys2Proof.Machine
end

