-- ==== Sys2Proof/Machine/Mgmt.lean ====
section
/-!
DEFINITION. Mgmt.lean: the SMBus management target and the alert line (R509 to R512), and the regulators' alert (R516, R517).
-/
namespace Sys2Proof.Machine

/-- Whether the target answers (R516). -/
def mgmtOn (s : State) : Bool := s.stw.halt != .off && gf s pgMGMT MGMT_CFG_EN == 1

/-- A command of the target: without a correct PEC where one is required it is discarded (R510, R517). -/
def mgmtCmd (pecOk : Bool) (f : State → State) (s : State) : State :=
  if !mgmtOn s then s
  else if gf s pgMGMT MGMT_CFG_PEC_REQ == 1 && !pecOk then raise pgMGMT 0 (tallyAdd pgMGMT 1 1 s)
  else f s

/-- A command completed (R517). -/
def mgmtDone (s : State) : State := tallyAdd pgMGMT 0 1 s

/-- SMB_ADDR (R510). -/
def doSmbAddr (addr : W) (pecOk : Bool) (s : State) : State :=
  mgmtCmd pecOk (fun s =>
    if addr.toNat < 0x5000000 ∧ addr.toNat % 4 = 0 then mgmtDone (onStw (fun x => { x with smbAddr := addr.toNat }) s)
    else emit .smbNack s) s

/-- MGMT_LAST after a DATA access, and the accesses that R40 rejects (R516, R517). -/
def mgmtLast (code : Nat) (write : Bool) (s : State) : State :=
  let s1 := sf pgMGMT MGMT_LAST_VALID 1 (sf pgMGMT MGMT_LAST_WRITE (b2n write) (sf pgMGMT MGMT_LAST_CODE code s))
  mgmtDone (if code = eOK ∨ code = eNOT_READY then s1 else tallyAdd pgMGMT 2 1 s1)

/-- SMB_DATA_READ (R510): a failed read returns all ones. -/
def doSmbDataRead (pecOk : Bool) (s : State) : State :=
  mgmtCmd pecOk (fun s =>
    match regRead .steward s.stw.smbAddr 4 s with
    | (s1, c, v) => emit (.smb (leBytes 4 (if c = eOK then v.toNat else 2 ^ 32 - 1))) (mgmtLast c false s1)) s

/-- SMB_DATA_WRITE (R510). -/
def doSmbDataWrite (v : W) (pecOk : Bool) (s : State) : State :=
  mgmtCmd pecOk (fun s => match regWrite .steward s.stw.smbAddr 4 v s with | (s1, c) => mgmtLast c true s1) s

/-- SMB_STATUS (R510). -/
def doSmbStatus (pecOk : Bool) (s : State) : State :=
  mgmtCmd pecOk (fun s => emit (.smb (leBytes 2 (gf s pgMGMT MGMT_LAST_CODE))) (mgmtDone s)) s

/-- The ordering code "EVX4-960" as ASCII, padded with zeros (R510, R515). -/
def orderCode : List Byte := [0x45, 0x56, 0x58, 0x34, 0x2D, 0x39, 0x36, 0x30] ++ List.replicate 8 0

/-- IDENT (R510). -/
def doIdent (pecOk : Bool) (s : State) : State := mgmtCmd pecOk (fun s => emit (.smb orderCode) (mgmtDone s)) s

/-- A page has an event that is both set and enabled. -/
def eventsUp (s : State) (p : Nat) : Bool := rd s (p + EVT_STAT_V.off) &&& rd s (p + EVT_EN_V.off) != 0

/-- SMB_ALERT_N is low (R512). -/
def alertLow (s : State) : Bool :=
  (gf s pgMGMT MGMT_ALERT_SEL_TRAY == 1 && eventsUp s pgTRAY) || (gf s pgMGMT MGMT_ALERT_SEL_PCAP == 1 && eventsUp s pgPCAP) ||
  (gf s pgMGMT MGMT_ALERT_SEL_BOOT == 1 && eventsUp s pgBOOT) ||
  (gf s pgMGMT MGMT_ALERT_SEL_HTS == 1 && allDies.any fun h => eventsUp s (pgHTSof h)) ||
  (gf s pgMGMT MGMT_ALERT_SEL_VR == 1 && gf s pgMGMT MGMT_VR_FAULT != 0)

/-- ALERT_RESPONSE (R512): the address of the target, while it holds the line low; the line is not released. -/
def doAlertResponse (s : State) : State :=
  if mgmtOn s && alertLow s then emit (.smb [BitVec.ofNat 8 (gf s pgMGMT MGMT_ADDR_V)]) s else s

/-- VR_ALERT (R516, R517): the regulators of the dies of `mask` report a fault. -/
def doVrAlert (mask : Fin 16) (s : State) : State :=
  if s.stw.halt = .off then s else
  let new := [0, 1, 2, 3].filter fun d => bit mask.val d && !bit (gf s pgMGMT MGMT_VR_FAULT) d
  if new = [] then s
  else raise pgMGMT 1 (tallyAdd pgMGMT 3 new.length (forEach (fun d s => orBit pgMGMT MGMT_VR_FAULT d s) new s))

/-! ### Meanings of the commands -/

/-- SMB_ADDR (R510). -/
def execSmbAddr (addr : W) (pecOk : Bool) (s : State) : Host.Outcome State Fault Refusal :=
  .next (doSmbAddr addr pecOk s)
/-- SMB_DATA_READ (R510). -/
def execSmbDataRead (pecOk : Bool) (s : State) : Host.Outcome State Fault Refusal :=
  .next (doSmbDataRead pecOk s)
/-- SMB_DATA_WRITE (R510). -/
def execSmbDataWrite (v : W) (pecOk : Bool) (s : State) : Host.Outcome State Fault Refusal :=
  .next (doSmbDataWrite v pecOk s)
/-- SMB_STATUS (R510). -/
def execSmbStatus (pecOk : Bool) (s : State) : Host.Outcome State Fault Refusal :=
  .next (doSmbStatus pecOk s)
/-- IDENT (R510). -/
def execIdent (pecOk : Bool) (s : State) : Host.Outcome State Fault Refusal :=
  .next (doIdent pecOk s)
/-- ALERT_RESPONSE (R512). -/
def execAlertResponse (s : State) : Host.Outcome State Fault Refusal :=
  .next (doAlertResponse s)
/-- VR_ALERT (R516). -/
def execVrAlert (mask : Fin 16) (s : State) : Host.Outcome State Fault Refusal :=
  .next (doVrAlert mask s)

end Sys2Proof.Machine
end

