-- ==== Sys2Proof/Machine/Events.lean ====
section
/-!
DEFINITION. Events.lean: events of the package whose effect reaches past their own unit: a message that wakes the package (R464), a
failed training of a stairway side at boot (R441), and the loss or return of a die during a control-store load (R491).
-/
namespace Sys2Proof.Machine

/-- A message that arrives wakes an idle package before it proceeds (R464). -/
def arrives (p : PortId) (m : LinkMsg) (s : State) : State :=
  if (s.ports[p].inbox.any (·.msg == m)) || portActive s p then wakeNow s else s

/-- A step that can settle a control-store load (R491). -/
def settled (f : State → State) (s : State) : State := csSettle (f s)

/-- A training event of a stairway side: a failure before the side was ever ACTIVE is a boot fault (R441, R459), and a loss it reports
settles a control-store load. -/
def onEdge (d : DieId) (e : SideId) (f : State → State) (s : State) : State :=
  let s1 := f s
  csSettle (if swState s d e ≠ 6 then edgeFault d e s1 else s1)

/-! ### Meanings of the commands -/

/-- LINK_MESSAGE (R312). -/
def execLinkMessage (p : PortId) (msg : LinkMsg) (s : State) : Host.Outcome State Fault Refusal :=
  .next (dieStep (portDie p) (fun s => doLinkMessage p msg (arrives p msg s)) s)
/-- ADVERT (R394). -/
def execAdvert (d : DieId) (e : SideId) (adv : Advert) (s : State) : Host.Outcome State Fault Refusal :=
  .next (dieStep d (onEdge d e (doAdvert d e adv)) s)
/-- ADVERT_SEND (R393). -/
def execAdvertSend (d : DieId) (e : SideId) (s : State) : Host.Outcome State Fault Refusal :=
  .next (dieStep d (onEdge d e (doAdvertSend d e)) s)
/-- CAL_DONE (R394). -/
def execCalDone (d : DieId) (e : SideId) (fails : List (List Nat)) (s : State) : Host.Outcome State Fault Refusal :=
  .next (dieStep d (onEdge d e (doCalDone d e fails)) s)
/-- SW_MEASURE_DONE (R394). -/
def execSwMeasureDone (d : DieId) (e : SideId) (lats : List Nat) (s : State) : Host.Outcome State Fault Refusal :=
  .next (dieStep d (onEdge d e (doSwMeasureDone d e lats)) s)
/-- SW_TRAIN_TIMEOUT (R394). -/
def execSwTrainTimeout (d : DieId) (e : SideId) (s : State) : Host.Outcome State Fault Refusal :=
  .next (dieStep d (onEdge d e (doSwTrainTimeout d e)) s)
/-- ERROR_LIMIT (R395). -/
def execErrorLimit (d : DieId) (e : SideId) (s : State) : Host.Outcome State Fault Refusal :=
  .next (dieStep d (onEdge d e (doErrorLimit d e)) s)
/-- HOLD_EXPIRY (R397). -/
def execHoldExpiry (d : DieId) (e : SideId) (s : State) : Host.Outcome State Fault Refusal :=
  .next (dieStep d (onEdge d e (doHoldExpiry d e)) s)
/-- RESET_NOTICE (R394). -/
def execResetNotice (d : DieId) (e : SideId) (s : State) : Host.Outcome State Fault Refusal :=
  .next (dieStep d (onEdge d e (doResetNotice d e)) s)
/-- CLOCK_ABSENT (R398). -/
def execClockAbsent (d : DieId) (e : SideId) (s : State) : Host.Outcome State Fault Refusal :=
  .next (dieStep d (onEdge d e (doClockAbsent d e)) s)
/-- PEER_DROP (R398). -/
def execPeerDrop (reporter : DieId) (p : DieId) (s : State) : Host.Outcome State Fault Refusal :=
  .next (clocked (settled (doPeerDrop reporter p)) s)
/-- HATCH_SILENT (R398). -/
def execHatchSilent (p : DieId) (s : State) : Host.Outcome State Fault Refusal :=
  .next (clocked (settled (doHatchSilent p)) s)
/-- HATCH_LOSS_REPORT (R398). -/
def execHatchLossReport (p : DieId) (k : LossReport) (s : State) : Host.Outcome State Fault Refusal :=
  .next (clocked (settled (doHatchLossReport p k)) s)
/-- HATCH_MODULE_FAIL (R403). -/
def execHatchModuleFail (h : DieId) (m : Fin 2) (s : State) : Host.Outcome State Fault Refusal :=
  .next (clocked (settled (doHatchModuleFail h m)) s)
/-- REJOIN_READY (R401). -/
def execRejoinReady (h : DieId) (ok : Bool) (s : State) : Host.Outcome State Fault Refusal :=
  .next (clocked (settled (doRejoinReady h ok)) s)
/-- STAIRWAY_UNIT_RECEIVE (R395). -/
def execStairwayUnitReceive (d : DieId) (e : SideId) (flight : Fin 16) (u : SwUnit) (s : State) : Host.Outcome State Fault Refusal :=
  .next (dieStep d (onEdge d e (doStairwayUnitReceive d e flight u)) s)

end Sys2Proof.Machine
end

