-- ==== Sys2Proof/Machine/Dispatch.lean ====
section
/-!
DEFINITION. Dispatch.lean: one arm per command of the table.
-/
namespace Sys2Proof.Machine

/-- What a command does to the state, its queue apart. -/
def exec (i : Instr) (s : State) : Host.Outcome State Fault Refusal :=
  match i with
  | .powerOnReset env => Sys2Proof.Machine.execPowerOnReset env s
  | .strapSample d v => Sys2Proof.Machine.execStrapSample d v s
  | .posReport h r => Sys2Proof.Machine.execPosReport h r s
  | .dieReportTimeout d => Sys2Proof.Machine.execDieReportTimeout d s
  | .vrAnswerTimeout d => Sys2Proof.Machine.execVrAnswerTimeout d s
  | .fillDone d => Sys2Proof.Machine.execFillDone d s
  | .pwrgdFall => Sys2Proof.Machine.execPwrgdFall s
  | .perst => Sys2Proof.Machine.execPerst s
  | .thermTrip d sensor => Sys2Proof.Machine.execThermTrip d sensor s
  | .tripLogWrite => Sys2Proof.Machine.execTripLogWrite s
  | .coolantStop => Sys2Proof.Machine.execCoolantStop s
  | .coolantOkStable => Sys2Proof.Machine.execCoolantOkStable s
  | .restart r => Sys2Proof.Machine.execRestart r s
  | .brake => Sys2Proof.Machine.execBrake s
  | .brakeRelease => Sys2Proof.Machine.execBrakeRelease s
  | .droop d det => Sys2Proof.Machine.execDroop d det s
  | .droopHoldExpiry d => Sys2Proof.Machine.execDroopHoldExpiry d s
  | .powerSample watts => Sys2Proof.Machine.execPowerSample watts s
  | .capInterval => Sys2Proof.Machine.execCapInterval s
  | .sensorRead d raws temps => Sys2Proof.Machine.execSensorRead d raws temps s
  | .vfPointSelect => Sys2Proof.Machine.execVfPointSelect s
  | .idleEntry => Sys2Proof.Machine.execIdleEntry s
  | .wake => Sys2Proof.Machine.execWake s
  | .idleExitDone => Sys2Proof.Machine.execIdleExitDone s
  | .extest tap => Sys2Proof.Machine.execExtest tap s
  | .clamp tap => Sys2Proof.Machine.execClamp tap s
  | .highz tap => Sys2Proof.Machine.execHighz tap s
  | .idcode tap => Sys2Proof.Machine.execIdcode tap s
  | .bypass tap code => Sys2Proof.Machine.execBypass tap code s
  | .samplePreload tap data => Sys2Proof.Machine.execSamplePreload tap data s
  | .tickEn r d en => Sys2Proof.Machine.execTickEn r d en s
  | .run r d v => Sys2Proof.Machine.execRun r d v s
  | .resume r d => Sys2Proof.Machine.execResume r d s
  | .stop r d => Sys2Proof.Machine.execStop r d s
  | .doneReport rep => Sys2Proof.Machine.execDoneReport rep s
  | .dieDoneState d => Sys2Proof.Machine.execDieDoneState d s
  | .minPeriodExpiry => Sys2Proof.Machine.execMinPeriodExpiry s
  | .deadlineExpiry => Sys2Proof.Machine.execDeadlineExpiry s
  | .watchdogExpiry => Sys2Proof.Machine.execWatchdogExpiry s
  | .tickLost d => Sys2Proof.Machine.execTickLost d s
  | .tickReceive d port t => Sys2Proof.Machine.execTickReceive d port t s
  | .tickInEdge d => Sys2Proof.Machine.execTickInEdge d s
  | .tickEdge d => Sys2Proof.Machine.execTickEdge d s
  | .arrayStart d rank => Sys2Proof.Machine.execArrayStart d rank s
  | .rampStep d mx => Sys2Proof.Machine.execRampStep d mx s
  | .dispLoad r d slot => Sys2Proof.Machine.execDispLoad r d slot s
  | .validationDone d slot => Sys2Proof.Machine.execValidationDone d slot s
  | .dispArm r d slot => Sys2Proof.Machine.execDispArm r d slot s
  | .dispDisarm r d slot => Sys2Proof.Machine.execDispDisarm r d slot s
  | .dispUnload r d slot => Sys2Proof.Machine.execDispUnload r d slot s
  | .taskComplete d task => Sys2Proof.Machine.execTaskComplete d task s
  | .remoteDecrement d src srcTask task tag => Sys2Proof.Machine.execRemoteDecrement d src srcTask task tag s
  | .taskFault d task code => Sys2Proof.Machine.execTaskFault d task code s
  | .frameFailNotice d => Sys2Proof.Machine.execFrameFailNotice d s
  | .mm d task => Sys2Proof.Machine.execMm d task s
  | .mmXb d task => Sys2Proof.Machine.execMmXb d task s
  | .shadowSampleDone d => Sys2Proof.Machine.execShadowSampleDone d s
  | .arrayParityFault d mx => Sys2Proof.Machine.execArrayParityFault d mx s
  | .runTask d task => Sys2Proof.Machine.execRunTask d task s
  | .vNop d vx => Sys2Proof.Machine.execVNop d vx s
  | .vEnd d vx => Sys2Proof.Machine.execVEnd d vx s
  | .vLoop d vx => Sys2Proof.Machine.execVLoop d vx s
  | .vEndl d vx => Sys2Proof.Machine.execVEndl d vx s
  | .amovi d vx => Sys2Proof.Machine.execAmovi d vx s
  | .aaddi d vx => Sys2Proof.Machine.execAaddi d vx s
  | .aadd d vx => Sys2Proof.Machine.execAadd d vx s
  | .amovs d vx => Sys2Proof.Machine.execAmovs d vx s
  | .mpop d vx => Sys2Proof.Machine.execMpop d vx s
  | .sout d vx => Sys2Proof.Machine.execSout d vx s
  | .vbcast d vx => Sys2Proof.Machine.execVbcast d vx s
  | .vmovi d vx => Sys2Proof.Machine.execVmovi d vx s
  | .viota d vx => Sys2Proof.Machine.execViota d vx s
  | .vsel d vx => Sys2Proof.Machine.execVsel d vx s
  | .vmov d vx => Sys2Proof.Machine.execVmov d vx s
  | .vadd d vx => Sys2Proof.Machine.execVadd d vx s
  | .vsub d vx => Sys2Proof.Machine.execVsub d vx s
  | .vmul d vx => Sys2Proof.Machine.execVmul d vx s
  | .vfma d vx => Sys2Proof.Machine.execVfma d vx s
  | .vfnma d vx => Sys2Proof.Machine.execVfnma d vx s
  | .vmin d vx => Sys2Proof.Machine.execVmin d vx s
  | .vmax d vx => Sys2Proof.Machine.execVmax d vx s
  | .vabs d vx => Sys2Proof.Machine.execVabs d vx s
  | .vneg d vx => Sys2Proof.Machine.execVneg d vx s
  | .vdiv d vx => Sys2Proof.Machine.execVdiv d vx s
  | .vsqrt d vx => Sys2Proof.Machine.execVsqrt d vx s
  | .vrsqrt d vx => Sys2Proof.Machine.execVrsqrt d vx s
  | .vrcp d vx => Sys2Proof.Machine.execVrcp d vx s
  | .vexp d vx => Sys2Proof.Machine.execVexp d vx s
  | .vlog d vx => Sys2Proof.Machine.execVlog d vx s
  | .vtanh d vx => Sys2Proof.Machine.execVtanh d vx s
  | .cvtfi d vx => Sys2Proof.Machine.execCvtfi d vx s
  | .cvtif d vx => Sys2Proof.Machine.execCvtif d vx s
  | .iadd d vx => Sys2Proof.Machine.execIadd d vx s
  | .isub d vx => Sys2Proof.Machine.execIsub d vx s
  | .imul d vx => Sys2Proof.Machine.execImul d vx s
  | .iand d vx => Sys2Proof.Machine.execIand d vx s
  | .ior d vx => Sys2Proof.Machine.execIor d vx s
  | .ixor d vx => Sys2Proof.Machine.execIxor d vx s
  | .ishl d vx => Sys2Proof.Machine.execIshl d vx s
  | .ishr d vx => Sys2Proof.Machine.execIshr d vx s
  | .cmpeq d vx => Sys2Proof.Machine.execCmpeq d vx s
  | .cmpne d vx => Sys2Proof.Machine.execCmpne d vx s
  | .cmplt d vx => Sys2Proof.Machine.execCmplt d vx s
  | .cmple d vx => Sys2Proof.Machine.execCmple d vx s
  | .mand d vx => Sys2Proof.Machine.execMand d vx s
  | .mor d vx => Sys2Proof.Machine.execMor d vx s
  | .mandn d vx => Sys2Proof.Machine.execMandn d vx s
  | .mnot d vx => Sys2Proof.Machine.execMnot d vx s
  | .mset d vx => Sys2Proof.Machine.execMset d vx s
  | .vredsum d vx => Sys2Proof.Machine.execVredsum d vx s
  | .vredmax d vx => Sys2Proof.Machine.execVredmax d vx s
  | .compress d vx => Sys2Proof.Machine.execCompress d vx s
  | .expand d vx => Sys2Proof.Machine.execExpand d vx s
  | .vld d vx => Sys2Proof.Machine.execVld d vx s
  | .vst d vx => Sys2Proof.Machine.execVst d vx s
  | .vstg d vx => Sys2Proof.Machine.execVstg d vx s
  | .vstgx d vx => Sys2Proof.Machine.execVstgx d vx s
  | .vldx d vx => Sys2Proof.Machine.execVldx d vx s
  | .vstx d vx => Sys2Proof.Machine.execVstx d vx s
  | .vstc d vx => Sys2Proof.Machine.execVstc d vx s
  | .vlde d vx => Sys2Proof.Machine.execVlde d vx s
  | .vldacc d vx => Sys2Proof.Machine.execVldacc d vx s
  | .mld d vx => Sys2Proof.Machine.execMld d vx s
  | .mst d vx => Sys2Proof.Machine.execMst d vx s
  | .vrand d vx => Sys2Proof.Machine.execVrand d vx s
  | .lnFwd d task => Sys2Proof.Machine.execLnFwd d task s
  | .lnBwd d task => Sys2Proof.Machine.execLnBwd d task s
  | .rmsFwd d task => Sys2Proof.Machine.execRmsFwd d task s
  | .rmsBwd d task => Sys2Proof.Machine.execRmsBwd d task s
  | .smaxFwd d task => Sys2Proof.Machine.execSmaxFwd d task s
  | .smaxBwd d task => Sys2Proof.Machine.execSmaxBwd d task s
  | .loss d task => Sys2Proof.Machine.execLoss d task s
  | .mvCopy d task => Sys2Proof.Machine.execMvCopy d task s
  | .mvGather d task => Sys2Proof.Machine.execMvGather d task s
  | .scatter d task => Sys2Proof.Machine.execScatter d task s
  | .lineRequest d src addr k => Sys2Proof.Machine.execLineRequest d src addr k s
  | .lineResponse d addr data => Sys2Proof.Machine.execLineResponse d addr data s
  | .mom d task => Sys2Proof.Machine.execMom d task s
  | .adam d task => Sys2Proof.Machine.execAdam d task s
  | .feed d task => Sys2Proof.Machine.execFeed d task s
  | .reduce d task => Sys2Proof.Machine.execReduce d task s
  | .fold d task => Sys2Proof.Machine.execFold d task s
  | .tree d task => Sys2Proof.Machine.execTree d task s
  | .ceGather d task => Sys2Proof.Machine.execCeGather d task s
  | .side d task => Sys2Proof.Machine.execSide d task s
  | .sidewait d task => Sys2Proof.Machine.execSidewait d task s
  | .reshard d task => Sys2Proof.Machine.execReshard d task s
  | .contrib d msg => Sys2Proof.Machine.execContrib d msg s
  | .check d msg => Sys2Proof.Machine.execCheck d msg s
  | .ack d msg => Sys2Proof.Machine.execAck d msg s
  | .treeUp d msg => Sys2Proof.Machine.execTreeUp d msg s
  | .treeDown d msg => Sys2Proof.Machine.execTreeDown d msg s
  | .sideUp d msg => Sys2Proof.Machine.execSideUp d msg s
  | .sideDown d msg => Sys2Proof.Machine.execSideDown d msg s
  | .shard d msg => Sys2Proof.Machine.execShard d msg s
  | .move d msg => Sys2Proof.Machine.execMove d msg s
  | .refuse d msg => Sys2Proof.Machine.execRefuse d msg s
  | .ceAckTimeout d n => Sys2Proof.Machine.execCeAckTimeout d n s
  | .reshardArm r d epoch => Sys2Proof.Machine.execReshardArm r d epoch s
  | .reshardDisarm r d => Sys2Proof.Machine.execReshardDisarm r d s
  | .flitReceive p bytes fec => Sys2Proof.Machine.execFlitReceive p bytes fec s
  | .nak p seq => Sys2Proof.Machine.execNak p seq s
  | .linkMessage p msg => Sys2Proof.Machine.execLinkMessage p msg s
  | .lpEnable r p en => Sys2Proof.Machine.execLpEnable r p en s
  | .lpRetrain r p => Sys2Proof.Machine.execLpRetrain r p s
  | .pmdTrained p => Sys2Proof.Machine.execPmdTrained p s
  | .amLock p => Sys2Proof.Machine.execAmLock p s
  | .trainTimeout p => Sys2Proof.Machine.execTrainTimeout p s
  | .helloSend p => Sys2Proof.Machine.execHelloSend p s
  | .hello p h => Sys2Proof.Machine.execHello p h s
  | .probe p pr => Sys2Proof.Machine.execProbe p pr s
  | .lossOfLock p => Sys2Proof.Machine.execLossOfLock p s
  | .dead p => Sys2Proof.Machine.execDead p s
  | .autoRetrain p => Sys2Proof.Machine.execAutoRetrain p s
  | .rtSwap r d => Sys2Proof.Machine.execRtSwap r d s
  | .rtCopy r d => Sys2Proof.Machine.execRtCopy r d s
  | .swRetrain r d e => Sys2Proof.Machine.execSwRetrain r d e s
  | .advert d e adv => Sys2Proof.Machine.execAdvert d e adv s
  | .advertSend d e => Sys2Proof.Machine.execAdvertSend d e s
  | .calDone d e fails => Sys2Proof.Machine.execCalDone d e fails s
  | .swMeasureDone d e lats => Sys2Proof.Machine.execSwMeasureDone d e lats s
  | .swTrainTimeout d e => Sys2Proof.Machine.execSwTrainTimeout d e s
  | .errorLimit d e => Sys2Proof.Machine.execErrorLimit d e s
  | .holdExpiry d e => Sys2Proof.Machine.execHoldExpiry d e s
  | .resetNotice d e => Sys2Proof.Machine.execResetNotice d e s
  | .clockAbsent d e => Sys2Proof.Machine.execClockAbsent d e s
  | .peerDrop reporter p => Sys2Proof.Machine.execPeerDrop reporter p s
  | .hatchSilent p => Sys2Proof.Machine.execHatchSilent p s
  | .hatchLossReport p k => Sys2Proof.Machine.execHatchLossReport p k s
  | .hatchModuleFail h m => Sys2Proof.Machine.execHatchModuleFail h m s
  | .dieReset r h kind => Sys2Proof.Machine.execDieReset r h kind s
  | .rejoinReady h ok => Sys2Proof.Machine.execRejoinReady h ok s
  | .rejoin r h => Sys2Proof.Machine.execRejoin r h s
  | .scrubRead d word => Sys2Proof.Machine.execScrubRead d word s
  | .scrubSlow d => Sys2Proof.Machine.execScrubSlow d s
  | .injArm r d syms => Sys2Proof.Machine.execInjArm r d syms s
  | .loftFlush r d => Sys2Proof.Machine.execLoftFlush r d s
  | .updValid r d => Sys2Proof.Machine.execUpdValid r d s
  | .updInit r d => Sys2Proof.Machine.execUpdInit r d s
  | .updForget r d => Sys2Proof.Machine.execUpdForget r d s
  | .ladderValid r d => Sys2Proof.Machine.execLadderValid r d s
  | .ladderForget r d => Sys2Proof.Machine.execLadderForget r d s
  | .exportCopyDone d => Sys2Proof.Machine.execExportCopyDone d s
  | .exportStreamReceive d off bytes => Sys2Proof.Machine.execExportStreamReceive d off bytes s
  | .exportTableCheck r d v => Sys2Proof.Machine.execExportTableCheck r d v s
  | .twinDigest msg => Sys2Proof.Machine.execTwinDigest msg s
  | .twinTimeout => Sys2Proof.Machine.execTwinTimeout s
  | .replayMode r d mode => Sys2Proof.Machine.execReplayMode r d mode s
  | .jrnlRelWrite r d v => Sys2Proof.Machine.execJrnlRelWrite r d v s
  | .bar0Read off width => Sys2Proof.Machine.execBar0Read off width s
  | .bar2Read off len => Sys2Proof.Machine.execBar2Read off len s
  | .bar2Write off data => Sys2Proof.Machine.execBar2Write off data s
  | .hostNeg r v => Sys2Proof.Machine.execHostNeg r v s
  | .cmdNop => Sys2Proof.Machine.execCmdNop s
  | .regWrite => Sys2Proof.Machine.execRegWrite s
  | .copyIn => Sys2Proof.Machine.execCopyIn s
  | .copyOut => Sys2Proof.Machine.execCopyOut s
  | .feedPush => Sys2Proof.Machine.execFeedPush s
  | .qEn r q en => Sys2Proof.Machine.execQEn r q en s
  | .qMark r q => Sys2Proof.Machine.execQMark r q s
  | .qRewind r q => Sys2Proof.Machine.execQRewind r q s
  | .qTruncate r q => Sys2Proof.Machine.execQTruncate r q s
  | .qPop r q => Sys2Proof.Machine.execQPop r q s
  | .qRdWrite r q v => Sys2Proof.Machine.execQRdWrite r q v s
  | .qRelWrite r q v => Sys2Proof.Machine.execQRelWrite r q v s
  | .qDoorbell r q n => Sys2Proof.Machine.execQDoorbell r q n s
  | .submissionFetch => Sys2Proof.Machine.execSubmissionFetch s
  | .queueIrqDelay q => Sys2Proof.Machine.execQueueIrqDelay q s
  | .cfgWrite r slot => Sys2Proof.Machine.execCfgWrite r slot s
  | .cfgVerify r slot => Sys2Proof.Machine.execCfgVerify r slot s
  | .cfgErase r slot => Sys2Proof.Machine.execCfgErase r slot s
  | .cfgDone => Sys2Proof.Machine.execCfgDone s
  | .attGo r => Sys2Proof.Machine.execAttGo r s
  | .attDone => Sys2Proof.Machine.execAttDone s
  | .floorReq r v => Sys2Proof.Machine.execFloorReq r v s
  | .seal r => Sys2Proof.Machine.execSeal r s
  | .reboot r => Sys2Proof.Machine.execReboot r s
  | .fenceReq r page req => Sys2Proof.Machine.execFenceReq r page req s
  | .selftest r d pageNum => Sys2Proof.Machine.execSelftest r d pageNum s
  | .calibrate r d pageNum => Sys2Proof.Machine.execCalibrate r d pageNum s
  | .svcDone d res detail rows => Sys2Proof.Machine.execSvcDone d res detail rows s
  | .csLoad r d slot => Sys2Proof.Machine.execCsLoad r d slot s
  | .rmaPrep r => Sys2Proof.Machine.execRmaPrep r s
  | .rmaDone => Sys2Proof.Machine.execRmaDone s
  | .smbAddr addr pecOk => Sys2Proof.Machine.execSmbAddr addr pecOk s
  | .smbDataRead pecOk => Sys2Proof.Machine.execSmbDataRead pecOk s
  | .smbDataWrite v pecOk => Sys2Proof.Machine.execSmbDataWrite v pecOk s
  | .smbStatus pecOk => Sys2Proof.Machine.execSmbStatus pecOk s
  | .ident pecOk => Sys2Proof.Machine.execIdent pecOk s
  | .alertResponse => Sys2Proof.Machine.execAlertResponse s
  | .vrAlert mask => Sys2Proof.Machine.execVrAlert mask s
  | .evtForce r page v => Sys2Proof.Machine.execEvtForce r page v s
  | .tallyClr r page => Sys2Proof.Machine.execTallyClr r page s
  | .tallyClrAll r page => Sys2Proof.Machine.execTallyClrAll r page s
  | .lastErrClear r page => Sys2Proof.Machine.execLastErrClear r page s
  | .readLoLatch r addr => Sys2Proof.Machine.execReadLoLatch r addr s
  | .writeLoShadow r addr v => Sys2Proof.Machine.execWriteLoShadow r addr v s
  | .writeHiCommit r addr v => Sys2Proof.Machine.execWriteHiCommit r addr v s
  | .registerWrite r addr width v => Sys2Proof.Machine.execRegisterWrite r addr width v s
  | .stairwayUnitReceive d e flight u => Sys2Proof.Machine.execStairwayUnitReceive d e flight u s
  | .coolantOkPulse => Sys2Proof.Machine.execCoolantOkPulse s

end Sys2Proof.Machine
end

