-- ==== Sys2Proof/Machine/Step.lean ====
section
/-!
DEFINITION. Step.lean: one step of the block: the command at the front of the queue runs with the rest of the queue; on an
empty queue one clock of the package reference passes.
-/
namespace Sys2Proof.Machine

/-- The core clock edges that a stretch drops in one reference clock (R471, R479): DEPTH of every 8, of 1.6 edges, counted in fifths. -/
def stretchClock (d : DieId) (s : State) : State :=
  let p := pgPWR d
  if gf s p PWR_DROOP_CFG_EN = 1 ∧ gf s p PWR_DROOP_STAT_ACTIVE ≠ 0 then tallyQty p 1 20480 (gf s p PWR_DROOP_CFG_DEPTH) s else s

/-- What one reference clock does on a die whose clocks run: a stretched core clock drops edges (R471), it charges its phase timer (R84) and the
arrays that wait for a shadow copy (R163), and a tick that an edge in training held back arrives once it can (R396). -/
def dieClock (d : DieId) (s : State) : State := tickRelease d (chargeShadow d (chargePhase d (stretchClock d s)))

/-- What one reference clock with no command does: the time stamp counts (R58), and every live die has its clock. While the package is held in
reset nothing does. -/
def idleStep (s : State) : State :=
  if s.stw.halt = .off then s else clocked (fun s => forEach dieClock (liveDies s) s) { s with time := s.time + 1 }

/-- One step of the block. -/
def step (s : State) : Host.Outcome State Fault Refusal :=
  match s.pending with
  | [] => .next (idleStep s)
  | c :: rest => exec c { s with pending := rest }

/-- `s` with the command that a table word spells at the front of its queue; the table gives no row any bits, so no word
spells one and `s` is unchanged. -/
def State.withFetchWord (s : State) (nbits w : Nat) : State :=
  match decodeTableWord nbits w with
  | some c => { s with pending := c :: s.pending }
  | none => s

end Sys2Proof.Machine
end

