-- ==== Sys2Proof/Safety.lean ====
section
/-!
DEFINITION. Safety.lean: what a sound state of the package is, in the terms the statements use: every sparse map in its
canonical form, so that equal contents are equal data; and what counting and raising an event may change.
-/
namespace Sys2Proof.Machine

/-- Every sparse map of the package level is in its canonical form: keys strictly rising, and no entry equal to what an unlisted
key reads as. These are the registers, the selectors, latches and shadows of each requester, the tallies with their snapshots and
remainders, package memory, host memory and the error map. -/
def State.wf (s : State) : Bool :=
  swf regReset s.regs && swf z32 s.sel && swf z32 s.hiLatch && swf zo s.loShadow && swf zt s.tally && swf zt s.snap &&
    swf zn s.rem && Memory.wf s.mem && swf zb s.hostMem && swf zn s.errs

/-- The registers that counting and raising an event on the pages `ps` may change: EVT_STAT of those pages (R47), and on the event
queue's page EVT_STAT and PROD (R424, R428). -/
def bookReg (ps : List Nat) (a : Nat) : Bool :=
  a == pgQ 2 + Q_PROD_LO_V.off || a == pgQ 2 + Q_PROD_LO_V.off + 4 || a == pgQ 2 + EVT_STAT_V.off ||
    ps.any fun p => a == p + EVT_STAT_V.off

/-- `u` is `s` but for tallies counted and events raised on the pages `ps` (R47, R53, R420): EVT_STAT of those pages, live tallies and
their remainders of those pages and of the event queue's page, and what an entry of the event queue changes: its PROD and EVT_STAT, host
memory, its drop count and the outputs. With the event queue not enabled, no host memory, drop count or output changes. -/
def Booked (ps : List Nat) (s u : State) : Prop :=
  u = { s with regs := u.regs, tally := u.tally, rem := u.rem, hostMem := u.hostMem, queues := u.queues, out := u.out } ∧
  (∀ a, bookReg ps a = false → rd u a = rd s a) ∧
  (∀ k, (∀ p ∈ pgQ 2 :: ps, k < p ∨ p + 256 ≤ k) → sget zt u.tally k = sget zt s.tally k ∧ sget zn u.rem k = sget zn s.rem k) ∧
  (gf s (pgQ 2) Q_CTRL_EN = 0 → u.hostMem = s.hostMem ∧ u.queues = s.queues ∧ u.out = s.out)

/-! ### Vector engines -/

/-- Lane `j` of V register `r`, and bit `j` of M register `r` (R175). -/
def vlane (k : Vx) (r j : Nat) : W := sget z32 k.v (1024 * r + j)
/-- R175. -/ def mbit (k : Vx) (r j : Nat) : Bool := sget zbool k.m (1024 * (r % 16) + j)

/-- Lane `j` is active: unmasked, or under a mask whose bit is 1 (R179). -/
def activeAt (k : Vx) (w : VIn) (j : Nat) : Bool := !w.me || mbit k w.msk j

/-- Die `d` is powered and clocked, and engine `x` has come, in task `t`, to the instruction `w` of opcode `op` at index `pc`, which is
not the last of the program store; and the trunk has failed to write no word of the task (R230, R378). -/
def vxAt (s : State) (d : DieId) (x : Fin 2) (op t pc : Nat) (w : VIn) : Prop :=
  s.stw.halt = .none ∧ dieUp s d = true ∧ vxNext s d x = some (t, pc, w) ∧ w.op = op ∧ pc + 1 < s.dies[d].prog.length ∧
    s.dies[d].vx[x].trunkErr = 0

/-- Command `i` executes on engine `x`: the engine goes on at index `pc`, otherwise becomes as `k` has it, and nothing else of the
package changes but what counting the instruction changes. -/
def vxDoes (i : Instr) (s : State) (d : DieId) (x : Fin 2) (pc : Nat) (k : Vx) : Prop :=
  ∃ u, exec i s = .next u ∧ Booked [pgVXof d x.val] (onVx d x (fun _ => { k with pc := pc }) s) u

/-- `k` is `old` but for V registers, of which only `w.vd` changes: an active lane takes `new`, an inactive one becomes 0 with MZ and
stays without (R179, R184). -/
def lanesBecome (old k : Vx) (w : VIn) (new : Nat → W) : Prop :=
  k = { old with v := k.v } ∧ ∀ r j, j < 1024 →
    vlane k r j = if r = w.vd then (if activeAt old w j then new j else if w.mz then 0 else vlane old w.vd j) else vlane old r j

/-- `k` is `old` but for M registers, of which only `w.vd` changes, to `new`. -/
def bitsBecome (old k : Vx) (w : VIn) (new : Nat → Bool) : Prop :=
  k = { old with m := k.m } ∧ ∀ r j, j < 1024 → mbit k r j = if r % 16 = w.vd % 16 then new j else mbit old r j

/-! ### What a view reaches -/

/-- No code word holds a bad symbol, and no error injection is armed (R374, R385). -/
def clean (s : State) : Prop := s.errs = [] ∧ ∀ h : DieId, gf s (pgINTEG h) INJ_CTRL_ARM = 0

/-- Address and length of the bytes that hold elements `i` to `i + n - 1` of row ρ (R131). -/
def View.span (v : View) (row i n : Nat) : Nat × Nat :=
  (v.rowAddr row + i * fmtBits v.fmt / 8, cdiv (i * fmtBits v.fmt % 8 + n * fmtBits v.fmt) 8)

/-- The same, with the bytes that hold the scale codes and zero points of their groups (R132). -/
def View.spans (v : View) (row i n : Nat) : List (Nat × Nat) :=
  let g := v.group row i
  let cnt := v.group row (i + n - 1) - g + 1
  v.span row i n :: if v.grouped then
    (v.scaleBase + g, cnt) :: if v.fmt = 6 then [(v.t.auxBase + g / 2, cdiv (g % 2 + cnt) 2)] else [] else []

/-- The units of die `d` may access every element of a view (R23, R24, R518). -/
def viewOpen (d : DieId) (v : View) (write : Bool) (s : State) : Prop :=
  ∀ row i n, row < v.t.rows → 0 < n → i + n ≤ v.t.dim 0 → ∀ x ∈ v.spans row i n, accessCheck (.engine d) x.1 x.2 write s = eOK

/-- Every byte of memory outside the ranges `xs` reads as before, but for the words that a trunk holds, which it writes when
another requester touches them, or to make room (R230). -/
def onlyStores (xs : List (Nat × Nat)) (s u : State) : Prop :=
  ∀ a, (∀ x ∈ xs, a < x.1 ∨ x.1 + x.2 ≤ a) → (∀ h : DieId, ∀ t ∈ s.dies[h].trunk, a < t.addr ∨ t.addr + 64 ≤ a) →
    sget zb u.mem a = sget zb s.mem a

/-- Command `i` executes on engine `x` and goes on at the next instruction with the engine otherwise as `k` has it; it stores to
no byte outside the ranges `xs`, and changes no register but those of its counting, of the watch's, and the trunk's level. -/
def vxAccesses (i : Instr) (s : State) (d : DieId) (x : Fin 2) (pc : Nat) (k : Vx → Prop) (xs : List (Nat × Nat)) : Prop :=
  ∃ u v, exec i s = .next u ∧ u.dies[d].vx[x] = { v with pc := pc + 1 } ∧ k v ∧ onlyStores xs s u ∧
    ∀ a, bookReg [pgVXof d x.val, pgWATCH d] a = false → a ≠ pgTRUNK d + TRUNK_STAT_V.off → rd u a = rd s a

/-! ### What a command answers -/

/-- Command `i` answers a next state, and `P` holds of it. -/
def yields (i : Instr) (s : State) (P : State → Prop) : Prop := ∃ u, exec i s = .next u ∧ P u

/-- The write of `v` to the register at BAR0 offset `a` by requester `r` passes every check of R40 and has the form its register allows
(R11, R38); it finds the package awake, and no control-store load in course. -/
def mayWrite (r : Req) (a : Nat) (v : W) (s : State) : Prop :=
  reqActs s r = true ∧ wakesWrite r a v s = false ∧ s.stw.csJob = none ∧
    ∃ l, checkAccess r a 4 true s = .ok l ∧ sealBars s l v = false ∧ formOk l.spec v = true

/-- The same of a write that asks for `n` in one field and keeps the others listed. -/
def mayAsk (r : Req) (p : Nat) (f : Fld) (n : Nat) (keep : List Fld) (s : State) : Prop :=
  mayWrite r (p + f.off) (setFld (keeping s p keep) f n) s

/-- Die `d` is live, powered and clocked. -/
def runs (s : State) (d : DieId) : Prop := s.stw.halt = .none ∧ dieUp s d = true ∧ dieLive s d = true

/-- Event `b` of the page at `p` is set in EVT_STAT (R47). -/
def eventSet (s : State) (p b : Nat) : Prop := bit (rd s (p + EVT_STAT_V.off)).toNat b = true

end Sys2Proof.Machine
end

