-- ==== Sys2Proof/WellFormed.lean ====
section
/-!
DEFINITION. WellFormed.lean: what a command's operands must satisfy to be one of the table's commands: the widths of the fields that a
message, a report or a register access carries, and the lengths of its data. A command outside these ranges is no event of an X4.
-/
namespace Sys2Proof

/-- A number of at most `w` bits. -/
def ltb (n w : Nat) : Bool := decide (n < 2 ^ w)

/-- What a power-on reset finds names existing dies, units, channels, sides, flights, wires, modules, stacks, arrays and rows. -/
def envOk (e : BootEnv) : Bool :=
  e.checkerFail.all (fun x => decide (x.1 < 4) && ltb x.2.1 8 && ltb x.2.2 8) &&
  e.wireFail.all (fun x => decide (x.1 < 4) && decide (x.2.1 < 2) && decide (x.2.2.1 < 16) && decide (x.2.2.2 < 70)) &&
  e.hatchFail.all (fun x => decide (x.1 < 4) && decide (x.2 < 2)) && e.stackFail.all (fun x => decide (x.1 < 4) && decide (x.2 < 3)) &&
  e.rowFaults.all (fun x => decide (x.1 < 4) && decide (x.2.1 < 7) && decide (x.2.2 < 256))

/-- The fields of a report have their widths (R61). -/
def reportOk (r : Report) : Bool :=
  ltb r.member 12 && ltb r.frame 16 && ltb r.openTick 64 && ltb r.sentNf 8 && ltb r.sentSpike 8 && ltb r.failCode 16

/-- A member list is ascending. -/
def ascending : List Nat → Bool
  | a :: b :: t => decide (a < b) && ascending (b :: t)
  | _ => true

/-- The fields of a tick have their widths (R73); members follow only with EXCL or FAILED, in ascending order. -/
def tickOk (t : Tick) : Bool :=
  ltb t.tick 64 && ltb t.step 64 && ltb t.frame 16 && ltb t.type 4 && ltb t.laggard 12 && ltb t.acc 16 && ltb t.slice 16 &&
  ltb t.epoch 16 && ltb t.pgen 16 && ltb t.masterTs 64 && ascending t.members && t.members.all (ltb · 12) &&
  (t.members.isEmpty || t.excl || t.failed)

/-- The trailer fields of a message have their widths (R292), and its payload is whole flits. -/
def msgOk (m : LinkMsg) : Bool :=
  decide (m.cls < 4) && ltb m.kind 3 && ltb m.hops 4 && ltb m.slice 16 && ltb m.dst 12 && ltb m.src 12 && ltb m.flow 16 &&
  ltb m.epoch 16 && ltb m.pgen 16 && decide (0 < m.payload.length) && m.payload.length % 256 == 0 &&
  decide (m.payload.length ≤ 16384)

/-- The header fields of a collective-engine message have their widths (R341). -/
def ceMsgOk (m : CeMsg) : Bool :=
  ltb m.srcMember 12 && ltb m.epoch 16 && decide (m.wire ≤ 1) && ltb m.srcPos 16 && decide (m.srcDie < 4) && decide (m.dstDie < 4) &&
  ltb m.att 64 && ltb m.frame 16 && ltb m.bucket 16 && ltb m.offset 64 && ltb m.count 32 && ltb m.version 64 && ltb m.digest 64 &&
  ltb m.reason 16 && ltb m.ansOp 8 && ltb m.slen 32

/-- The fields of a hello have their widths (R302). -/
def helloOk (h : Hello) : Bool :=
  ltb h.slice 16 && ltb h.member 12 && ltb h.port 4 && decide (h.role ≤ 2) && ltb h.pgen 16 && ltb h.major 8 && ltb h.minor 8

/-- Time stamps of a probe (R304). -/
def probeOk : Probe → Bool
  | .request a => ltb a 64
  | .result a b c => ltb a 64 && ltb b 64 && ltb c 64

/-- RS(544,514) corrects at most 15 symbols of a codeword (R289). -/
def fecOk (f : Fec) : Bool := decide (f.fixed ≤ f.symbols) && decide (f.symbols ≤ 15 * f.fixed)

/-- A line request lies within one line. -/
def lineOk : LineKind → Bool
  | .read n _ _ => decide (0 < n) && decide (n ≤ 256)
  | .write bs => decide (0 < bs.length) && decide (bs.length ≤ 256)

/-- The base of a register page below the end of the steward's register space (R35, R412). -/
def pageOk (p : Nat) : Bool := decide (p < 0x5000000) && p % 0x1000 == 0

/-- A register address a requester can form: the host's lie in BAR0 below 0x0500_0000, as do the steward's and a die's. -/
def reqAddrOk (_ : Req) (a : Nat) : Bool := decide (a < 0x5000000)

/-- The operands of a command lie in their ranges. -/
def wellFormed : Instr → Bool
  | .powerOnReset env => envOk env
  | .powerSample watts => ltb watts 16
  | .sensorRead _ raws temps => raws.length == 16 && raws.all (fun v => decide (-4096 ≤ v) && decide (v < 4096)) && temps.length == 3 && temps.all (ltb · 8)
  | .bypass _ code => ltb code 8
  | .doneReport rep => reportOk rep
  | .tickReceive _ _ t => tickOk t
  | .taskComplete _ task => ltb task 18
  | .remoteDecrement _ _ srcTask task tag => ltb srcTask 18 && ltb task 18 && ltb tag 64
  | .taskFault _ task code => ltb task 18 && errCodes.contains code
  | .mm _ task => ltb task 18
  | .mmXb _ task => ltb task 18
  | .runTask _ task => ltb task 18
  | .lnFwd _ task => ltb task 18
  | .lnBwd _ task => ltb task 18
  | .rmsFwd _ task => ltb task 18
  | .rmsBwd _ task => ltb task 18
  | .smaxFwd _ task => ltb task 18
  | .smaxBwd _ task => ltb task 18
  | .loss _ task => ltb task 18
  | .mvCopy _ task => ltb task 18
  | .mvGather _ task => ltb task 18
  | .scatter _ task => ltb task 18
  | .lineRequest _ _ addr k => ltb addr 52 && lineOk k
  | .lineResponse _ addr data => ltb addr 52 && decide (data.length ≤ 256)
  | .mom _ task => ltb task 18
  | .adam _ task => ltb task 18
  | .feed _ task => ltb task 18
  | .reduce _ task => ltb task 18
  | .fold _ task => ltb task 18
  | .tree _ task => ltb task 18
  | .ceGather _ task => ltb task 18
  | .side _ task => ltb task 18
  | .sidewait _ task => ltb task 18
  | .reshard _ task => ltb task 18
  | .contrib _ msg => ceMsgOk msg
  | .check _ msg => ceMsgOk msg
  | .ack _ msg => ceMsgOk msg
  | .treeUp _ msg => ceMsgOk msg
  | .treeDown _ msg => ceMsgOk msg
  | .sideUp _ msg => ceMsgOk msg
  | .sideDown _ msg => ceMsgOk msg
  | .shard _ msg => ceMsgOk msg
  | .move _ msg => ceMsgOk msg
  | .refuse _ msg => ceMsgOk msg
  | .ceAckTimeout _ n => ltb n 32
  | .reshardArm _ _ epoch => ltb epoch 16
  | .flitReceive _ bytes fec => bytes.length == 288 && fecOk fec
  | .nak _ seq => ltb seq 16
  | .linkMessage _ msg => msgOk msg
  | .hello _ h => helloOk h
  | .probe _ pr => probeOk pr
  | .advert _ _ adv => ltb adv.ep 16 && ltb adv.state 4
  | .calDone _ _ fails => fails.length == 16 && fails.all (fun w => w.all fun n => decide (n < 70))
  | .swMeasureDone _ _ lats => lats.length == 16 && lats.all (ltb · 32)
  | .scrubRead _ word => ltb word 46
  | .exportStreamReceive _ off bytes => ltb off 64 && decide (bytes.length ≤ 65536)
  | .twinDigest msg => msgOk msg
  | .bar0Read off width => decide (off < 0x8000000) && [1, 2, 4, 8].contains width
  | .bar2Read off len => decide (0 < len) && decide (off + len ≤ 2 ^ 36)
  | .bar2Write off data => decide (0 < data.length) && decide (off + data.length ≤ 2 ^ 36)
  | .fenceReq _ page _ => pageOk page
  | .selftest _ _ pageNum => ltb pageNum 12
  | .calibrate _ _ pageNum => ltb pageNum 12
  | .svcDone _ res detail rows => (0 :: errCodes).contains res && ltb detail 32 && rows.all (decide <| · < 2048)
  | .evtForce _ page _ => pageOk page
  | .tallyClr _ page => pageOk page
  | .tallyClrAll _ page => pageOk page
  | .lastErrClear _ page => pageOk page
  | .readLoLatch r addr => reqAddrOk r addr
  | .writeLoShadow r addr _ => reqAddrOk r addr
  | .writeHiCommit r addr _ => reqAddrOk r addr
  | .registerWrite _ addr width _ => decide (addr < 0x8000000) && [1, 2, 4, 8].contains width
  | .stairwayUnitReceive _ _ _ u => u.data.length == 256
  | .strapSample _ _ | .posReport _ _ | .dieReportTimeout _ | .vrAnswerTimeout _ | .fillDone _ | .pwrgdFall | .perst
  | .thermTrip _ _ | .tripLogWrite | .coolantStop | .coolantOkStable | .restart _ | .brake | .brakeRelease | .droop _ _
  | .droopHoldExpiry _ | .capInterval | .vfPointSelect | .idleEntry | .wake | .idleExitDone | .extest _ | .clamp _
  | .highz _ | .idcode _ | .samplePreload _ _ | .tickEn _ _ _ | .run _ _ _ | .resume _ _ | .stop _ _ | .dieDoneState _
  | .minPeriodExpiry | .deadlineExpiry | .watchdogExpiry | .tickLost _ | .tickInEdge _ | .tickEdge _ | .arrayStart _ _
  | .rampStep _ _ | .dispLoad _ _ _ | .validationDone _ _ | .dispArm _ _ _ | .dispDisarm _ _ _ | .dispUnload _ _ _
  | .frameFailNotice _ | .shadowSampleDone _ | .arrayParityFault _ _ | .vNop _ _ | .vEnd _ _ | .vLoop _ _ | .vEndl _ _
  | .amovi _ _ | .aaddi _ _ | .aadd _ _ | .amovs _ _ | .mpop _ _ | .sout _ _ | .vbcast _ _ | .vmovi _ _ | .viota _ _
  | .vsel _ _ | .vmov _ _ | .vadd _ _ | .vsub _ _ | .vmul _ _ | .vfma _ _ | .vfnma _ _ | .vmin _ _ | .vmax _ _ | .vabs _ _
  | .vneg _ _ | .vdiv _ _ | .vsqrt _ _ | .vrsqrt _ _ | .vrcp _ _ | .vexp _ _ | .vlog _ _ | .vtanh _ _ | .cvtfi _ _
  | .cvtif _ _ | .iadd _ _ | .isub _ _ | .imul _ _ | .iand _ _ | .ior _ _ | .ixor _ _ | .ishl _ _ | .ishr _ _ | .cmpeq _ _
  | .cmpne _ _ | .cmplt _ _ | .cmple _ _ | .mand _ _ | .mor _ _ | .mandn _ _ | .mnot _ _ | .mset _ _ | .vredsum _ _
  | .vredmax _ _ | .compress _ _ | .expand _ _ | .vld _ _ | .vst _ _ | .vstg _ _ | .vstgx _ _ | .vldx _ _ | .vstx _ _
  | .vstc _ _ | .vlde _ _ | .vldacc _ _ | .mld _ _ | .mst _ _ | .vrand _ _ | .reshardDisarm _ _ | .lpEnable _ _ _
  | .lpRetrain _ _ | .pmdTrained _ | .amLock _ | .trainTimeout _ | .helloSend _ | .lossOfLock _ | .dead _ | .autoRetrain _
  | .rtSwap _ _ | .rtCopy _ _ | .swRetrain _ _ _ | .advertSend _ _ | .swTrainTimeout _ _ | .errorLimit _ _ | .holdExpiry _ _
  | .resetNotice _ _ | .clockAbsent _ _ | .peerDrop _ _ | .hatchSilent _ | .hatchLossReport _ _ | .hatchModuleFail _ _
  | .dieReset _ _ _ | .rejoinReady _ _ | .rejoin _ _ | .scrubSlow _ | .injArm _ _ _ | .loftFlush _ _ | .updValid _ _
  | .updInit _ _ | .updForget _ _ | .ladderValid _ _ | .ladderForget _ _ | .exportCopyDone _ | .exportTableCheck _ _ _
  | .twinTimeout | .replayMode _ _ _ | .jrnlRelWrite _ _ _ | .hostNeg _ _ | .cmdNop | .regWrite | .copyIn | .copyOut
  | .feedPush | .qEn _ _ _ | .qMark _ _ | .qRewind _ _ | .qTruncate _ _ | .qPop _ _ | .qRdWrite _ _ _ | .qRelWrite _ _ _
  | .qDoorbell _ _ _ | .submissionFetch | .queueIrqDelay _ | .cfgWrite _ _ | .cfgVerify _ _ | .cfgErase _ _ | .cfgDone
  | .attGo _ | .attDone | .floorReq _ _ | .seal _ | .reboot _ | .csLoad _ _ _ | .rmaPrep _ | .rmaDone | .smbAddr _ _
  | .smbDataRead _ | .smbDataWrite _ _ | .smbStatus _ | .ident _ | .alertResponse | .vrAlert _ | .coolantOkPulse => true

end Sys2Proof
end

