-- ==== Sys2Proof/Certificates/Slice0/Obligations.lean ====
section
/-!
DEFINITION. Obligations.lean: the statements for the provers, by chapter of the spec.
-/
open Sys2Proof Sys2Proof.Machine

/-! ### The block as a whole (chapters 0 to 5) -/

/-- The command at the front of the queue runs with the rest of the queue, and every command answers a next state; with no command waiting one
clock passes (the model's choice, log entry 4). -/
def Obligations.CommandsRunInOrderAndAnswer : Prop :=
  (∀ (s : State) (c : Instr) (rest : List Instr), s.pending = c :: rest → step s = exec c { s with pending := rest }) ∧
  (∀ (s : State), s.pending = [] → step s = .next (idleStep s)) ∧
  ∀ (c : Instr) (s : State), ∃ u, exec c s = .next u

/-- R10: after power-on reset every register holds its Reset value, every tally is 0 (R53), no command waits, and every sparse map is in its
canonical form; what the spec gives no value for is the model's choice. It rests on the model's readings in log entries 7, 8 and 9. -/
def Obligations.ResetHoldsTheResetValues : Prop :=
  State.reset.wf = true ∧ State.reset.pending = [] ∧ State.reset.mem = [] ∧ (∀ k, sget zt State.reset.tally k = ⟨0, false⟩) ∧
  (∀ d : DieId, gf State.reset (pgTICK d) TICK_MIN_PERIOD_V = 1000000 ∧ gf State.reset (pgTICK d) TICK_CTRL_EN = 0 ∧
    slotState State.reset d 0 = 0 ∧ slotState State.reset d 1 = 0) ∧
  (∀ p : PortId, gf State.reset (pgLPof p) LP_CFG_REPLAY_MAX = 8 ∧ portState State.reset p = 0) ∧
  gf State.reset pgBOOT BOOT_STAT_STAGE = 1 ∧ gf State.reset pgPCAP PCAP_STATE_RATE = 64 ∧ gf State.reset pgPCAP PCAP_CAP_V = 0xC80

/-- R53, R24: a step from a package whose sparse maps are all in their canonical form answers one whose are too, so that equal contents stay
equal data. It rests on the model's readings in log entry 4. -/
def Obligations.StepsKeepTheCanonicalForm : Prop :=
  ∀ s u : State, s.wf = true → step s = .next u → u.wf = true

/-- Address `a` lies in the populated part of a region, in a listed page where the region is a register space (R20). -/
def Sys2Proof.Machine.mapped (a : Nat) : Bool := match regionAt a with | some r => pagesListed r a 1 | none => false

/-- R24: an access that touches an unmapped address, or that crosses from one window into the next, fails whole with UNMAPPED: a write changes
nothing, and a read changes nothing and returns no data. -/
def Obligations.UnmappedAccessesFailWhole : Prop :=
  ∀ (w : MemReq) (a n : Nat) (s : State),
    ((∃ k, k < n ∧ mapped (a + k) = false) ∨ (∃ j k, j < n ∧ k < n ∧ regionAt (a + j) ≠ regionAt (a + k))) →
    memRead w a n s = (s, eUNMAPPED, []) ∧ ∀ bs : List Byte, bs.length = n → memWrite w a bs s = (s, eUNMAPPED)

/-- R39: a register access of another width than 32 bits or not aligned to 4 bytes, of a page that the requester may find and that answers,
fails with BAD_WIDTH: it changes nothing but the record of the error on the page, and a read returns no data. One that passes every check is
32 bits wide and aligned. It rests on the model's readings in log entries 16 and 23. -/
def Obligations.OddWidthsAreRefused : Prop :=
  ∀ (s : State) (r : Req) (a w : Nat) (l : Loc),
    (∀ write, checkAccess r a w write s = .ok l → w = 4 ∧ a % 4 = 0) ∧
    (locate a = some l → (restricted s r = true → bootPage l = true) → pageAnswers s l = true → (w ≠ 4 ∨ a % 4 ≠ 0) →
      let recorded (u : State) : Prop := ∃ e, Booked [l.page] (wr (l.page + LAST_ERR_V.off) e s) u ∧ e.toNat % 2 ^ 16 = eBAD_WIDTH
      (wakesBy r a s = false → ∃ u, regRead r a w s = (u, eBAD_WIDTH, 0) ∧ recorded u) ∧
      (wakesBy .host a s = false → r = .host → hostUp s = true → yields (.bar0Read a w) s fun u =>
        ∃ u1, recorded u1 ∧ u = { u1 with out := .cplAbort :: u1.out, stw := { u1.stw with aerAbort := true } }) ∧
      ∀ v, reqActs s r = true → wakesWrite r a v s = false → yields (.registerWrite r a w v) s recorded)

/-- R125: in Q8M3 and Q8M2 code 0x80 is the only NaN and every other code is finite, 0x00 is the only zero, and the codes of the highest
exponent are normal values: 256 to 480 by 32 in Q8M3, 65,536 to 114,688 by 16,384 in Q8M2. -/
def Obligations.QuarterFormatsHaveNoInfinity : Prop :=
  (∀ fmt z c, (fmt = 3 ∨ fmt = 4) → c < 256 →
    (elemVal fmt z c = .nan ↔ c = 0x80) ∧ (c ≠ 0x80 → ∃ sg m e, elemVal fmt z c = .fin sg m e ∧ (m = 0 ↔ c = 0) ∧ (c = 0 → sg = false))) ∧
  (∀ z k, k < 8 → fEq (elemVal 3 z (0x78 + k)) (ofInt (256 + 32 * k)) = true) ∧
  ∀ z k, k < 4 → fEq (elemVal 4 z (0x7C + k)) (ofInt (65536 + 16384 * k)) = true

/-- R127, R129, R130: a U4Z element q of a group with zero point z and scale code c is (q − z) × 2^(c − 127); every element of any grouped
format is scaled by 2^(c − 127), and code 0xFF makes it a NaN; MASK1 elements are 0 and 1. -/
def Obligations.GroupsScaleTheirElements : Prop :=
  (∀ z c q, z < 16 → c < 255 → q < 16 → ∃ sg m, groupVal 6 z c q = .fin sg m ((c : Int) - 127) ∧
    (if sg then -(m : Int) else (m : Int)) = (q : Int) - z) ∧
  (∀ fmt z c q sg m e, c < 255 → elemVal fmt z q = .fin sg m e → groupVal fmt z c q = .fin sg m (e + ((c : Int) - 127))) ∧
  (∀ fmt z q, groupVal fmt z 0xFF q = .nan) ∧
  ∀ z, elemVal 9 z 0 = .fin false 0 0 ∧ elemVal 9 z 1 = .fin false 1 0

/-! ### Vector engines (chapter 10) -/

/-- The arithmetic instructions with their opcodes and what each computes on a lane (R180, R182). -/
def Sys2Proof.Machine.arithOps (d : DieId) (x : Fin 2) : List (Instr × Nat × (FVal → FVal → FVal → FVal)) :=
  [(.vadd d x, 0x20, fun a b _ => fAdd a b), (.vsub d x, 0x21, fun a b _ => fAdd a (fNeg b)), (.vmul d x, 0x22, fun a b _ => fMul a b),
   (.vfma d x, 0x23, fFma), (.vfnma d x, 0x24, fun a b c => fFma (fNeg a) b c), (.vmin d x, 0x25, fun a b _ => fMin a b),
   (.vmax d x, 0x26, fun a b _ => fMax a b), (.vabs d x, 0x27, fun a _ _ => fAbs a), (.vneg d x, 0x28, fun a _ _ => fNeg a),
   (.vdiv d x, 0x29, fun a b _ => fDiv a b), (.vsqrt d x, 0x2A, fun a _ _ => fSqrt a), (.vrsqrt d x, 0x2B, fun a _ _ => fRsqrt a),
   (.vrcp d x, 0x2C, fun a _ _ => fDiv (.fin false 1 0) a), (.vexp d x, 0x2D, fun a _ _ => fExp a),
   (.vlog d x, 0x2E, fun a _ _ => fLog a), (.vtanh d x, 0x2F, fun a _ _ => fTanh a)]

/-- The integer instructions, their opcodes and their operations on 32-bit lanes (R180). -/
def Sys2Proof.Machine.intOps (d : DieId) (x : Fin 2) : List (Instr × Nat × (W → W → W)) :=
  [(.iadd d x, 0x38, fun a b => a + b), (.isub d x, 0x39, fun a b => a - b), (.imul d x, 0x3A, fun a b => a * b),
   (.iand d x, 0x3B, fun a b => a &&& b), (.ior d x, 0x3C, fun a b => a ||| b), (.ixor d x, 0x3D, fun a b => a ^^^ b),
   (.ishl d x, 0x3E, fun a b => a <<< (b.toNat % 32)), (.ishr d x, 0x3F, fun a b => a >>> (b.toNat % 32))]

/-- R179, R180, R182, R184: every arithmetic instruction completes wherever an engine has come to it, with each active lane of VD the exact
result of the operation on the lanes of VA, VB and VC rounded to the lane type, and nothing else changed. R180: every integer instruction
completes, with each active lane of VD its operation on the lanes of VA and VB. It rests on the model's readings in log entries 55 and 58. -/
def Obligations.ArithmeticWritesEveryActiveLane : Prop :=
  (∀ (d : DieId) (x : Fin 2) (s : State) (t pc : Nat) (w : VIn), ∀ e ∈ arithOps d x, vxAt s d x e.2.1 t pc w →
     ∃ k, vxDoes e.1 s d x (pc + 1) k ∧ lanesBecome s.dies[d].vx[x] k w fun j =>
       laneArith w.ty e.2.2 (vlane s.dies[d].vx[x] w.va j) (vlane s.dies[d].vx[x] w.vb j) (vlane s.dies[d].vx[x] w.vc j)) ∧
  (∀ (d : DieId) (x : Fin 2) (s : State) (t pc : Nat) (w : VIn), ∀ e ∈ intOps d x, vxAt s d x e.2.1 t pc w →
     ∃ k, vxDoes e.1 s d x (pc + 1) k ∧ lanesBecome s.dies[d].vx[x] k w fun j =>
       e.2.2 (vlane s.dies[d].vx[x] w.va j) (vlane s.dies[d].vx[x] w.vb j))

/-- R180: the moves and conversions complete. VMOVI writes its immediate as the lane type has it, VIOTA A[IMM] plus the lane number, VMOV the
lane of VA, CVTIF the X32 value of the integer in VA, and EXPAND gives each active lane the next lane of VA from lane 0. R180, R185: VBCAST
with a valid scalar input writes the chosen half of it to every active lane. It rests on the model's readings in log entry 58. -/
def Obligations.MovesAndBroadcastsWriteEveryActiveLane : Prop :=
  (∀ (d : DieId) (x : Fin 2) (s : State) (t pc : Nat) (w : VIn),
     let k0 := s.dies[d].vx[x]
     let does (i : Instr) (op : Nat) (new : Nat → W) : Prop :=
       vxAt s d x op t pc w → ∃ k, vxDoes i s d x (pc + 1) k ∧ lanesBecome k0 k w new
     does (.vmovi d x) 0x11 (fun _ =>
       if w.ty = 0 then BitVec.ofNat 32 (w.imm * 256) else if w.ty = 1 then BitVec.ofNat 32 (bits w.imm 8 16 * 65537) else simm w) ∧
     does (.viota d x) 0x12 (fun j => aget k0 w.imm + BitVec.ofNat 32 j) ∧
     does (.vmov d x) 0x14 (fun j => vlane k0 w.va j) ∧
     does (.cvtif d x) 0x31 (fun j => r32 (ofInt (vlane k0 w.va j).toInt)) ∧
     does (.expand d x) 0x59 (fun j => vlane k0 w.va ((List.range j).filter (activeAt k0 w)).length)) ∧
  (∀ (d : DieId) (x : Fin 2) (s : State) (t pc : Nat) (w : VIn) (v : D),
     vxAt s d x 0x10 t pc w → s.dies[d].vx[x].sin.getD (w.imm % 8) none = some v →
     ∃ k, vxDoes (.vbcast d x) s d x (pc + 1) k ∧ lanesBecome s.dies[d].vx[x] k w fun _ =>
       if bit w.imm 3 then v.extractLsb' 32 32 else v.extractLsb' 0 32)

/-- The comparisons: opcode, what they say of X32 values and of signed integers (R180, R182). -/
def Sys2Proof.Machine.compareOps (d : DieId) (x : Fin 2) : List (Instr × Nat × (FVal → FVal → Bool) × (Int → Int → Bool)) :=
  [(.cmpeq d x, 0x40, fEq, fun a b => decide (a = b)), (.cmpne d x, 0x41, fun a b => !fEq a b, fun a b => decide (a ≠ b)),
   (.cmplt d x, 0x42, fLt, fun a b => decide (a < b)), (.cmple d x, 0x43, fun a b => fLt a b || fEq a b, fun a b => decide (a ≤ b))]

/-- The mask instructions with their opcodes (R180). -/
def Sys2Proof.Machine.maskOps (d : DieId) (x : Fin 2) : List (Instr × Nat × (Bool → Bool → Bool)) :=
  [(.mand d x, 0x48, fun a b => a && b), (.mor d x, 0x49, fun a b => a || b), (.mandn d x, 0x4A, fun a b => a && !b),
   (.mnot d x, 0x4B, fun a _ => !a), (.mset d x, 0x4C, fun _ _ => true)]

/-- R180, R184: every comparison completes, with bit j of M[VD] the comparison of the lanes j where lane j is active and 0 elsewhere. R180:
every mask instruction completes, with every bit of M[VD] its operation on the bits of M[VA] and M[VB]. It rests on the model's readings in
log entry 58. -/
def Obligations.MasksAreComparedAndCombined : Prop :=
  (∀ (d : DieId) (x : Fin 2) (s : State) (t pc : Nat) (w : VIn), ∀ e ∈ compareOps d x, vxAt s d x e.2.1 t pc w →
     ∃ k, vxDoes e.1 s d x (pc + 1) k ∧ bitsBecome s.dies[d].vx[x] k w fun j =>
       let a := vlane s.dies[d].vx[x] w.va j
       let b := vlane s.dies[d].vx[x] w.vb j
       activeAt s.dies[d].vx[x] w j && (if w.ty = 2 then e.2.2.2 a.toInt b.toInt else e.2.2.1 (x32 a) (x32 b))) ∧
  (∀ (d : DieId) (x : Fin 2) (s : State) (t pc : Nat) (w : VIn), ∀ e ∈ maskOps d x, vxAt s d x e.2.1 t pc w →
     ∃ k, vxDoes e.1 s d x (pc + 1) k ∧ bitsBecome s.dies[d].vx[x] k w fun j =>
       e.2.2 (mbit s.dies[d].vx[x] w.va j) (mbit s.dies[d].vx[x] w.vb j))

/-- R180, R185: the instructions on address registers and scalars complete: A[VD] takes the immediate, its sum with the immediate or with
A[IMM], the low word of a valid scalar input, or the number of bits set in M[MSK]; SOUT makes the scalar output of lanes 0 and 1 of VA.
Nothing else of the engine changes. It rests on the model's readings in log entry 58. -/
def Obligations.AddressAndScalarInstructions : Prop :=
  ∀ (d : DieId) (x : Fin 2) (s : State) (t pc : Nat) (w : VIn),
    let k0 := s.dies[d].vx[x]
    let becomes (i : Instr) (op : Nat) (v : W) : Prop :=
      vxAt s d x op t pc w → ∃ k, vxDoes i s d x (pc + 1) k ∧ k = { k0 with a := k.a } ∧
        ∀ r, r < 8 → aget k r = if r = w.vd % 8 then v else aget k0 r
    becomes (.amovi d x) 0x08 (simm w) ∧
    becomes (.aaddi d x) 0x09 (aget k0 w.vd + simm w) ∧
    becomes (.aadd d x) 0x0A (aget k0 w.vd + aget k0 w.imm) ∧
    (∀ v : D, k0.sin.getD (w.imm % 8) none = some v → becomes (.amovs d x) 0x0B (v.extractLsb' 0 32)) ∧
    becomes (.mpop d x) 0x0C (BitVec.ofNat 32 ((List.range 1024).filter (mbit k0 w.msk)).length) ∧
    (vxAt s d x 0x0D t pc w → ∃ k, vxDoes (.sout d x) s d x (pc + 1) k ∧ k = { k0 with sout := k.sout } ∧
      k.sout = vlane k0 w.va 1 ++ vlane k0 w.va 0)

/-- R180, R183, R188: VSEL takes each lane from VA or VB as its mask bit says; VREDSUM and VREDMAX put the tree of R183 over the active lanes in
lane 0 of VD and 0 in the others; COMPRESS packs the active lanes of VA from lane 0 on, zeros after them, and counts them in A[IMM]. It
rests on the model's readings in log entry 58. -/
def Obligations.SelectReduceAndCompress : Prop :=
  ∀ (d : DieId) (x : Fin 2) (s : State) (t pc : Nat) (w : VIn),
    let k0 := s.dies[d].vx[x]
    let act := activeLanes (active k0 w)
    let whole (k : Vx) (new : Nat → W) : Prop :=
      ∀ r j, j < 1024 → vlane k r j = if r = w.vd then new j else vlane k0 r j
    (vxAt s d x 0x13 t pc w → ∃ k, vxDoes (.vsel d x) s d x (pc + 1) k ∧ k = { k0 with v := k.v } ∧
      whole k fun j => if mbit k0 w.msk j then vlane k0 w.va j else vlane k0 w.vb j) ∧
    (vxAt s d x 0x50 t pc w → ∃ k, vxDoes (.vredsum d x) s d x (pc + 1) k ∧ k = { k0 with v := k.v } ∧
      whole k fun j => if j = 0 then
        (treeFold xAdd 10 ((List.range 1024).map fun i => if activeAt k0 w i then vlane k0 w.va i else 0)).headD 0 else 0) ∧
    (vxAt s d x 0x51 t pc w → ∃ k, vxDoes (.vredmax d x) s d x (pc + 1) k ∧ k = { k0 with v := k.v } ∧
      whole k fun j => if j = 0 then
        ((treeFold optMax 10 ((List.range 1024).map fun i => if activeAt k0 w i then some (vlane k0 w.va i) else none)).headD
          none).getD 0xFF800000 else 0) ∧
    (vxAt s d x 0x58 t pc w → ∃ k, vxDoes (.compress d x) s d x (pc + 1) k ∧ k = { k0 with v := k.v, a := k.a } ∧
      (whole k fun j => match act[j]? with | some i => vlane k0 w.va i | none => 0) ∧
      ∀ r, r < 8 → aget k r = if r = w.imm % 8 then BitVec.ofNat 32 act.length else aget k0 r)

/-- R180, R182: CVTFI completes, with each active lane of VD the integer nearest to the X32 value in VA, held at the ends of I32 and 0 for a
NaN; nothing else changes but the engine's tallies and events. R180, R189, R279: VRAND writes the generator's 31 bits for each lane's
position in the named tensor, and VLDACC four rows of an accumulator bank of the array that holds the rank. It rests on the model's readings
in log entries 55 and 58. -/
def Obligations.ConversionsRandomsAndBankReads : Prop :=
  (∀ (d : DieId) (x : Fin 2) (s : State) (t pc : Nat) (w : VIn), vxAt s d x 0x30 t pc w →
     ∃ k, vxDoes (.cvtfi d x) s d x (pc + 1) k ∧ lanesBecome s.dies[d].vx[x] k w fun j => (toI32 (x32 (vlane s.dies[d].vx[x] w.va j))).1) ∧
  (∀ (d : DieId) (x : Fin 2) (s : State) (t pc : Nat) (w : VIn) (i : Img) (tk : Task), taskOf s d t = some (i, tk) →
     let k0 := s.dies[d].vx[x]
     let m := (aget k0 (2 * bits w.imm 18 2 + 1)).toInt
     (vxAt s d x 0x6B t pc w → tk.role (vSlot w) ≠ 0 → ∃ k, vxDoes (.vrand d x) s d x (pc + 1) k ∧ lanesBecome k0 k w fun j =>
       gen (BitVec.ofNat 64 (rd64 s (pgUPD d + UPD_SEED_LO_V.off))) (BitVec.ofNat 64 s.dies[d].disp.attStep) (tk.tensor (vSlot w))
         (aget k0 (2 * vPair w) + BitVec.ofNat 32 j).toNat &&& 0x7FFFFFFF) ∧
     (∀ a, vxAt s d x 0x68 t pc w → bit (tk.p 66 2) (2 * bits w.imm 21 3 + bits w.imm 20 1) = true → 0 ≤ m → m + 3 ≤ 255 →
       rankArray s d (bits w.imm 21 3) = some a →
       vxDoes (.vldacc d x) s d x (pc + 1)
         (vset w.vd ((List.range 4).flatMap fun n => bankRow s d a (bits w.imm 20 1) (m.toNat + n) 256) k0)))

/-- R185, R186, R188: on a package whose memory holds no bad symbol, a load of a pair that its rule allows, but of T2 (whose codes can fault,
R128), completes where its active lanes lie in the view and the die's units may read it: it stores nothing, an inactive lane of VD becomes 0
with MZ and stays without, active lanes take X32 words and pairs of W16 as stored, and VLDE also advances A(2p) by the number of active
lanes. A load whose lanes are read without error completes: with `s1` the package after the reads and `xs` the lanes they gave, the active
lanes of VD take them. It rests on the model's readings in log entry 58. -/
def Obligations.LoadsPlaceTheLanesTheyRead : Prop :=
  (∀ (d : DieId) (x : Fin 2) (s : State) (t pc : Nat) (w : VIn) (v : View), clean s →
     slotView s d t (vSlot w) false = .ok v → viewOpen d v false s → loadable w.ty v.fmt = true → v.fmt ≠ 7 →
     let k0 := s.dies[d].vx[x]
     let n := if w.ty = 1 then 2 else 1
     let act := active k0 w
     let reads (i : Instr) (op : Nat) (pos : List VPos) (advance : Nat) : Prop :=
       vxAt s d x op t pc w → (∀ p ∈ lanesOf act true pos, inView v n p = true) → ∃ u k, exec i s = .next u ∧
         u.dies[d].vx[x] = { k with pc := pc + 1 } ∧ onlyStores [] s u ∧ k = { k0 with v := k.v, a := k.a } ∧
         (∀ r j, j < 1024 → (r = w.vd → activeAt k0 w j = false) → vlane k r j = if r = w.vd ∧ w.mz = true then 0 else vlane k0 r j) ∧
         (v.fmt = 0 ∨ w.ty = 1 → ∀ p ∈ lanesOf act true pos,
           vlane k w.vd p.lane = BitVec.ofNat 32 (leNat (peek u (v.span p.row.toNat p.idx.toNat n).1 4))) ∧
         ∀ r, r < 8 → aget k r = if r = 2 * vPair w then aget k0 r + BitVec.ofNat 32 advance else aget k0 r
     reads (.vld d x) 0x60 (segPos k0 w) 0 ∧ reads (.vldx d x) 0x64 (idxPos k0 w) 0 ∧
     (w.ty ≠ 1 → reads (.vlde d x) 0x67 (packPos k0 w) (activeLanes act).length)) ∧
  ∀ (d : DieId) (x : Fin 2) (s s1 : State) (t pc : Nat) (w : VIn) (xs : List (Nat × W)),
    let k0 := s.dies[d].vx[x]
    let k1 := s1.dies[d].vx[x]
    let loads (i : Instr) (op : Nat) (pos : List VPos) (advance : Bool) : Prop :=
      vxAt s d x op t pc w → vLoad d x t w (active k0 w) pos s = (s1, .next, xs) → pc + 1 < s1.dies[d].prog.length →
      ∃ u k, exec i s = .next u ∧ Booked [pgVXof d x.val] (onVx d x (fun _ => { k with pc := pc + 1 }) s1) u ∧
        k = { k1 with v := k.v, a := k.a } ∧
        (∀ r j, j < 1024 → vlane k r j = if r = w.vd then
          (if activeAt k0 w j then ((xs.find? fun e => e.1 == j).map Prod.snd).getD 0 else if w.mz then 0 else vlane k1 w.vd j)
          else vlane k1 r j) ∧
        ∀ r, r < 8 → aget k r = if advance ∧ r = 2 * vPair w then aget k1 r + BitVec.ofNat 32 (activeLanes (active k0 w)).length
          else aget k1 r
    loads (.vld d x) 0x60 (segPos k0 w) false ∧ loads (.vldx d x) 0x64 (idxPos k0 w) false ∧ loads (.vlde d x) 0x67 (packPos k0 w) true

/-- R185, R186, R188, R190, R230: on a die whose memory holds no bad symbol, each store, the mask store and the mask load completes wherever
its operand and the lane type form a pair that its rule allows, its active lanes or its segments lie in the view, and the die's units may
access the view. It stores to no byte but those of the elements it names, with their scales where the format has them; VSTC also advances
A(2p) by the number of active lanes, and MLD gives each active bit of M[VD] its element. A store whose lanes are all written without error
changes nothing but what writing them changes. It rests on the model's readings in log entry 58. -/
def Obligations.StoresGoOnAfterTheirWrites : Prop :=
  (∀ (d : DieId) (x : Fin 2) (s : State) (t pc : Nat) (w : VIn) (v : View), clean s →
     let k0 := s.dies[d].vx[x]
     let n := if w.ty = 1 then 2 else 1
     let act := active k0 w
     let b := vIdx k0 (vPair w)
     let at_ (pos : List VPos) (n : Nat) : List (Nat × Nat) := (lanesOf act true pos).map fun p => v.span p.row.toNat p.idx.toNat n
     let does (i : Instr) (op : Nat) (k : Vx → Prop) (xs : List (Nat × Nat)) : Prop := vxAt s d x op t pc w → vxAccesses i s d x pc k xs
     (slotView s d t (vSlot w) true = .ok v → viewOpen d v true s →
       (storable w.ty v.fmt = true →
         ((∀ p ∈ lanesOf act true (segPos k0 w), inView v n p = true) → does (.vst d x) 0x61 (· = k0) (at_ (segPos k0 w) n)) ∧
         ((∀ p ∈ lanesOf act true (idxPos k0 w), inView v n p = true) → does (.vstx d x) 0x65 (· = k0) (at_ (idxPos k0 w) n)) ∧
         (w.ty ≠ 1 → (∀ p ∈ packPos k0 w, inView v 1 p = true) →
           does (.vstc d x) 0x66 (· = aset (2 * vPair w) (aget k0 (2 * vPair w) + BitVec.ofNat 32 (activeLanes act).length) k0)
             (at_ (packPos k0 w) 1))) ∧
       (v.t.gcode ≠ 0 → b.1 % v.t.g = 0 → vSeg w % v.t.g = 0 →
         (∀ q : Nat, q < 1024 / vSeg w → inView v (vSeg w) ⟨0, b.2 + q, b.1⟩ = true) →
         does (.vstg d x) 0x62 (· = k0) ((List.range (1024 / vSeg w)).flatMap fun q : Nat => v.spans (b.2 + q).toNat b.1.toNat (vSeg w))) ∧
       (v.t.gcode ≠ 0 → v.t.fmt ≠ 6 → b.1 % v.t.g = 0 → w.va + v.t.g / 4 ≤ 64 →
         (∀ q : Nat, q < 256 → inView v v.t.g ⟨0, b.2 + q, b.1⟩ = true) →
         does (.vstgx d x) 0x63 (· = k0) ((List.range 256).flatMap fun q : Nat => v.spans (b.2 + q).toNat b.1.toNat v.t.g))) ∧
     ((∀ p ∈ lanesOf act true (maskPos k0 w), inView v 1 p = true) →
       (maskView s d x t w true = .ok v → viewOpen d v true s → does (.mst d x) 0x6A (· = k0) (at_ (maskPos k0 w) 1)) ∧
       (maskView s d x t w false = .ok v → viewOpen d v false s → vxAt s d x 0x69 t pc w → ∃ u k, exec (.mld d x) s = .next u ∧
         u.dies[d].vx[x] = { k with pc := pc + 1 } ∧ onlyStores [] s u ∧ bitsBecome k0 k w fun j =>
           if activeAt k0 w j then
             let e := (b.1 + (j : Nat)).toNat
             bit (sget zb u.mem (v.rowAddr b.2.toNat + e / 8)).toNat (e % 8)
           else !w.mz && mbit k0 w.vd j))) ∧
  ∀ (d : DieId) (x : Fin 2) (s s1 : State) (t pc : Nat) (w : VIn),
    let k0 := s.dies[d].vx[x]
    let src := vget k0 w.va
    let act := active k0 w
    let goesOn (i : Instr) (op : Nat) (s2 : State) : Prop :=
      vxAt s d x op t pc w → pc + 1 < s2.dies[d].prog.length →
      ∃ u, exec i s = .next u ∧ Booked [pgVXof d x.val] (onVx d x (fun k => { k with pc := pc + 1 }) s2) u
    (vStore d x t w act (segPos k0 w) src s = (s1, .next) → goesOn (.vst d x) 0x61 s1) ∧
    (vStore d x t w act (idxPos k0 w) src s = (s1, .next) → goesOn (.vstx d x) 0x65 s1) ∧
    (∀ v, slotView s d t (vSlot w) true = .ok v → storable w.ty v.fmt = true → (∀ p ∈ packPos k0 w, inView v 1 p = true) →
      storeRun d x t v w.ty (vIdx k0 (vPair w)).2.toNat (vIdx k0 (vPair w)).1.toNat ((activeLanes act).map fun j => src.getD j 0) s =
        (s1, 0) → goesOn (.vstc d x) 0x66 (bumpPair d x w (activeLanes act).length s1)) ∧
    (vstgBody d x t w s = (s1, .next) → goesOn (.vstg d x) 0x62 s1) ∧
    (vstgxBody d x t w s = (s1, .next) → goesOn (.vstgx d x) 0x63 s1) ∧
    (mldBody d x t w s = (s1, .next) → goesOn (.mld d x) 0x69 s1) ∧
    (mstBody d x t w s = (s1, .next) → goesOn (.mst d x) 0x6A s1)

/-- R180: NOP only goes on. LOOP with a count enters its body with the count kept, and with a count of 0 goes past its ENDL. ENDL goes back to
the start of the body while more than one pass is left, and else leaves the loop. R178, R230: END writes out the trunk words this task last
wrote, then the program is over: the engine holds no task, and the scalar output the task will write is the engine's. It rests on the
model's readings in log entry 58. -/
def Obligations.LoopsGoRoundAndEndFreesTheEngine : Prop :=
  (∀ (d : DieId) (x : Fin 2) (s : State) (t pc : Nat) (w : VIn),
     let k0 := s.dies[d].vx[x]
     let count := if bit w.imm 23 then (aget k0 w.imm).toInt.toNat else bits w.imm 0 23
     (vxAt s d x 0x00 t pc w → vxDoes (.vNop d x) s d x (pc + 1) k0) ∧
     (vxAt s d x 0x02 t pc w → 0 < count → vxDoes (.vLoop d x) s d x (pc + 1) { k0 with loops := (pc + 1, count) :: k0.loops }) ∧
     (∀ q, vxAt s d x 0x02 t pc w → count = 0 → matchEndl s.dies[d].prog pc = some q → q + 1 < s.dies[d].prog.length →
       vxDoes (.vLoop d x) s d x (q + 1) k0) ∧
     (∀ b n rest, vxAt s d x 0x03 t pc w → k0.loops = (b, n) :: rest → n ≤ 1 →
       vxDoes (.vEndl d x) s d x (pc + 1) { k0 with loops := rest }) ∧
     (∀ b n rest, vxAt s d x 0x03 t pc w → k0.loops = (b, n) :: rest → 1 < n → b < s.dies[d].prog.length →
       vxDoes (.vEndl d x) s d x b { k0 with loops := (b, n - 1) :: rest })) ∧
  (∀ (d : DieId) (x : Fin 2) (s : State) (t pc : Nat) (w : VIn),
     let k0 := s.dies[d].vx[x]
     let r := forUntil (fun u s => trunkWriteWord d u s) (s.dies[d].trunk.filter fun u => u.vx == x.val && u.serial == k0.serial) s
     s.stw.halt = .none → dieUp s d = true → vxNext s d x = some (t, pc, w) → w.op = 0x01 → k0.trunkErr = 0 →
     (clean s → r.2 = 0) ∧
     (r.2 = 0 → yields (.vEnd d x) s fun u => u.dies[d].vx[x] = { k0 with task := none } ∧
       sget z64 u.dies[d].disp.sout t = k0.sout ∧ u.mem = r.1.mem ∧ onlyStores [] s u))

/-! ### Power, temperature and scan (chapters 19 and 20) -/

/-- R476, R494, R503: a trip and the scan instructions stop the compute dies and change nothing else of the package than what is written here;
the trip's record is in the boot log once the steward has written it. R493: IDCODE shifts out 32 bits of which the first is 1 and the
maker's part number follows; a code that names no other instruction shifts out the bypass register's one 0; SAMPLE/PRELOAD shifts out the
pins and preloads the data. Nothing else changes. It rests on the model's readings in log entries 12, 18 and 19. -/
def Obligations.TripAndTestAccess : Prop :=
  (∀ s : State,
     (∀ d sensor, s.stw.halt = .none → yields (.thermTrip d sensor) s fun u =>
       u = { s with out := .pin "THERM_TRIP_N" false :: s.out,
                    stw := { s.stw with halt := .trip, tripPend := some (d.val, sensor.val) } }) ∧
     (∀ t, s.stw.tripPend = some t → yields .tripLogWrite s fun u => u = { s with stw := { s.stw with trip := some t, tripPend := none } }) ∧
     ∀ tap : Fin 5, s.stw.halt = .none →
       ∀ e ∈ [(Instr.extest tap, TapInstr.extest), (.clamp tap, .clamp), (.highz tap, .highz)], yields e.1 s fun u =>
         u = { s with stw := { s.stw with halt := .scan, taps := s.stw.taps.set tap e.2 } }) ∧
  (∀ (s : State) (tap : Fin 5),
     (yields (.idcode tap) s fun u => ∃ bs, u = { s with out := .tdo tap bs :: s.out, stw := { s.stw with taps := s.stw.taps.set tap .idcode } } ∧
       bs.length = 32 ∧ bs[0]? = some true ∧
       (List.range 16).map (fun n => bs[12 + n]?) = (List.range 16).map fun n => some (bit (if tap = 0 then 0x5E01 else 0x5E04) n)) ∧
     (∀ code, code < 256 → code ∉ [0x00, 0x01, 0x02, 0x04, 0x05] → yields (.bypass tap code) s fun u =>
       u = { s with out := .tdo tap [false] :: s.out, stw := { s.stw with taps := s.stw.taps.set tap .bypass } }) ∧
     ∀ data, yields (.samplePreload tap data) s fun u =>
       u = { s with out := .tdo tap (Config.boundary s.fresh tap.val) :: s.out, fresh := s.fresh + 1,
                    stw := { s.stw with taps := s.stw.taps.set tap .samplePreload, bnd := s.stw.bnd.set tap data } })

/-- R467: every power sample adds to the interval's sum and number, and nothing else; R473: a pulse of COOLANT_OK counts in TRAY tally 3 while
the page's tallies are not frozen, and sets no flag. R468: a control interval with samples sets the cap rate by the mean power, the hottest
die and stack, the target and the hysteresis, gives it to every array of every live die, and begins the next interval empty. It rests on the
model's readings in log entry 17. -/
def Obligations.SamplesSetTheCapRate : Prop :=
  (∀ s : State, s.stw.halt ≠ .off →
     (∀ w, yields (.powerSample w) s fun u => u = { s with stw := { s.stw with psum := s.stw.psum + w, pcnt := s.stw.pcnt + 1 } }) ∧
     yields .coolantOkPulse s fun u =>
       Booked [pgTRAY] s u ∧
       (gf s pgTRAY CTRL_FREEZE = 0 → (sget zt s.tally (pgTRAY + 3)).count.toNat + 1 < 2 ^ 48 →
         (sget zt u.tally (pgTRAY + 3)).count.toNat = (sget zt s.tally (pgTRAY + 3)).count.toNat + 1)) ∧
  (∀ s : State, s.stw.halt ≠ .off → s.stw.pcnt ≠ 0 →
     let target := if gf s pgPCAP PCAP_STATE_BRAKED = 1 then 1200 else gf s pgPCAP PCAP_CAP_V
     let sum := s.stw.psum
     let above := target * s.stw.pcnt < sum
     let hyst := gf s pgPCAP PCAP_CTL_HYST_W
     let t := hotDie s
     let ts := hotStack s
     let tl := gf s pgPCAP PCAP_THERM_THERM_LIMIT
     let sl := gf s pgPCAP PCAP_THERM_STACK_LIMIT
     let r := gf s pgPCAP PCAP_STATE_RATE
     let r' := min 64 (max 1
       (if above then r - max 1 (min 8 (64 * (sum - target * s.stw.pcnt) / sum))
        else if tl ≤ t ∨ sl ≤ ts then r - 1
        else if sum < (target - hyst) * s.stw.pcnt ∧ t + 2 < tl ∧ ts + 2 < sl then r + 1 else r))
     yields .capInterval s fun u =>
       gf u pgPCAP PCAP_STATE_RATE = r' ∧ u.stw = { s.stw with psum := 0, pcnt := 0 } ∧
       gf u pgPCAP PCAP_POWER_V = min 65535 (sum / s.stw.pcnt) ∧
       (r' = 1 → above → eventSet u pgPCAP 0) ∧
       ((tl ≤ t ∨ sl ≤ ts) → eventSet u pgPCAP 1) ∧
       ∀ d ∈ liveDies s, ∀ m, m < 7 → gf u (pgMXof d m) MX_RATE_CAP = r' ∧
         gf u (pgMXof d m) MX_RATE_NOW = min (gf s (pgMXof d m) MX_RATE_RAMP) r')

/-- R469: sixteen readings of a live die set HOT to the hottest of them, each with its factory and its user offset, in whole degrees, and the
stacks' temperatures as given. R470: at each selection every live die takes the point of its hottest reading, and its core rail moves
towards that point's voltage by at most 5 mV. R471: a detector of a live die that crosses its threshold is active and is the last that was,
and DROOP is raised; when all have recovered for HOLD_NS none is. It rests on the model's readings in log entries 11, 17 and 19. -/
def Obligations.SensorsSetTheRails : Prop :=
  (∀ (s : State) (d : DieId) (raws : List Int) (temps : List Nat),
     s.stw.halt = .none → dieLive s d = true → raws.length = 16 →
     let reading (n : Nat) : Int := raws.getD n 0 + Config.calFactory 1 (16 * d.val + n) + calUser s 1 (16 * d.val + n)
     yields (.sensorRead d raws temps) s fun u =>
       gf u (pgPWR d) PWR_STATE_HOT = min 255 (((List.range 16).map reading).foldl max (reading 0) / 16).toNat ∧
       (∀ c, c < 3 → gf u (pgSCof d c) SC_STAT_TEMP = min 255 (temps.getD c 0)) ∧
       (∀ n, n < 16 → sget zi u.stw.raws (16 * d.val + n) = raws.getD n 0) ∧ u.mem = s.mem ∧ u.dies = s.dies) ∧
  (∀ s : State, s.stw.halt = .none → yields .vfPointSelect s fun u =>
     ∀ d ∈ liveDies s,
       let i := min 15 (gf s (pgPWR d) PWR_STATE_HOT / 8)
       let target := (max 650 (min 850 (calInForce s 2 (16 * d.val + i)))).toNat
       let now := gf s (pgPWR d) PWR_VCORE_SET
       gf u (pgPWR d) PWR_STATE_VF_POINT = i ∧
       gf u (pgPWR d) PWR_VCORE_SET = (if now < target then min target (now + 5) else max target (now - 5)) ∧
       gf u (pgPWR d) PWR_STATE_HOT = gf s (pgPWR d) PWR_STATE_HOT) ∧
  (∀ (s : State) (d : DieId), runs s d →
     (∀ det : Fin 8, yields (.droop d det) s fun u =>
       bit (gf u (pgPWR d) PWR_DROOP_STAT_ACTIVE) det.val = true ∧ gf u (pgPWR d) PWR_DROOP_STAT_LAST = det.val ∧
       gf u (pgPWR d) PWR_DROOP_STAT_VALID = 1 ∧ eventSet u (pgPWR d) 0) ∧
     yields (.droopHoldExpiry d) s fun u =>
       gf u (pgPWR d) PWR_DROOP_STAT_ACTIVE = 0 ∧ u = { s with regs := u.regs } ∧ ∀ a, a ≠ pgPWR d + 0x114 → rd u a = rd s a)

/-- R472: a brake takes every array of every live die to the lower of the cap rate and BRAKE_RATE at once, and its release leaves that rate to
the controller; the count and the event of R472 are made. R473, R475: a fall of COOLANT_OK that lasts stops a package that is not stopped,
with its event, and the stop holds when the coolant returns; COOLANT_OK that has been high for 100 ms shows as stable; a RESTART then ends
the stop. It rests on the model's readings in log entries 17 and 19. -/
def Obligations.BrakeAndCoolantStop : Prop :=
  (∀ s : State, s.stw.halt ≠ .off →
     let r := min (gf s pgPCAP PCAP_STATE_RATE) (gf s pgPCAP PCAP_CTL_BRAKE_RATE)
     (gf s pgPCAP PCAP_STATE_BRAKED = 0 → yields .brake s fun u =>
       gf u pgPCAP PCAP_STATE_BRAKED = 1 ∧ gf u pgTRAY TRAY_IN_BRAKE = 1 ∧ gf u pgPCAP PCAP_STATE_RATE = r ∧
       eventSet u pgTRAY 2 ∧
       ∀ d ∈ liveDies s, ∀ m, m < 7 →
         gf u (pgMXof d m) MX_RATE_CAP = r ∧ gf u (pgMXof d m) MX_RATE_NOW = min (gf s (pgMXof d m) MX_RATE_RAMP) r) ∧
     yields .brakeRelease s fun u => gf u pgPCAP PCAP_STATE_BRAKED = 0 ∧ gf u pgTRAY TRAY_IN_BRAKE = 0 ∧
       gf u pgPCAP PCAP_STATE_RATE = gf s pgPCAP PCAP_STATE_RATE ∧ ∀ a, a ≠ pgPCAP + 0x110 → a ≠ pgTRAY + 0x100 → rd u a = rd s a) ∧
  (∀ s : State, s.stw.halt ≠ .off →
     (gf s pgTRAY TRAY_STOP_STOPPED = 0 → yields .coolantStop s fun u =>
       gf u pgTRAY TRAY_STOP_STOPPED = 1 ∧ gf u pgTRAY TRAY_IN_COOLANT_OK = 0 ∧ gf u pgTRAY TRAY_STOP_OK_STABLE = 0 ∧
       eventSet u pgTRAY 0) ∧
     (yields .coolantOkStable s fun u => gf u pgTRAY TRAY_STOP_OK_STABLE = 1 ∧ gf u pgTRAY TRAY_IN_COOLANT_OK = 1 ∧
       gf u pgTRAY TRAY_STOP_STOPPED = gf s pgTRAY TRAY_STOP_STOPPED ∧ u.mem = s.mem ∧ u.dies = s.dies) ∧
     ∀ r, mayWrite r (pgTRAY + 0x108) 1 s → gf s pgTRAY TRAY_STOP_STOPPED = 1 → gf s pgTRAY TRAY_STOP_OK_STABLE = 1 →
       yields (.restart r) s fun u => gf u pgTRAY TRAY_STOP_STOPPED = 0 ∧ u.mem = s.mem ∧ u.dies = s.dies ∧
         ∀ d : DieId, gf u (pgPWR d) PWR_STATE_STOPPED = 0)

/-- R462, R463, R464, R465: an idle package goes to the deepest state whose exit latency the tolerance allows; a wake begins its exit, and at
the exit's end the package and every live die are back in P0 with the accumulators at +0 where the state had turned them off. It rests on
the model's readings in log entries 3 and 16. -/
def Obligations.IdleStatesAreEnteredAndLeft : Prop :=
  ∀ s : State, s.stw.halt = .none →
    (∀ st, isIdle s = true → pState s = 0 → 0 < st → st ≤ 4 →
      ([0, 1, 50, 2000, 40000].getD st 0 ≤ gf s pgPCAP PCAP_LTR_V) →
      (st < 4 → gf s pgPCAP PCAP_LTR_V < [0, 1, 50, 2000, 40000].getD (st + 1) 0) →
      yields .idleEntry s fun u => pState u = st ∧ (∀ d ∈ liveDies s, gf u (pgPWR d) PWR_STATE_PSTATE = st) ∧ u.mem = s.mem ∧
        (2 ≤ st → ∀ d ∈ liveDies s, u.dies[d].acc = [] ∧ u.dies[d].prog = [])) ∧
    (pState s ≠ 0 → stopped s = false → yields .wake s fun u => u = { s with stw := { s.stw with waking := true } }) ∧
    (pState s ≠ 0 → stopped s = false → s.stw.waking = true → yields .idleExitDone s fun u =>
      pState u = 0 ∧ u.stw.waking = false ∧ (∀ d ∈ liveDies s, gf u (pgPWR d) PWR_STATE_PSTATE = 0) ∧
      (2 ≤ pState s → ∀ d ∈ liveDies s, u.dies[d].acc = []))

/-! ### Boot, configuration and security (chapters 2 and 18) -/

/-- The slot accepted at boot, when one is: the first in the order of R446 that passes every check of R445. -/
def Sys2Proof.Machine.bootSlot (s : State) : Option Nat := (slotOrder s).find? fun k => (slotCheck s k).1 == 0

/-- R440, R441, R446, R501: a power-on clears memory and keeps the flash and the fuses. Unreadable fuses halt the boot in FAULT with
UNCORRECTABLE; two refused slots put the package in RECOVERY with both codes shown; else the accepted slot and its sequence number are
shown, and the package waits in DIES for every die. A fall of PWRGD leaves everything at reset and held, with PKG_READY low and FAULT_N high.
It rests on the model's readings in log entries 10, 13 and 14. -/
def Obligations.PowerOnChoosesTheSlot : Prop :=
  ∀ (s : State) (env : BootEnv),
    (yields (.powerOnReset env) s fun u =>
      u.mem = [] ∧ u.pending = s.pending ∧ u.stw.flash = s.stw.flash ∧ u.stw.floor = s.stw.floor ∧ u.stw.halt = .none ∧
      gf u pgMGMT MGMT_ADDR_V = 0x58 + env.smbStraps.val ∧
      (env.fuseBad = true → gf u pgBOOT BOOT_STAT_STAGE = 6 ∧ gf u pgBOOT BOOT_STAT_CODE = eUNCORRECTABLE) ∧
      (env.fuseBad = false → bootSlot s = none → gf u pgBOOT BOOT_STAT_STAGE = 5 ∧
        gf u pgBOOT BOOT_CODE_CODE_A = (slotCheck s 0).1 ∧ gf u pgBOOT BOOT_CODE_CODE_B = (slotCheck s 1).1) ∧
      ∀ k, env.fuseBad = false → bootSlot s = some k →
        gf u pgBOOT BOOT_STAT_STAGE = 3 ∧ gf u pgBOOT BOOT_STAT_SLOT = k ∧ rd u (pgBOOT + 0x108) = BitVec.ofNat 32 (slotNat s k 8 4) ∧
        ∀ h : DieId, gf u (pgHTSof h) HTS_DIE_STATE = 1) ∧
    yields .pwrgdFall s fun u => u.stw.halt = .off ∧ u.regs = [] ∧ u.mem = [] ∧ u.dies = State.reset.dies ∧ u.ports = State.reset.ports ∧
      u.stw.flash = s.stw.flash ∧ u.hostMem = s.hostMem ∧ u.out = .pin "FAULT_N" true :: .pin "PKG_READY" false :: s.out

/-- R14: a booting die that has clock samples its straps; the third sample settles its position and it reports, stable when the three agree and
unstable otherwise. R15, R16, R17, R500: in the DIES stage an unstable report halts the boot with POS_UNSTABLE, and one that does not name
its hatch with POS_CONFLICT; the report of a die in its place is kept. A die that does not report, or whose rail does not answer, is absent.
It rests on the model's readings in log entries 3, 10 and 13. -/
def Obligations.SamplesAndReportsPlaceTheDies : Prop :=
  (∀ (s : State) (d : DieId) (v : Fin 4), s.stw.halt = .none → dieUp s d = true → gf s (pgHTSof d) HTS_DIE_STATE = 1 →
     (s.stw.straps[d].length < 2 → yields (.strapSample d v) s fun u =>
       u = { s with stw := { s.stw with straps := s.stw.straps.set d (s.stw.straps[d] ++ [v.val]) } }) ∧
     ∀ a b, s.stw.straps[d] = [a, b] → a < 4 → b < 4 → yields (.strapSample d v) s fun u =>
       gf u (pgTOPO d) TOPO_STRAP_SAMPLE0 = a ∧ gf u (pgTOPO d) TOPO_STRAP_SAMPLE1 = b ∧ gf u (pgTOPO d) TOPO_STRAP_SAMPLE2 = v.val ∧
       gf u (pgTOPO d) TOPO_STRAP_STABLE = b2n (a == b && b == v.val) ∧
       (a = v.val → b = v.val → gf u (pgTOPO d) TOPO_ID_POS = v.val ∧ u.out = .posReport d (.stable v) :: s.out) ∧
       (¬(a = v.val ∧ b = v.val) → u.out = .posReport d .unstable :: s.out)) ∧
  (∀ (s : State) (h : DieId), s.stw.halt ≠ .off → gf s pgBOOT BOOT_STAT_STAGE = 3 → gf s (pgHTSof h) HTS_DIE_STATE = 1 →
     ((∀ x ∈ s.stw.reports, x.1 ≠ h.val) →
       (yields (.posReport h .unstable) s fun u => gf u pgBOOT BOOT_STAT_STAGE = 6 ∧ gf u pgBOOT BOOT_STAT_CODE = ePOS_UNSTABLE ∧
         gf u pgPKG PKG_STRAPS_POS_FAULT = 1) ∧
       (∀ v : Fin 4, v ≠ h → yields (.posReport h (.stable v)) s fun u =>
         gf u pgBOOT BOOT_STAT_STAGE = 6 ∧ gf u pgBOOT BOOT_STAT_CODE = ePOS_CONFLICT ∧ gf u pgPKG PKG_STRAPS_POS_FAULT = 1) ∧
       ((∀ x ∈ s.stw.reports, x.2 ≠ h.val) → yields (.posReport h (.stable h)) s fun u =>
         u.stw.reports = (h.val, h.val) :: s.stw.reports ∧ bit (gf u pgPKG PKG_STRAPS_HT_VALID) h.val = true ∧
         gf u pgPKG PKG_STRAPS_HT_POS / 4 ^ h.val % 4 = h.val) ∧
       yields (.dieReportTimeout h) s fun u => gf u (pgHTSof h) HTS_DIE_STATE = 0 ∧ bit (gf u pgPKG PKG_RELEASE_ABSENT) h.val = true ∧
         ((∀ d : DieId, d ≠ h → gf s (pgHTSof d) HTS_DIE_STATE ≠ 1) → gf u pgBOOT BOOT_STAT_STAGE = 6 ∧ gf u pgBOOT BOOT_STAT_CODE = eDIE_LOST)) ∧
     yields (.vrAnswerTimeout h) s fun u => gf u (pgHTSof h) HTS_DIE_STATE = 0 ∧ gf u (pgPWR h) PWR_VCORE_SET = 0 ∧
       bit (gf u pgPKG PKG_RELEASE_ABSENT) h.val = true)

/-- R15, R380, R440: the end of a die's fill shows in its page; when it was the last that the boot waited for, the package is READY and the dies
that reported run. R416: a host reset puts the HOST page and every QUEUE page at reset but for what R416 keeps (HOST_B2MAP, and of a feed
queue its EN, its geometry and its counts), drops the submission entry in execution, and raises its event; no register outside those pages
changes. It rests on the model's readings in log entries 13, 15 and 27. -/
def Obligations.FillsAndHostResets : Prop :=
  (∀ (s : State) (d : DieId), s.stw.halt = .none → dieUp s d = true → gf s (pgHTSof d) HTS_DIE_STATE = 1 →
     gf s (pgINTEG d) INTEG_STAT_FILL_DONE = 0 →
     yields (.fillDone d) s fun u => gf u (pgINTEG d) INTEG_STAT_FILL_DONE = 1 ∧
       (gf s pgBOOT BOOT_STAT_STAGE = 3 → (∃ x ∈ s.stw.reports, x.1 = d.val) →
         (∀ h : DieId, h ≠ d → gf s (pgHTSof h) HTS_DIE_STATE = 1 → dieReady s h = true) →
         gf u pgBOOT BOOT_STAT_STAGE = 4 ∧ gf u (pgHTSof d) HTS_DIE_STATE = 2 ∧ bit (gf u pgPKG PKG_RELEASE_RELEASED) d.val = true)) ∧
  (∀ s : State, s.stw.halt ≠ .off → yields .perst s fun u =>
     u.stw = { s.stw with cmd := none, tlist := [] } ∧ eventSet u pgHOST 2 ∧
     (∀ a, inHostPages a = false → rd u a = rd s a) ∧
     (∀ a, inHostPages a = true → hostKeeps a = true → (∀ q, 8 ≤ q → q < 16 → a ≠ pgQ q + Q_CTRL_EN.off) → rd u a = rd s a) ∧
     (∀ a, inHostPages a = true → hostKeeps a = false → a ≠ pgHOST + EVT_STAT_V.off → rd u a = regReset a) ∧
     (∀ q, 8 ≤ q → q < 16 → gf u (pgQ q) Q_CTRL_EN = gf s (pgQ q) Q_CTRL_EN ∧ gf u (pgQ q) Q_CTRL_MIRROR = 0) ∧
     u.mem = s.mem ∧ u.dies = s.dies)

/-- R452: a CFG command that is accepted makes the controller busy with the slot and its source; WRITE and ERASE erase the slot's header at
once, VERIFY leaves the flash. R452, R460: the end of a CFG command leaves the slot written from host memory, erased, or as it was, shows
the check's code with the slot's VALID flag, and frees the controller. It rests on the model's readings in log entries 14 and 27. -/
def Obligations.FlashCommandsBeginAndEnd : Prop :=
  (∀ (s : State) (r : Req) (slot : Fin 2), gf s pgCFG CFG_STAT_BUSY = 0 →
     let free := gf s pgBOOT BOOT_STAT_STAGE = 5 ∨ gf s pgBOOT BOOT_STAT_SLOT ≠ slot.val
     let may (op : Nat) : Prop := mayWrite r (pgCFG + 0x100) (setFld (setFld 0 CFG_CMD_OP op) CFG_CMD_SLOT slot.val) s
     let begun (op : Nat) (u : State) : Prop :=
       gf u pgCFG CFG_STAT_BUSY = 1 ∧ u.stw.cfgJob = some ⟨op, slot.val, rd64 s (pgCFG + CFG_SRC_LO_V.off), gf s pgCFG CFG_LEN_V⟩ ∧
       u.mem = s.mem ∧ u.dies = s.dies ∧ ∀ a, sget zflash u.stw.flash a =
         if op ≠ 2 ∧ slotBase slot.val ≤ a ∧ a < slotBase slot.val + 0x2000 then 0xFF else sget zflash s.stw.flash a
     (free → 8192 ≤ gf s pgCFG CFG_LEN_V → gf s pgCFG CFG_LEN_V ≤ 15728640 → may 1 → yields (.cfgWrite r slot) s (begun 1)) ∧
     (may 2 → yields (.cfgVerify r slot) s (begun 2)) ∧
     (free → may 3 → yields (.cfgErase r slot) s (begun 3))) ∧
  (∀ (s : State) (j : CfgJob), s.stw.halt ≠ .off → s.stw.cfgJob = some j → j.slot < 2 → j.len ≤ 0xF00000 → 1 ≤ j.op → j.op ≤ 3 →
     yields .cfgDone s fun u =>
       let b := slotBase j.slot
       let code := if j.op = 3 then 0 else (slotCheck u j.slot).1
       gf u pgCFG CFG_STAT_BUSY = 0 ∧ u.stw.cfgJob = none ∧ gf u pgCFG CFG_STAT_CODE = code % 2 ^ 16 ∧
       gf u pgCFG (if j.slot = 0 then CFG_STAT_VALID_A else CFG_STAT_VALID_B) = (if j.op ≠ 3 ∧ code = 0 then 1 else 0) ∧
       eventSet u pgCFG 0 ∧
       ∀ a, sget zflash u.stw.flash a =
         if j.op = 1 ∧ b ≤ a ∧ a < b + j.len then sget zb s.hostMem (j.src + (a - b))
         else if (j.op = 1 ∨ j.op = 3) ∧ b ≤ a ∧ a < b + 0xF00000 then 0xFF else sget zflash s.stw.flash a)

/-- R451, R454, R455, R456: an attestation that begins uses up one index of the stateful key before it signs, and one asked for with every index
used answers LMS_EXHAUSTED and uses none; its end puts the report, the two signatures and 12 zero bytes in host memory and frees the unit. A
roll-back floor rises to a version not above the one in force. R457, R458: a seal that passes shows SEALED; a reboot, which an unsealed
package takes while no live die takes ticks, chooses the slot again and waits in DIES, or is in RECOVERY when neither slot passes, and keeps
the flash. It rests on the model's readings in log entries 11, 12, 14 and 27. -/
def Obligations.SecurityCommandsAct : Prop :=
  (∀ (s : State) (r : Req),
     (mayWrite r (pgSEC + 0x110) 1 s → gf s pgSEC SEC_ATT_CTRL_BUSY = 0 →
       yields (.attGo r) s fun u =>
         (lmsIndex s < 2 ^ 20 → gf u pgSEC SEC_ATT_CTRL_BUSY = 1 ∧ lmsIndex u = lmsIndex s + 1 ∧
           (rd u (pgSEC + SEC_LMS_LEFT_V.off)).toNat = 2 ^ 20 - (lmsIndex s + 1) ∧ u.stw.att = some (attBody s (lmsIndex s))) ∧
         (2 ^ 20 ≤ lmsIndex s → gf u pgSEC SEC_ATT_CTRL_BUSY = 0 ∧ gf u pgSEC SEC_ATT_CTRL_CODE = eLMS_EXHAUSTED ∧ u.stw = s.stw)) ∧
     (∀ body, s.stw.halt ≠ .off → s.stw.att = some body → gf s (pgQ 2) Q_CTRL_EN = 0 → yields .attDone s fun u =>
       hostPeek u (rd64 s (pgSEC + SEC_ATT_ADDR_LO_V.off)) 5440 = (body ++ leBytes 96 (Config.ecdsaSig s.fresh body) ++
         leBytes 5076 (Config.hssSig (leNat ((body.drop 208).take 4)) body) ++ List.replicate 5440 0).take 5440 ∧
       gf u pgSEC SEC_ATT_CTRL_BUSY = 0 ∧ gf u pgSEC SEC_ATT_CTRL_CODE = eOK ∧ u.stw.att = none ∧ u.mem = s.mem) ∧
     ∀ v : Fin 64, mayWrite r (pgSEC + 0x10C) (BitVec.ofNat 32 v.val) s → s.stw.floor < v.val → v.val ≤ gf s pgSEC SEC_SVN_SVN →
       yields (.floorReq r v) s fun u => u.stw = { s.stw with floor := v.val } ∧ gf u pgSEC SEC_SVN_FLOOR = v.val ∧
         gf u pgSEC SEC_SVN_SVN = gf s pgSEC SEC_SVN_SVN ∧ u.mem = s.mem ∧ u.dies = s.dies) ∧
  (∀ (s : State) (r : Req),
     (mayWrite r (pgBOOT + 0x118) 1 s → yields (.seal r) s fun u => gf u pgBOOT BOOT_STAT_SEALED = 1 ∧
       u.mem = s.mem ∧ u.dies = s.dies ∧ u.stw = s.stw ∧ gf u pgBOOT BOOT_STAT_STAGE = gf s pgBOOT BOOT_STAT_STAGE) ∧
     (mayWrite r (pgBOOT + 0x118) 2 s → (∀ d ∈ liveDies s, gf s (pgTICK d) TICK_CTRL_EN = 0) → gf s pgBOOT BOOT_STAT_STAGE ≠ 6 →
       yields (.reboot r) s fun u => u.stw.flash = s.stw.flash ∧
         (bootSlot s = none → gf u pgBOOT BOOT_STAT_STAGE = 5) ∧
         ∀ k, bootSlot s = some k → (∃ d : DieId, ∀ x ∈ s.stw.env.checkerFail, x.1 ≠ d.val) →
           gf u pgBOOT BOOT_STAT_STAGE = 3 ∧ gf u pgBOOT BOOT_STAT_SLOT = k))

/-! ### Registers, events and tallies (chapter 4) -/

/-- R38, R40, R41, R415: a 32-bit write that passes every check leaves a register of plain fields, here EVT_EN of any page, with the value
written in its writable bits; a host access above the register spaces is counted in HOST tally 5 and changes nothing else. R45, R46: a read
of a low register latches the high one in its page's latch for the requester; a write of a low register that nothing closes to writes waits in
the requester's shadow and changes no register;
the write of the high one then commits both, here for a scalar register of a control core while EN is 0, and empties the shadow. It rests on
the model's readings in log entries 21, 22 and 25. -/
def Obligations.RegistersAreWrittenAndPaired : Prop :=
  (∀ (s : State) (r : Req) (v : W),
     (∀ page, pageOk page = true → mayWrite r (page + 0x1C) v s → yields (.registerWrite r (page + 0x1C) 4 v) s fun u =>
       u = { s with regs := u.regs } ∧ (∀ a, a ≠ page + 0x1C → rd u a = rd s a) ∧
       ∃ l, locate (page + 0x1C) = some l ∧ rd u (page + 0x1C) &&& BitVec.ofNat 32 l.spec.rw = v) ∧
     ∀ a w, 0x5000000 ≤ a → a < 0x8000000 → s.stw.halt ≠ .off → yields (.registerWrite .host a w v) s fun u =>
       Booked [pgHOST] s u ∧ (gf s pgHOST CTRL_FREEZE = 0 → (sget zt s.tally (pgHOST + 5)).count.toNat + 1 < 2 ^ 48 →
         (sget zt u.tally (pgHOST + 5)).count.toNat = (sget zt s.tally (pgHOST + 5)).count.toNat + 1)) ∧
  (∀ (s : State) (r : Req),
     (∀ addr l, reqActs s r = true → wakesBy r addr s = false → checkAccess r addr 4 false s = .ok l → l.lo = true →
       l.off ≠ 0x150 → let e := readEffect l s
       e.2 = eOK → yields (.readLoLatch r addr) s fun u => u = { e.1 with hiLatch := u.hiLatch } ∧
         ∀ k, sget z32 u.hiLatch k = if k = latchKey r l then regValue e.1 r { l with off := l.off + 4 } else sget z32 e.1.hiLatch k) ∧
     (∀ addr v l, reqActs s r = true → wakesWrite r addr v s = false → s.stw.csJob = none → checkAccess r addr 4 true s = .ok l →
       l.lo = true → l.spec.rw ≠ 0 → loGate s r l = eOK → yields (.writeLoShadow r addr v) s fun u => u = { s with loShadow := u.loShadow } ∧
         ∀ k, sget zo u.loShadow k = if k = reqKey r l.key then some v else sget zo s.loShadow k) ∧
     ∀ (d : DieId) (n : Nat) (v : W), n < 64 → mayWrite r (pgCC d + 0x204 + 8 * n) v s → gf s (pgTICK d) TICK_CTRL_EN = 0 →
       yields (.writeHiCommit r (pgCC d + 0x204 + 8 * n) v) s fun u =>
         let lo := (shadowOf s r (pgCC d + 0x200 + 8 * n)).getD (rd s (pgCC d + 0x200 + 8 * n))
         rd64 u (pgCC d + 0x200 + 8 * n) = lo.toNat + 2 ^ 32 * v.toNat ∧ shadowOf u r (pgCC d + 0x200 + 8 * n) = none ∧
         u.mem = s.mem ∧ u.dies = s.dies)

/-- R39, R44, R47, R54: on any page, forcing events sets their bits and no other; clearing the selected live tally clears it alone, and clearing
all clears every live tally of the page; clearing LAST_ERR clears it alone. R37, R483, R484: a write of FENCE.REQ that changes the fence of
an engine, the CE or a mover waits, shown as draining, while its die takes ticks, and acts at once while it does not. It rests on the
model's readings in log entries 25 and 26. -/
def Obligations.PagesAndFencesAct : Prop :=
  (∀ (s : State) (r : Req) (page : Nat), pageOk page = true →
     (∀ v, mayWrite r (page + 0x20) v s → yields (.evtForce r page v) s fun u =>
       Booked [page] s u ∧ rd u (page + EVT_STAT_V.off) = rd s (page + EVT_STAT_V.off) ||| v) ∧
     (let sel := (selOf s r (page + 0x28)).toNat
      mayWrite r (page + 0x30) 0x80000000 s → bit sel 8 = false → yields (.tallyClr r page) s fun u =>
       u = { s with tally := u.tally, rem := u.rem } ∧
       ∀ k, sget zt u.tally k = (if k = page + sel % 256 then ⟨0, false⟩ else sget zt s.tally k) ∧
         sget zn u.rem k = if k = page + sel % 256 then 0 else sget zn s.rem k) ∧
     (mayWrite r (page + 0x0C) (rd s (page + 0x0C) ||| 4) s → yields (.tallyClrAll r page) s fun u =>
       u = { s with regs := u.regs, tally := u.tally, rem := u.rem } ∧ (∀ a, a ≠ page + 0x0C → rd u a = rd s a) ∧
       ∀ k, sget zt u.tally k = if page ≤ k ∧ k < page + 256 then ⟨0, false⟩ else sget zt s.tally k) ∧
     (mayWrite r (page + LAST_ERR_V.off) 0x80000000 s → yields (.lastErrClear r page) s fun u =>
       u = { s with regs := u.regs } ∧ ∀ a, rd u a = if a = page + LAST_ERR_V.off then 0 else rd s a)) ∧
  (∀ (s : State) (r : Req) (d : DieId) (req : Bool), ∀ p ∈ fencePages d, mayWrite r (p + FENCE_REQ.off) (BitVec.ofNat 32 (b2n req)) s →
     gf s p FENCE_FENCED ≠ b2n req → (req = false → unitReady s p = true ∧ inService s p = false) →
     yields (.fenceReq r p req) s fun u => gf u p FENCE_REQ = b2n req ∧
       (gf s (pgTICK d) TICK_CTRL_EN = 1 → gf u p FENCE_DRAINING = 1 ∧ gf u p FENCE_FENCED = gf s p FENCE_FENCED) ∧
       (gf s (pgTICK d) TICK_CTRL_EN = 0 → gf u p FENCE_DRAINING = 0 ∧ gf u p FENCE_FENCED = b2n req) ∧ u.mem = s.mem ∧ u.dies = s.dies)

/-! ### The host interface (chapter 17) -/

/-- R417, R419: a version that the X4 speaks is negotiated while every queue but the feeds is off; then a queue other than a feed can be
enabled, with its four counts at 0, and disabled. A write of zero to QUEUE16 to QUEUE31 has no effect (R42). It rests on the model's
readings in log entries 26 and 27. -/
def Obligations.NegotiationLetsQueuesRun : Prop :=
  ∀ (s : State) (r : Req),
    (∀ v : W, mayWrite r (pgHOST + 0x104) v s → v.toNat / 256 % 256 = 1 → v.toNat % 256 ≤ 1 →
      (∀ q, q < 32 → isFeed q = false → gf s (pgQ q) Q_CTRL_EN = 0) → yields (.hostNeg r v) s fun u =>
        gf u pgHOST HOST_NEG_NEGOTIATED = 1 ∧ gf u pgHOST HOST_NEG_MAJOR = 1 ∧ gf u pgHOST HOST_NEG_MINOR = v.toNat % 256 ∧
        eventSet u pgHOST 1 ∧ u.mem = s.mem ∧ u.dies = s.dies) ∧
    ∀ (q : Fin 32) (en : Bool), mayAsk r (pgQ q) Q_CTRL_EN (b2n en) [Q_CTRL_MIRROR] s →
      (16 ≤ q.val → en = false → yields (.qEn r q en) s fun u => u = s) ∧
      (q.val < 16 → isFeed q = false → (en = true → gf s pgHOST HOST_NEG_NEGOTIATED = 1) →
        (gf s (pgQ q) Q_CTRL_MIRROR = 1 → gf s pgHOST HOST_NEG_MINOR ≠ 0) → yields (.qEn r q en) s fun u =>
          gf u (pgQ q) Q_CTRL_EN = b2n en ∧ u.mem = s.mem ∧ u.dies = s.dies ∧ u.hostMem = s.hostMem ∧
          (en = true → gf s (pgQ q) Q_CTRL_EN = 0 → qProd u q = 0 ∧ qRd u q = 0 ∧ qMark u q = 0 ∧ qRel u q = 0))

/-- R422, R433: MARK puts the mark at the read position and REWIND the read position at the mark; TRUNCATE of a feed queue drops what is ahead
of the read position. The write of RD moves the read position between mark and PROD, and that of REL releases up to a position not past RD.
R421, R422, R424: a doorbell on the submission queue produces entries while they fit, and on a queue that the host consumes takes and
releases them; a pop of a queue with an entry takes the entry at the read position, and its requester's latch holds its words; the delay of
an enabled interrupt ends in its message, once. It rests on the model's readings in log entries 26 and 27. -/
def Obligations.QueuesMoveAndRing : Prop :=
  (∀ (s : State) (r : Req) (q : Fin 32), 0 < q.val → q.val < 16 →
     let asks (f : Fld) : Prop := mayAsk r (pgQ q) f 1 [Q_CTRL_EN, Q_CTRL_MIRROR] s ∧
       qCtrlCheck s q (setFld (keeping s (pgQ q) [Q_CTRL_EN, Q_CTRL_MIRROR]) f 1).toNat = eOK
     (asks Q_CTRL_MARK → yields (.qMark r q) s fun u => qMark u q = qRd s q ∧ qRd u q = qRd s q ∧ qProd u q = qProd s q ∧
       qRel u q = qRel s q ∧ u.mem = s.mem ∧ u.dies = s.dies) ∧
     (asks Q_CTRL_REWIND → yields (.qRewind r q) s fun u => qRd u q = qMark s q ∧ qMark u q = qMark s q ∧ qRel u q = qRel s q ∧
       u.mem = s.mem ∧ u.dies = s.dies) ∧
     (asks Q_CTRL_TRUNCATE → isFeed q = true → yields (.qTruncate r q) s fun u => qProd u q = qRd s q ∧ qRd u q = qRd s q ∧
       qDrops u q = 0 ∧ u.mem = s.mem ∧ u.dies = s.dies) ∧
     (∀ v : D, isFeed q = false → reqActs s r = true → s.stw.csJob = none → pState s = 0 → (∃ l, checkAccess r (pgQ q + 0x128) 4 true s = .ok l) →
       qMark s q ≤ v.toNat → v.toNat ≤ qProd s q →
       yields (.qRdWrite r q v) s fun u => qRd u q = v.toNat ∧ qProd u q = qProd s q ∧ qMark u q = qMark s q ∧ qRel u q = qRel s q) ∧
     ∀ v : D, isFeed q = false → reqActs s r = true → s.stw.csJob = none → pState s = 0 → (∃ l, checkAccess r (pgQ q + 0x138) 4 true s = .ok l) →
       qRel s q ≤ v.toNat → v.toNat ≤ qRd s q →
       yields (.qRelWrite r q v) s fun u => qRel u q = v.toNat ∧ qMark u q = max (qMark s q) v.toNat ∧ qRd u q = qRd s q) ∧
  (∀ (s : State) (r : Req) (q : Fin 32),
     (∀ n : BitVec 16, mayWrite r (pgQ q + 0x148) (BitVec.ofNat 32 n.toNat) s →
       (q.val = 0 → qProd s 0 + n.toNat ≤ qRel s 0 + gf s (pgQ 0) Q_CFG_SIZE → yields (.qDoorbell r q n) s fun u =>
         qProd u 0 = (qProd s 0 + n.toNat) % 2 ^ 64 ∧ qRd u 0 = qRd s 0 ∧ qRel u 0 = qRel s 0 ∧ u.mem = s.mem ∧ u.dies = s.dies) ∧
       (0 < q.val → q.val < 8 → 0 < n.toNat → n.toNat ≤ qProd s q - qRd s q → yields (.qDoorbell r q n) s fun u =>
         qRd u q = qRd s q + n.toNat ∧ qRel u q = (qRel s q + n.toNat) % 2 ^ 64 ∧ u.mem = s.mem ∧ u.dies = s.dies)) ∧
     (∀ l, reqActs s r = true → pState s = 0 → checkAccess r (pgQ q + 0x150) 4 false s = .ok l → 0 < q.val → q.val < 8 →
       qRd s q < qProd s q → yields (.qPop r q) s fun u => qRd u q = qRd s q + 1 ∧ qProd u q = qProd s q ∧ u.mem = s.mem ∧
         ∀ i, i < 4 → sget z32 u.hiLatch (reqKey r (pgQ q + 0x150 + 4 * i)) = BitVec.ofNat 32 (leNat
           (hostPeek s (rd64 s (pgQ q + Q_BASE_LO_V.off) + qRd s q % max 1 (gf s (pgQ q) Q_CFG_SIZE) * 16 + 4 * i) 4))) ∧
     (s.stw.halt ≠ .off → gf s (pgQ q) Q_IRQ_EN = 1 → qProd s q ≠ qRd s q → s.queues[q].irqSent = false →
       yields (.queueIrqDelay q) s fun u =>
         u = { s with out := .msix (gf s (pgQ q) Q_IRQ_VECTOR) :: s.out, queues := s.queues.set q { s.queues[q] with irqSent := true } }))

/-- The completion of command `c` with a status and a DETAIL, over the package `s` (R425, R427): no command is in execution any more, and
when the completion ring has room and no ring has a gap pending, the next slot holds the entry and PROD has advanced. The event ring is taken to be
off, so that no entry of its own lies over the slot. -/
def Sys2Proof.Machine.completed (c : Cmd) (status detail : Nat) (s u : State) : Prop :=
  u.stw.cmd = none ∧
  (gf s (pgQ 2) Q_CTRL_EN = 0 → gf s (pgQ 1) Q_CTRL_EN = 1 → qDrops s 1 = 0 → 2 ≤ qFree s 1 → rd64 s (pgQ 1 + Q_SHADOW_LO_V.off) = 0 → qDrops s 0 = 0 →
    hostPeek u (rd64 s (pgQ 1 + Q_BASE_LO_V.off) + qProd s 1 % max 1 (gf s (pgQ 1) Q_CFG_SIZE) * 16) 16 = entry 5 0 status c.cid detail ∧
    qProd u 1 = (qProd s 1 + 1) % 2 ^ 64)

/-- R425, R426, R427: the steward takes the entry at the submission queue's read position; a NOP completes with OK and changes nothing of the
package's memory; a REG_WRITE whose pairs are all accepted completes with their number over the package they leave, and one that stops at a pair
with that pair's code and number; one that a pair of its own aborts (R416, R458) writes no completion. It rests on the model's readings in log
entries 30 and 31. -/
def Obligations.SubmissionsCompleteInOrder : Prop :=
  ∀ (s : State), s.stw.halt ≠ .off →
    (gf s pgBOOT BOOT_STAT_STAGE = 4 → s.stw.cmd = none → gf s (pgQ 0) Q_CTRL_EN = 1 → gf s (pgQ 1) Q_CTRL_EN = 1 →
      qRd s 0 < qProd s 0 → 2 ≤ qFree s 1 →
      let c : Cmd := ⟨hostPeek s (rd64 s (pgQ 0 + Q_BASE_LO_V.off) + qRd s 0 % max 1 (gf s (pgQ 0) Q_CFG_SIZE) * 64) 64⟩
      c.opcode ≤ 4 → yields .submissionFetch s fun u => u.stw = { s.stw with cmd := some c } ∧ qRd u 0 = qRd s 0 + 1 ∧
        qProd u 0 = qProd s 0 ∧ u.mem = s.mem ∧ u.hostMem = s.hostMem) ∧
    (∀ c, s.stw.cmd = some c → c.opcode = 0 → c.formOk = true → c.arg = 0 → yields .cmdNop s fun u =>
      completed c eOK 0 s u ∧ u.mem = s.mem ∧ u.dies = s.dies) ∧
    (∀ c, s.stw.cmd = some c → c.opcode = 1 → c.formOk = true → 1 ≤ c.arg → c.arg ≤ 7 →
      let r := pairs c 0 c.arg s
      yields .regWrite s fun u => if r.1.stw.cmd = none then u = r.1 else completed c r.2.1 r.2.2 r.1 u ∧ u.mem = r.1.mem)

/-- R414, R426, R518: a copy or a host access to a range that the checks allow and whose words hold no error moves every byte, and no other byte
of package memory changes; a copy completes with the bytes it moved, and a read answers the host with the bytes. R420, R426, R431: a
FEED_PUSH to an enabled feed queue with two free slots and nothing pending, whose slot may be written, puts the item and its header in the
next slot of the die's cellar and advances PROD; it completes with the new PROD. It rests on the model's readings in log entries 8, 16, 30
and 66. -/
def Obligations.HostBytesMoveWhole : Prop :=
  (∀ (s : State), s.stw.halt = .none → pState s = 0 → stopped s = false → s.errs = [] →
     (∀ c, s.stw.cmd = some c → c.opcode = 2 → c.formOk = true → c.arg = 0 → 1 ≤ c.len → c.len < 2 ^ 40 →
       accessCheck .host c.daddr c.len true s = eOK → gf s (pgQ 2) Q_CTRL_EN = 0 → yields .copyIn s fun u =>
         completed c eOK c.len s u ∧ ∀ a, sget zb u.mem a =
           if c.daddr ≤ a ∧ a < c.daddr + c.len then sget zb s.hostMem (c.haddr + (a - c.daddr)) else sget zb s.mem a) ∧
     (∀ c, s.stw.cmd = some c → c.opcode = 3 → c.formOk = true → c.arg = 0 → 1 ≤ c.len → c.len < 2 ^ 40 →
       accessCheck .host c.daddr c.len false s = eOK → gf s (pgQ 2) Q_CTRL_EN = 0 → qDrops s 0 = 0 → qDrops s 1 = 0 →
       rd64 s (pgQ 1 + Q_SHADOW_LO_V.off) = 0 → yields .copyOut s fun u =>
         let slot := rd64 s (pgQ 1 + Q_BASE_LO_V.off) + qProd s 1 % max 1 (gf s (pgQ 1) Q_CFG_SIZE) * 16
         u.stw.cmd = none ∧ u.mem = s.mem ∧ ∀ k, k < c.len → (c.haddr + k < slot ∨ slot + 16 ≤ c.haddr + k) →
           sget zb u.hostMem (c.haddr + k) = sget zb s.mem (c.daddr + k)) ∧
     (∀ off data, 0 < data.length → off + data.length ≤ 2 ^ 36 → accessCheck .host (bar2Addr s off) data.length true s = eOK →
       yields (.bar2Write off data) s fun u => ∀ a, sget zb u.mem a =
         if bar2Addr s off ≤ a ∧ a < bar2Addr s off + data.length then data.getD (a - bar2Addr s off) 0 else sget zb s.mem a) ∧
     (∀ off len, 0 < len → off + len ≤ 2 ^ 36 → accessCheck .host (bar2Addr s off) len false s = eOK →
       yields (.bar2Read off len) s fun u => u.mem = s.mem ∧ ∃ rest, u.out = .cplData (peek s (bar2Addr s off) len) :: rest) ∧
     ∀ off l, off < 0x5000000 → checkAccess .host off 4 false s = .ok l → l.kind ≠ .queue →
       let e := readEffect l s
       let v := if l.hi then (sget z32 s.hiLatch (latchKey .host l)).toNat else (regValue s .host l).toNat
       e.2 = eOK → yields (.bar0Read off 4) s fun u => u.mem = e.1.mem ∧ u.regs = e.1.regs ∧ u.out = .cplData (leBytes 4 v) :: e.1.out) ∧
  (∀ (s : State) (c : Cmd), s.stw.halt = .none → pState s = 0 → stopped s = false → clean s → s.stw.cmd = some c → c.opcode = 4 →
     c.formOk = true → c.arg ≤ 7 →
     let q := 8 + c.arg
     let a := feedAddr s q (qProd s q)
     let item := leBytes 4 1 ++ leBytes 4 c.len ++ leBytes 8 (c.at 32 8) ++ leBytes 8 0 ++ leBytes 8 (timeStamp s 4) ++ leBytes 32 0 ++
       hostPeek s c.haddr c.len
     gf s (pgQ q) Q_CTRL_EN = 1 → c.len + 64 ≤ feedSlotSize s q → dieLive s (feedHome s q) = true → qDrops s q = 0 → 2 ≤ qFree s q →
     isStore a = false → accessCheck .steward a (c.len + 64) true s = eOK →
     yields .feedPush s fun u => u.stw.cmd = none ∧ qProd u q = (qProd s q + 1) % 2 ^ 64 ∧
       ∀ b, sget zb u.mem b = if a ≤ b ∧ b < a + 64 + c.len then item.getD (b - a) 0 else sget zb s.mem b)

/-! ### Service and management (chapters 20 and 21) -/

/-- R486, R487, R488: a self-test or a calibration of a fenced, drained unit that supports it makes the die's service unit busy with it. R488,
R489: the end of a service request frees the unit, keeps its code, and raises SVC_DONE, with SVC_FAIL for a failure; after a self-test of
any unit but an array the unit is ready just when the test passed. A test that finds more failing rows in an array than it has spares for
fails too, with a code that the spec does not name. It rests on the model's readings in log entry 20. -/
def Obligations.ServiceRequestsBeginAndEnd : Prop :=
  (∀ (s : State) (r : Req) (d : DieId) (num : Nat), num < 2 ^ 12 →
     let p := d.val * 0x1000000 + num * 0x1000
     let may (op : Nat) : Prop := mayWrite r (pgSVC d + 0x100) (BitVec.ofNat 32 (num + op * 2 ^ 12)) s ∧
       gf s (pgSVC d) SVC_STAT_BUSY = 0 ∧ stopped s = false ∧ gf s p FENCE_FENCED = 1 ∧ gf s p FENCE_DRAINING = 0
     let begun (op : Nat) (u : State) : Prop := gf u (pgSVC d) SVC_STAT_BUSY = 1 ∧ gf u (pgSVC d) SVC_STAT_OP = op ∧
       gf u (pgSVC d) SVC_STAT_PAGE_NUM = num ∧ u = { s with regs := u.regs } ∧ ∀ a, a ≠ pgSVC d + 0x104 → rd u a = rd s a
     (∀ k i, pageAt p = some (k, i) → k.caps.2.2 = true → (k = .sw → gf s (peerSide p) FENCE_FENCED = 1) → may 1 →
       yields (.selftest r d num) s (begun 1)) ∧
     ∀ k i, pageAt p = some (k, i) → (k = .lp ∨ k = .sw) → (k = .sw → gf s (peerSide p) FENCE_FENCED = 1) → may 2 →
       yields (.calibrate r d num) s (begun 2)) ∧
  (∀ (s : State) (d : DieId) (res detail : Nat) (rows : List Nat), runs s d → gf s (pgSVC d) SVC_STAT_BUSY = 1 →
     let p := d.val * 0x1000000 + gf s (pgSVC d) SVC_STAT_PAGE_NUM * 0x1000
     let short := gf s (pgSVC d) SVC_STAT_OP ≠ 2 ∧ (∃ m, pageAt p = some (.mx, m)) ∧ 4 < gf s p MX_ROWS_USED + rows.length
     yields (.svcDone d res detail rows) s fun u =>
       gf u (pgSVC d) SVC_STAT_BUSY = 0 ∧ gf u (pgSVC d) SVC_RESULT_VALID = 1 ∧ eventSet u (pgSVC d) 0 ∧ u.mem = s.mem ∧
       (res ≠ 0 ∨ ¬short → gf u (pgSVC d) SVC_RESULT_CODE = res % 2 ^ 16 ∧ (res ≠ 0 → eventSet u (pgSVC d) 1)) ∧
       (res = 0 → short → gf u (pgSVC d) SVC_RESULT_CODE ∈ errCodes ∧ eventSet u (pgSVC d) 1) ∧
       (gf s (pgSVC d) SVC_STAT_OP = 2 → u.dies = s.dies ∧ gf u (pgSVC d) SVC_DETAIL_V = detail % 2 ^ 16) ∧
       (gf s (pgSVC d) SVC_STAT_OP = 1 → ∀ k i, pageAt p = some (k, i) → k ≠ .mx → unitReady u p = (res == 0)))

/-- R490, R491, R495, R496: a control-store load that every check passes resets its die, which is then RESETTING, and is in progress; the
preparation of a return is in progress until its record is kept in the flash's log, and is then done. It rests on the model's readings in
log entries 11, 15 and 20. -/
def Obligations.LoadsAndRecordsRun : Prop :=
  ∀ (s : State) (r : Req),
    (∀ (d : DieId) (slot : Fin 2), mayWrite r (pgSSVC + 0x100) (setFld (setFld (setFld 0 CS_CMD_LOAD 1) CS_CMD_DIE d.val) CS_CMD_SLOT slot.val) s →
      gf s pgSSVC CS_STAT_BUSY = 0 → gf s pgCFG CFG_STAT_BUSY = 0 → (∀ h ∈ liveDies s, gf s (pgTICK h) TICK_CTRL_EN = 0) →
      (gf s (pgHTSof d) HTS_DIE_STATE = 2 ∨ gf s (pgHTSof d) HTS_DIE_STATE = 3 ∧ gf s (pgHTSof d) HTS_DIE_LOSS_CAUSE ≠ 3) →
      slotFirmware s slot.val = eOK → Config.dieIface (slotBytes s slot.val 144 48) = Config.stewardIface s.stw.fwHash →
      yields (.csLoad r d slot) s fun u => gf u pgSSVC CS_STAT_BUSY = 1 ∧ u.stw.csJob = some (d.val, slot.val) ∧
        gf u (pgHTSof d) HTS_DIE_STATE = 4) ∧
    (mayWrite r (pgSSVC + 0x10C) 1 s → gf s pgBOOT BOOT_STAT_STAGE = 4 → (∀ h ∈ liveDies s, gf s (pgTICK h) TICK_CTRL_EN = 0) →
      yields (.rmaPrep r) s fun u => gf u pgSSVC RMA_STAT_BUSY = 1 ∧ gf u pgSSVC RMA_STAT_DONE = 0 ∧ u = { s with regs := u.regs }) ∧
    (s.stw.halt ≠ .off → gf s pgSSVC RMA_STAT_BUSY = 1 → yields .rmaDone s fun u =>
      gf u pgSSVC RMA_STAT_BUSY = 0 ∧ gf u pgSSVC RMA_STAT_DONE = 1 ∧ eventSet u pgSSVC 1 ∧
      ∃ rec, u.stw = { s.stw with service := s.stw.service ++ [rec] } ∧ rec.tallies = s.tally ∧
        ∀ h : DieId, (pgHTSof h + 0x114, rd s (pgHTSof h + 0x114)) ∈ rec.regs)

/-- R509, R510, R511: the management target keeps a register address below 0x0500_0000 that is a multiple of 4; reads and writes of DATA are
register accesses of the steward there, whose code STATUS shows; IDENT answers the ordering code. None of them touches memory by itself.
R512, R516, R517: while the alert line is low the target answers the alert response with its address and nothing changes; a regulator's
alert shows the dies it names, and is an event when one is new. It rests on the model's readings in log entry 29. -/
def Obligations.ManagementCommandsAndAlerts : Prop :=
  (∀ (s : State) (pec : Bool), mgmtOn s = true → (gf s pgMGMT MGMT_CFG_PEC_REQ = 1 → pec = true) →
     (∀ a : W, a.toNat < 0x5000000 → a.toNat % 4 = 0 → yields (.smbAddr a pec) s fun u =>
       Booked [pgMGMT] { s with stw := { s.stw with smbAddr := a.toNat } } u) ∧
     (yields (.smbDataRead pec) s fun u =>
       let r := regRead .steward s.stw.smbAddr 4 s
       gf u pgMGMT MGMT_LAST_VALID = 1 ∧ gf u pgMGMT MGMT_LAST_WRITE = 0 ∧ gf u pgMGMT MGMT_LAST_CODE = r.2.1 % 2 ^ 16 ∧ u.mem = r.1.mem ∧
       ∃ rest, u.out = .smb (leBytes 4 (if r.2.1 = eOK then r.2.2.toNat else 0xFFFFFFFF)) :: rest) ∧
     (∀ v, yields (.smbDataWrite v pec) s fun u =>
       let r := regWrite .steward s.stw.smbAddr 4 v s
       gf u pgMGMT MGMT_LAST_VALID = 1 ∧ gf u pgMGMT MGMT_LAST_WRITE = 1 ∧ gf u pgMGMT MGMT_LAST_CODE = r.2 % 2 ^ 16 ∧ u.mem = r.1.mem) ∧
     (yields (.smbStatus pec) s fun u => u.mem = s.mem ∧ u.dies = s.dies ∧
       ∃ rest, u.out = .smb (leBytes 2 (gf s pgMGMT MGMT_LAST_CODE)) :: rest) ∧
     yields (.ident pec) s fun u => u.mem = s.mem ∧ u.dies = s.dies ∧
       ∃ rest, u.out = .smb ([0x45, 0x56, 0x58, 0x34, 0x2D, 0x39, 0x36, 0x30] ++ List.replicate 8 0) :: rest) ∧
  (∀ (s : State),
     (mgmtOn s = true → alertLow s = true → yields .alertResponse s fun u =>
       u = { s with out := .smb [BitVec.ofNat 8 (gf s pgMGMT MGMT_ADDR_V)] :: s.out }) ∧
     ∀ mask : Fin 16, s.stw.halt ≠ .off → yields (.vrAlert mask) s fun u =>
       (∀ d, d < 4 → bit (gf u pgMGMT MGMT_VR_FAULT) d = (bit (gf s pgMGMT MGMT_VR_FAULT) d || bit mask.val d)) ∧
       ((∃ d, d < 4 ∧ bit mask.val d = true ∧ bit (gf s pgMGMT MGMT_VR_FAULT) d = false) → eventSet u pgMGMT 1) ∧
       u.mem = s.mem ∧ u.dies = s.dies)

/-! ### Link ports (chapter 14) -/

/-- R297, R299, R307: an ACTIVE port takes the next flit in order whatever it carries, frees the flits it acknowledges, and a message of one
flit is whole; a damaged flit, or one of which a codeword cannot be corrected, is not taken, and the port asks for it again. A NAK resends every
kept flit from the one it names. R305: this is so while no more than 64 uncorrectable codewords came within 1 ms. It rests on the model's
readings in log entry 67. -/
def Obligations.FlitsComeInOrder : Prop :=
  ∀ (s : State) (p : PortId), runs s (portDie p) → portActive s p = true →
    let fecFew (fec : Fec) : Prop := fec.lost + (s.ports[p].unc.filter fun t => decide (s.time - t < 1000000)).length ≤ 64
    (∀ bytes fec, let f := readFlit bytes
      fec.bad = false → fecFew fec → flitCrcOk bytes = true → flitFormOk bytes = true → f.null = false → f.nak = false → f.fo = false →
      f.seq = s.ports[p].rxNext → yields (.flitReceive p bytes fec) s fun u =>
        u.ports[p].rxNext = (f.seq + 1) % 65536 ∧ u.ports[p].seeking = false ∧ u.mem = s.mem ∧
        (f.first = true → f.last = true → u.ports[p].inbox = s.ports[p].inbox ++
          [⟨⟨f.cls, f.kind, f.hops, f.slice, f.dst, f.src, f.flow, f.epoch, f.pgen, f.payload⟩, some p, p⟩])) ∧
    (∀ bytes fec, fecFew fec → fec.bad = true ∨ flitCrcOk bytes = false ∨ flitFormOk bytes = false → yields (.flitReceive p bytes fec) s fun u =>
      u.ports[p].rxNext = s.ports[p].rxNext ∧ u.ports[p].seeking = true ∧ u.ports[p].inbox = s.ports[p].inbox ∧ u.mem = s.mem ∧
      ∃ b rest, u.out = .flit p b :: rest ∧ (readFlit b).nak = true) ∧
    ∀ seq, seq < 65536 → (s.ports[p].nakSeq = seq ∧ 0 < s.ports[p].nakCount → s.ports[p].nakCount < gf s (pgLPof p) LP_CFG_REPLAY_MAX) →
      0 < gf s (pgLPof p) LP_CFG_REPLAY_MAX → yields (.nak p seq) s fun u =>
        u.ports[p].nakSeq = seq ∧ u.mem = s.mem ∧
        ∀ k ∈ s.ports[p].replay, seqGe ((seq + 65535) % 65536) k.flit.seq = false → .flit p (resent s.time k).bytes ∈ u.out

/-- R301, R302: a port that is enabled and not fenced starts training, goes through its states as each is reached, and fails with the cause of
the state that times out; disabled it is OFF. R302, R303, R304, R305: a hello of the version spoken, from the peer expected, shows the peer
and begins MEASURE with 16 probes; one of another version or peer fails the training. A peer's probe is returned with its time stamps; the
sixteenth result makes the port ACTIVE with the median latency. Loss of lock and silence fail an ACTIVE port, with their causes and the
event. It rests on the model's readings in log entries 3, 68 and 70. -/
def Obligations.PortsTrainByState : Prop :=
  (∀ (s : State) (p : PortId),
     (∀ r, let st := portState s p
       (mayAsk r (pgLPof p) LP_CTRL_ENABLE 1 [LP_CTRL_AUTO_RETRAIN] s → st = 0 → gf s (pgLPof p) FENCE_REQ = 0 →
         yields (.lpEnable r p true) s fun u => portState u p = 1 ∧ gf u (pgLPof p) LP_CTRL_ENABLE = 1 ∧ u.mem = s.mem) ∧
       (mayAsk r (pgLPof p) LP_CTRL_ENABLE 0 [LP_CTRL_AUTO_RETRAIN] s → yields (.lpEnable r p false) s fun u =>
         portState u p = 0 ∧ gf u (pgLPof p) LP_CTRL_ENABLE = 0 ∧ u.mem = s.mem) ∧
       (mayAsk r (pgLPof p) LP_CTRL_RETRAIN 1 [LP_CTRL_ENABLE, LP_CTRL_AUTO_RETRAIN] s → st = 6 → gf s (pgLPof p) LP_CTRL_ENABLE = 1 →
         gf s (pgLPof p) FENCE_REQ = 0 → yields (.lpRetrain r p) s fun u => portState u p = 1 ∧ u.mem = s.mem)) ∧
     (runs s (portDie p) →
       (portState s p = 1 → yields (.pmdTrained p) s fun u => portState u p = 2 ∧ u = { s with regs := u.regs }) ∧
       (portState s p = 2 → yields (.amLock p) s fun u => portState u p = 3 ∧ u = { s with regs := u.regs, out := .hello p (helloOf s p) :: s.out }) ∧
       (portState s p = 3 → yields (.helloSend p) s fun u => u = { s with out := .hello p (helloOf s p) :: s.out }) ∧
       (∀ st c, (st, c) ∈ [(1, 2), (2, 3), (3, 4), (4, 4)] → portState s p = st → yields (.trainTimeout p) s fun u =>
         portState u p = 6 ∧ gf u (pgLPof p) LP_STATE_CAUSE = c ∧ u = { s with regs := u.regs }) ∧
       (portState s p = 6 → gf s (pgLPof p) LP_CTRL_AUTO_RETRAIN = 1 → gf s (pgLPof p) LP_CTRL_ENABLE = 1 → gf s (pgLPof p) FENCE_REQ = 0 →
         yields (.autoRetrain p) s fun u => portState u p = 1 ∧ u.mem = s.mem ∧ u.dies = s.dies))) ∧
  (∀ (s : State) (p : PortId), runs s (portDie p) →
     (∀ h : Hello, portState s p = 3 →
       let wrong := gf s (pgLPof p) LP_EXPECT_CHECK = 1 ∧
         (h.member ≠ gf s (pgLPof p) LP_EXPECT_PEER ∨ h.slice ≠ gf s (pgLP (portDie p)) LS_SLICE_SLICE_ID)
       yields (.hello p h) s fun u => u.mem = s.mem ∧
         (h.major ≠ 1 → portState u p = 6 ∧ gf u (pgLPof p) LP_STATE_CAUSE = 5 ∧ eventSet u (pgLPof p) 4) ∧
         (h.major = 1 → wrong → portState u p = 6 ∧ gf u (pgLPof p) LP_STATE_CAUSE = 6 ∧ eventSet u (pgLPof p) 3) ∧
         (h.major = 1 → ¬wrong → portState u p = 4 ∧ gf u (pgLPof p) LP_PEER_MEMBER = h.member % 4096 ∧
           gf u (pgLPof p) LP_PEER_PORT = h.port % 16 ∧ gf u (pgLPof p) LP_PEER_SLICE = h.slice % 65536 ∧
           gf u (pgLPof p) LP_STATE_MINOR = min 1 h.minor ∧ u.ports[p].probes = [] ∧
           u.out = List.replicate 16 (.probe p (timeStamp s (portDie p).val) 0 0) ++ s.out)) ∧
     (∀ t, portState s p = 4 ∨ portState s p = 5 → yields (.probe p (.request t)) s fun u =>
       u = { s with out := .probe p t (timeStamp s (portDie p).val) (timeStamp s (portDie p).val) :: s.out }) ∧
     (∀ t1 t2 t3, portState s p = 4 → yields (.probe p (.result t1 t2 t3)) s fun u =>
       let t4 := timeStamp s (portDie p).val
       let xs := ((t4 - t1) - (t3 - t2)) / 2 :: s.ports[p].probes
       u.ports[p].probes = xs ∧ u.mem = s.mem ∧
       (xs.length ≠ 16 → portState u p = 4) ∧
       (xs.length = 16 → portState u p = 5 ∧ gf u (pgLPof p) LP_LAT_V = min 65535 (median16 xs) ∧
         u.ports[p].credits = #v[16, 64, 96, 256] ∧ u.ports[p].txSeq = 0 ∧ u.ports[p].rxNext = 0 ∧ eventSet u (pgLPof p) 0)) ∧
     ∀ i c, (i, c) ∈ [(Instr.lossOfLock p, 7), (.dead p, 8)] → portActive s p = true → yields i s fun u =>
       portState u p = 6 ∧ gf u (pgLPof p) LP_STATE_CAUSE = c ∧ u.ports[p].replay = [] ∧ eventSet u (pgLPof p) 1 ∧ u.mem = s.mem)

/-- R311, R312: a message of another slice is dropped and counted; one for another member, within its hop limit, leaves by the port that routing
gives, with one hop more. R313: a copy makes the shadow bank equal to the active bank while no exchange waits; a swap waits for the next
tick edge. It rests on the model's readings in log entries 69 and 70. -/
def Obligations.MessagesAndRoutingBanks : Prop :=
  (∀ (s : State) (p : PortId) (m : LinkMsg), runs s (portDie p) → pState s = 0 → portState s p = 5 → (∀ r ∈ s.ports[p].inbox, r.msg ≠ m) →
     (m.kind ≠ 3 → m.slice ≠ gf s (pgLP (portDie p)) LS_SLICE_SLICE_ID → yields (.linkMessage p m) s fun u =>
       u = { s with regs := u.regs, tally := u.tally, rem := u.rem, hostMem := u.hostMem, queues := u.queues, out := u.out } ∧
       (gf s (pgLPof p) CTRL_FREEZE = 0 → (sget zt s.tally (pgLPof p + 11)).count.toNat + 1 < 2 ^ 48 →
         (sget zt u.tally (pgLPof p + 11)).count.toNat = (sget zt s.tally (pgLPof p + 11)).count.toNat + 1)) ∧
     ∀ q, m.kind ≠ 3 → m.kind ≠ 1 → m.slice = gf s (pgLP (portDie p)) LS_SLICE_SLICE_ID → m.dst ≠ ownMember s (portDie p) →
       m.pgen % 65536 = gf s (pgLP (portDie p)) LS_PGEN_CUR → m.hops + 1 < gf s (pgLP (portDie p)) LS_CFG_HOP_MAX →
       routePort s (portDie p) m.dst m.flow = some q → yields (.linkMessage p m) s fun u =>
         .link q { m with hops := m.hops + 1 } ∈ u.out ∧ u.mem = s.mem ∧ u.dies = s.dies) ∧
  (∀ (s : State) (r : Req) (d : DieId),
     (mayWrite r (pgLP d + 0x214) 1 s → yields (.rtSwap r d) s fun u => gf u (pgLP d) RT_CTRL_PENDING = 1 ∧ u = { s with regs := u.regs } ∧
       ∀ a, a ≠ pgLP d + 0x214 → rd u a = rd s a) ∧
     (mayWrite r (pgLP d + 0x214) 2 s → gf s (pgLP d) RT_CTRL_PENDING = 0 → yields (.rtCopy r d) s fun u =>
       (∀ m, m < 4096 → sget z32 u.dies[d].rt m = sget z32 s.dies[d].rt m ∧ sget z32 u.dies[d].rt (4096 + m) = sget z32 s.dies[d].rt m) ∧
       u = { s with dies := s.dies.set d { s.dies[d] with rt := u.dies[d].rt } }))

/-! ### The stairway, the hatches and the loss of a die (chapters 16 and 17) -/

/-- R393, R394: on a side that is not FAILED, a higher epoch starts training at the peer's epoch; an advert takes a DOWN side into CAL; agreed
width words that are equal and not zero take it into MEASURE. A side that is not ACTIVE goes on advertising. R391, R394, R395, R405: the
wires' test sets each flight's width and is advertised; with the peer's widths known each flight takes the lower. The measurement makes the
side ACTIVE with its latency and its sequence numbers kept; R396: with the side across ACTIVE too, every unit it holds unacknowledged on a
flight in use goes again. A training that times out fails the side, and an ACTIVE side that trains
automatically trains again when its errors reach the limit. It rests on the model's readings in log entries 3 and 78. -/
def Obligations.SidesTrainToTheAgreedWidth : Prop :=
  (∀ (s : State) (d : DieId) (e : SideId), runs s d → s.stw.csJob = none →
     (∀ a : Advert, swState s d e ≠ 6 → yields (.advert d e a) s fun u =>
       gf u (pgSWof d e) SW_EPOCH_PEER = a.ep % 65536 ∧ u.mem = s.mem ∧
       (epHigher a.ep (swEp s d e) = true → swState u d e = 1 ∧ swEp u d e = a.ep % 65536 ∧ gf u (pgSWof d e) SW_STATE_CAUSE = 3 ∧
         u.dies[d].sides[e].aw = none) ∧
       (epHigher a.ep (swEp s d e) = false → swState s d e = 0 → swState u d e = 1 ∧ swEp u d e = swEp s d e) ∧
       (epHigher a.ep (swEp s d e) = false → swState s d e = 3 → a.ep = swEp s d e → a.isAw = true → s.dies[d].sides[e].aw = some a.width →
         a.width ≠ 0 → swState u d e = 4)) ∧
     (swState s d e ≠ 5 → yields (.advertSend d e) s fun u => u = { s with out := .advert d e (advertOf s d e) :: s.out })) ∧
  (∀ (s : State) (d : DieId) (e : SideId), runs s d → s.stw.csJob = none →
     let code (fails : List (List Nat)) (f : Nat) : Nat :=
       let bad := (fails.getD f []).filter fun k => decide (k < 68)
       let good := ((List.range 68).filter fun k => !bad.contains k).length
       if 68 ∈ fails.getD f [] ∨ 69 ∈ fails.getD f [] ∨ good < 32 then 0 else if 64 ≤ good then 2 else 1
     (∀ fails, swState s d e = 1 → yields (.calDone d e fails) s fun u => u.mem = s.mem ∧
       (∀ f, f < 16 → flightCode (rd u (pgSWof d e + SW_RXWIDTH_RXW.off)) f = code fails f ∧
         u.dies[d].sides[e].fails.toList.getD f [] = fails.getD f []) ∧
       (s.dies[d].sides[e].peerRxw = none → swState u d e = 3) ∧
       ∀ w, s.dies[d].sides[e].peerRxw = some w → s.dies[d].sides[e].peerAw = none → swState u d e = 3 ∧
         ∀ f, f < 16 → flightCode (rd u (pgSWof d e + SW_WIDTH_AW.off)) f = min (code fails f) (flightCode w f)) ∧
     (∀ lats, swState s d e = 4 → lats.length = 16 → yields (.swMeasureDone d e lats) s fun u =>
       swState u d e = 5 ∧ gf u (pgSWof d e) SW_LAT_V = min 65535 (median16 lats) ∧ gf u (pgSWof d e) SW_STATE_TRIES = 0 ∧
       u.dies[d].sides[e].rxSeq = s.dies[d].sides[e].rxSeq ∧ eventSet u (pgSWof d e) 0 ∧ u.mem = s.mem ∧
       (swState s (across d e) (1 - e) = 5 → ∀ f ∈ flightsUsed s d e, ∀ h ∈ s.dies[d].sides[e].held[f],
         .swUnit d e f.val (swWire h.seq h.item) ∈ u.out)) ∧
     (swState s d e = 1 ∨ swState s d e = 3 → yields (.swTrainTimeout d e) s fun u =>
       swState u d e = 6 ∧ eventSet u (pgSWof d e) 3 ∧ gf u (pgSWof d e) LAST_ERR_CODE = eWIDTH_MISMATCH ∧ u.mem = s.mem) ∧
     (swState s d e = 5 → gf s (pgSWof d e) SW_CTRL_AUTO = 1 → yields (.errorLimit d e) s fun u =>
       swState u d e = 1 ∧ gf u (pgSWof d e) SW_STATE_CAUSE = 2 ∧ swEp u d e = (swEp s d e + 1) % 65536 ∧ eventSet u (pgSWof d e) 1 ∧ u.mem = s.mem) ∧
     ∀ r, mayAsk r (pgSWof d e) SW_CTRL_RETRAIN 1 [SW_CTRL_AUTO] s → gf s (pgSWof d e) FENCE_REQ = 0 → yields (.swRetrain r d e) s fun u =>
       swState u d e = 1 ∧ gf u (pgSWof d e) SW_STATE_CAUSE = 1 ∧ swEp u d e = (swEp s d e + 1) % 65536 ∧ u.mem = s.mem)

/-- R394, R395, R397, R398: a unit in order and whole advances its flight; a damaged one is asked for again. Both sides of an edge that stays
down are FAILED. A reset notice takes a side DOWN, and that and the loss of an ACTIVE side's clock are reported to the steward. It rests on
the model's readings in log entries 74, 75 and 76. -/
def Obligations.EdgesCarryFailAndReport : Prop :=
  ∀ (s : State) (d : DieId) (e : SideId), runs s d → s.stw.csJob = none →
    (∀ (f : Fin 16) (u : SwUnit), swState s d e = 5 → flightCode (rd s (pgSWof d e + SW_WIDTH_AW.off)) f.val ≠ 0 →
      let whole := (crc16 (u.data ++ leBytes 2 u.track.toNat)).toNat = u.track.toNat / 65536
      let want := s.dies[d].sides[e].rxSeq[f]
      (whole → u.track.toNat % 4096 = want → yields (.stairwayUnitReceive d e f u) s fun t =>
        t.dies[d].sides[e].rxSeq = s.dies[d].sides[e].rxSeq.set f ((want + 1) % 4096) ∧ t.mem = s.mem ∧ swState t d e = 5) ∧
      (¬whole → yields (.stairwayUnitReceive d e f u) s fun t =>
        t.dies[d].sides[e].rxSeq = s.dies[d].sides[e].rxSeq ∧ .swNak d e f.val want ∈ t.out ∧ t.mem = s.mem)) ∧
    (dieLive s (across d e) = true → swState s d e ≠ 5 → swState s d e ≠ 6 → yields (.holdExpiry d e) s fun u =>
      swState u d e = 6 ∧ swState u (across d e) (1 - e) = 6 ∧ gf u (pgSWof d e) SW_STATE_CAUSE = 6) ∧
    (swState s d e ≠ 6 → yields (.resetNotice d e) s fun u => swState u d e = 0 ∧ gf u (pgSWof d e) SW_STATE_CAUSE = 7 ∧
      (across d e).val ∈ u.stw.notices ∧ eventSet u (pgSWof d e) 4 ∧ (∃ rest, u.out = .peerDrop d (across d e) :: rest) ∧ u.mem = s.mem) ∧
    (swState s d e = 5 → yields (.clockAbsent d e) s fun u => eventSet u (pgSWof d e) 4 ∧ (∃ rest, u.out = .peerDrop d (across d e) :: rest) ∧
      swState u d e = 5 ∧ u.mem = s.mem ∧ u.dies = s.dies)

/-- R398, R399, R403: a die is lost when both neighbours have reported it, when its hatch is silent after a report, or when its hatch reports
its clock or its rail; one report alone is kept. A hatch module that fails is FAILED on both its pages, and the die runs on over the other.
R400, R401: a reset that the state of the die allows makes it RESETTING; a resetting die is ready to rejoin when both its sides are ACTIVE
and its test passed, with its hatch and its stacks up where their training does not fail, and is LOST again when a side or the test failed,
which the die then shows (R381); a rejoin, while no live die takes ticks, makes it RUNNING, with its
event. It rests on the model's readings in log entries 3, 74 and 75. -/
def Obligations.DiesAreLostAndRejoin : Prop :=
  (∀ (s : State) (p : DieId), s.stw.halt = .none → s.stw.csJob = none → dieLive s p = true →
     (∀ q ∈ [cwDie p, ccwDie p], dieLive s q = true → p.val ∉ s.stw.notices →
       let other := if q = cwDie p then ccwDie p else cwDie p
       ((other.val, p.val) ∈ s.stw.drops → yields (.peerDrop q p) s fun u =>
         gf u (pgHTSof p) HTS_DIE_STATE = 3 ∧ gf u (pgHTSof p) HTS_DIE_LOSS_CAUSE = 6 ∧ gf u (pgHTSof p) HTS_DIE_WARM = 0 ∧ eventSet u (pgHTSof p) 2) ∧
       ((other.val, p.val) ∉ s.stw.drops → yields (.peerDrop q p) s fun u =>
         (q.val, p.val) ∈ u.stw.drops ∧ u.regs = s.regs ∧ u.mem = s.mem ∧ u.dies = s.dies)) ∧
     ((∃ x ∈ s.stw.drops, x.2 = p.val) → yields (.hatchSilent p) s fun u =>
       gf u (pgHTSof p) HTS_DIE_STATE = 3 ∧ gf u (pgHTSof p) HTS_DIE_LOSS_CAUSE = 5 ∧ eventSet u (pgHTSof p) 2) ∧
     (∀ k c, (k, c) ∈ [(LossReport.clock, 3), (.rail, 4)] → yields (.hatchLossReport p k) s fun u =>
       gf u (pgHTSof p) HTS_DIE_STATE = 3 ∧ gf u (pgHTSof p) HTS_DIE_LOSS_CAUSE = c ∧ eventSet u (pgHTSof p) 2) ∧
     ∀ m : Fin 2, let f := if m = 0 then HT_STATE_MOD0 else HT_STATE_MOD1
       let g := if m = 0 then HT_STATE_MOD1 else HT_STATE_MOD0
       gf s (pgHTSof p) f = 5 → gf s (pgHT p) f = 5 → gf s (pgHTSof p) g = 5 → yields (.hatchModuleFail p m) s fun u =>
         gf u (pgHTSof p) f = 6 ∧ gf u (pgHT p) f = 6 ∧ gf u (pgHTSof p) g = 5 ∧ eventSet u (pgHTSof p) 0 ∧ eventSet u (pgHT p) 0 ∧
         dieLive u p = true ∧ u.mem = s.mem ∧ u.dies = s.dies) ∧
  (∀ (s : State) (h : DieId),
     (∀ r k, mayWrite r (pgHTSof h + 0x110) (setFld (setFld 0 HTS_CTRL_RESET 1) HTS_CTRL_KIND (if k = ResetKind.warm then 0 else 1)) s →
       gf s (pgHTSof h) HTS_DIE_STATE = 2 ∨ gf s (pgHTSof h) HTS_DIE_STATE = 3 ∧ gf s (pgHTSof h) HTS_DIE_LOSS_CAUSE ≠ 3 →
       yields (.dieReset r h k) s fun u => gf u (pgHTSof h) HTS_DIE_STATE = 4 ∧ u.dies[h].acc = [] ∧ u.dies[h].tick = Die.reset.tick ∧
         (k = .cold → ∀ a, cellarBase h ≤ a → a < cellarBase h + cellarSize → sget zb u.mem a = 0)) ∧
     (s.stw.halt = .none → s.stw.csJob = none → gf s (pgHTSof h) HTS_DIE_STATE = 4 →
       (swState s h 0 = 5 → swState s h 1 = 5 → yields (.rejoinReady h true) s fun u => gf u (pgHTSof h) HTS_DIE_STATE = 5 ∧
         gf u (pgTIME h) TS_STAT_SYNCED = 1 ∧ gf u (pgINTEG h) INTEG_STAT_FILL_DONE = 1 ∧ u.mem = s.mem ∧ u.dies = s.dies ∧
         ((∀ x ∈ s.stw.env.hatchFail, x.1 ≠ h.val) → ∀ q ∈ [pgHTSof h, pgHT h], gf u q HT_STATE_MOD0 = 5 ∧ gf u q HT_STATE_MOD1 = 5) ∧
         ((∀ x ∈ s.stw.env.stackFail, x.1 ≠ h.val) → ∀ c, c < 3 → gf u (pgSCof h c) SC_STAT_MODE = 1)) ∧
       (swState s h 0 = 5 → swState s h 1 = 5 → yields (.rejoinReady h false) s fun u => gf u (pgHTSof h) HTS_DIE_STATE = 3 ∧
         gf u (pgHTSof h) HTS_DIE_LOSS_CAUSE = 7 ∧ gf u (pgINTEG h) INTEG_STAT_CHK_FAIL = 1 ∧ eventSet u (pgINTEG h) 5 ∧
         u.mem = s.mem ∧ u.dies = s.dies) ∧
       ∀ ok, swState s h 0 = 6 ∨ swState s h 1 = 6 → yields (.rejoinReady h ok) s fun u => gf u (pgHTSof h) HTS_DIE_STATE = 3 ∧
         gf u (pgHTSof h) HTS_DIE_LOSS_CAUSE = 8 ∧ u = { s with regs := u.regs }) ∧
     ∀ r, mayAsk r (pgHTSof h) HTS_CTRL_REJOIN 1 [HTS_CTRL_KIND] s → gf s (pgHTSof h) HTS_DIE_STATE = 5 →
       (∀ d ∈ liveDies s, gf s (pgTICK d) TICK_CTRL_EN = 0) → yields (.rejoin r h) s fun u =>
         gf u (pgHTSof h) HTS_DIE_STATE = 2 ∧ eventSet u (pgHTSof h) 3 ∧ u.mem = s.mem ∧ (∀ x ∈ u.stw.drops, x.2 ≠ h.val))

/-! ### Memory integrity, line requests, tables and arrays (chapters 9, 11, 13 and 15) -/

/-- R375, R378, R382, R383: the scrubber reads its next word and goes to the one after, from the last word to the first. A word with at most two
bad symbols is corrected, and one with more is recorded as uncorrectable and stays. The age limit raises its event once a lap. R385: an
arming that names between one and three symbols, with a word in the die's own store room or cellar outside the steward's region in INJ_ADDR,
sets ARM and clears DONE. The next whole write of that word then stores as many bad symbols and clears ARM. It rests on the model's readings
in log entries 3 and 65. -/
def Obligations.ScrubbingAndInjection : Prop :=
  (∀ (s : State) (d : DieId), s.wf = true → runs s d →
     let w := s.dies[d].integ.next
     let a := lapAddr d w
     (gf s (pgINTEG d) INTEG_CFG_SCRUB_EN = 1 → pState s < 3 → stopped s = false → s.dies[d].trunk = [] → w < lapWords →
       yields (.scrubRead d w) s fun u => u.mem = s.mem ∧ u.dies[d].integ.next = (if w + 1 = lapWords then 0 else w + 1) ∧
         (wordErr s a ≤ 2 → wordErr u a = 0) ∧
         (2 < wordErr s a → wordErr u a = wordErr s a ∧ rd64 u (pgINTEG d + UE_ADDR_LO_V.off) = a ∧ eventSet u (pgINTEG d) 2)) ∧
     (rd s (pgINTEG d + SCRUB_AGE_MAX_V.off) ≠ 0 →
       (s.dies[d].integ.slowRaised = false → yields (.scrubSlow d) s fun u => eventSet u (pgINTEG d) 3 ∧
         u.dies[d].integ = { s.dies[d].integ with slowRaised := true } ∧ u.mem = s.mem) ∧
       (s.dies[d].integ.slowRaised = true → yields (.scrubSlow d) s fun u => u = s))) ∧
  (∀ (s : State) (r : Req) (d : DieId) (n : Fin 4),
     (mayWrite r (pgINTEG d + 0x138) (setFld (setFld 0 INJ_CTRL_ARM 1) INJ_CTRL_SYMS n.val) s → 0 < n.val →
       injAddrOk d (rd64 s (pgINTEG d + INJ_ADDR_LO_V.off) % 2 ^ 52) = true → yields (.injArm r d n) s fun u =>
         gf u (pgINTEG d) INJ_CTRL_ARM = 1 ∧ gf u (pgINTEG d) INJ_CTRL_DONE = 0 ∧ gf u (pgINTEG d) INJ_CTRL_SYMS = n.val ∧
         u = { s with regs := u.regs } ∧ ∀ a, a ≠ pgINTEG d + 0x138 → rd u a = rd s a) ∧
     ∀ (w : MemReq) (a : Nat) (bs : List Byte), a % 64 = 0 → bs.length = 64 → homeDie a = d → gf s (pgINTEG d) INJ_CTRL_ARM = 1 →
       rd64 s (pgINTEG d + INJ_ADDR_LO_V.off) / 64 = a / 64 →
       let u := (writeWord w a bs s).1
       (writeWord w a bs s).2 = eOK ∧ wordErr u a = gf s (pgINTEG d) INJ_CTRL_SYMS ∧ gf u (pgINTEG d) INJ_CTRL_ARM = 0 ∧
         gf u (pgINTEG d) INJ_CTRL_DONE = 1 ∧ peek u a 64 = bs)

/-- R25, R227, R228: over a route that does not train again (R396), the home of a line serves a mover's read with its bytes and its write byte
for byte, and the read stays open with the route it started on; a line that comes back is placed in
the loft it was asked for, unless an event since the request has invalidated it; a flush invalidates every line and every request. It rests
on the model's readings in log entries 64 and 65. -/
def Obligations.LinesAreServedPlacedAndFlushed : Prop :=
  ∀ (s : State) (d src : DieId),
    (runs s d → dieLive s src = true → src ≠ d → fabricHeld s src d = false → clean s → s.dies[d].trunk = [] → ∀ addr, homeDie addr = d →
      (∀ len stable unc, 0 < len → accessCheck (.mover src) addr len false s = eOK → yields (.lineRequest d src addr (.read len stable unc)) s fun u =>
        u.mem = s.mem ∧ .lineRequest d src addr (.read len stable unc) ∈ u.out ∧ .lineResponse src addr eOK (peek s addr len) ∈ u.out ∧
        (isStore addr = false → u.dies[src].lineReqs = s.dies[src].lineReqs ++ [⟨addr, stable, unc, false, routeVia s src d⟩])) ∧
      ∀ data, 0 < data.length → accessCheck (.mover src) addr data.length true s = eOK → yields (.lineRequest d src addr (.write data)) s fun u =>
        .lineRequest d src addr (.write data) ∈ u.out ∧ .lineResponse src addr eOK [] ∈ u.out ∧ ∀ a, sget zb u.mem a =
          if addr ≤ a ∧ a < addr + data.length then data.getD (a - addr) 0 else sget zb s.mem a) ∧
    (runs s d → gf s (pgLOFT d) LOFT_CFG_ENABLE = 1 → ∀ q data, s.dies[d].lineReqs.find? (fun r => r.addr == q.addr) = some q →
      q.uncached = false → q.addr % 256 = 0 → data.length = 256 → yields (.lineResponse d q.addr data) s fun u =>
        u.mem = s.mem ∧ u.dies[d].lineReqs = s.dies[d].lineReqs.erase q ∧
        (q.killed = false → ∃ way, way < 16 ∧ sget zline u.dies[d].loft (q.addr / 256) = some ⟨data, way, q.stepStable, false⟩) ∧
        (q.killed = true → u.dies[d].loft = s.dies[d].loft)) ∧
    ∀ r, mayWrite r (pgLOFT d + 0x104) 1 s → yields (.loftFlush r d) s fun u =>
      u.dies[d].loft = [] ∧ u.dies[d].lineReqs = s.dies[d].lineReqs.map (fun q => { q with killed := true }) ∧
      u = { s with dies := s.dies.set d { s.dies[d] with loft := u.dies[d].loft, lineReqs := u.dies[d].lineReqs } }

/-- R259, R272, R287: while the die takes no ticks, its version table is made valid, made valid with every entry at its first state, or
forgotten, and its ladder made valid or forgotten, each by its bit; nothing else changes. It rests on the model's readings in log entry 26. -/
def Obligations.TablesBecomeValidOrForgotten : Prop :=
  ∀ (s : State) (r : Req) (d : DieId), gf s (pgTICK d) TICK_CTRL_EN = 0 →
    let only (a : Nat) (u : State) : Prop := u = { s with regs := u.regs, dies := u.dies } ∧ ∀ b, b ≠ a → rd u b = rd s b
    (mayWrite r (pgUPD d + 0x110) 1 s → yields (.updValid r d) s fun u => gf u (pgUPD d) UPD_VCTL_VALID = 1 ∧
      only (pgUPD d + 0x110) u ∧ u.dies = s.dies) ∧
    (mayWrite r (pgUPD d + 0x110) 2 s → yields (.updInit r d) s fun u => gf u (pgUPD d) UPD_VCTL_VALID = 1 ∧ only (pgUPD d + 0x110) u ∧
      u.dies = s.dies.set d { s.dies[d] with vtab := [] }) ∧
    (mayWrite r (pgUPD d + 0x110) 4 s → yields (.updForget r d) s fun u => gf u (pgUPD d) UPD_VCTL_VALID = 0 ∧
      only (pgUPD d + 0x110) u ∧ u.dies = s.dies) ∧
    (mayWrite r (pgWATCH d + 0x10C) 1 s → yields (.ladderValid r d) s fun u => gf u (pgWATCH d) WATCH_LADDER_VALID = 1 ∧
      only (pgWATCH d + 0x10C) u ∧ u.dies = s.dies) ∧
    (mayWrite r (pgWATCH d + 0x10C) 2 s → yields (.ladderForget r d) s fun u => gf u (pgWATCH d) WATCH_LADDER_VALID = 0 ∧
      only (pgWATCH d + 0x10C) u ∧ u.dies = s.dies)

/-- R86, R87, R165, R170: the array of a rank starts at 16/64 and rises by 1/64 up to 64/64, never above its cap. A parity error that persists
makes an array FAILED and fenced, with its event: its executing task ends with PARITY and the frame fails; the active spare drops its
samples. R162, R163, R247: the active spare delivers its oldest sample, and the others stay in their order. It rests on the model's readings
in log entries 3, 60 and 61. -/
def Obligations.ArraysRampFailAndSample : Prop :=
  (∀ (s : State) (d : DieId), runs s d →
     let ramped (m n : Nat) (u : State) : Prop := gf u (pgMXof d m) MX_RATE_RAMP = n ∧
       gf u (pgMXof d m) MX_RATE_NOW = min n (gf s (pgMXof d m) MX_RATE_CAP) ∧ gf u (pgMXof d m) MX_RATE_CAP = gf s (pgMXof d m) MX_RATE_CAP ∧
       u = { s with regs := u.regs } ∧ ∀ a, a ≠ pgMXof d m + 0x108 → rd u a = rd s a
     (∀ (rank : Fin 6) m, rankArray s d rank.val = some m → yields (.arrayStart d rank) s (ramped m 16)) ∧
     (∀ mx : Fin 7, yields (.rampStep d mx) s (ramped mx.val (min 64 (gf s (pgMXof d mx.val) MX_RATE_RAMP + 1)))) ∧
     ∀ (mx : Fin 7) i, activeImg s d = some i →
       let q := pgMXof d mx.val
       let failed (u : State) : Prop := gf u q MX_STATE_STATE = 4 ∧ gf u q FENCE_FENCED = 1 ∧ eventSet u q 0 ∧ u.mem = s.mem
       (∀ t ts, gf s q MX_STATE_STATE = 0 ∨ gf s q MX_STATE_STATE = 2 → execOn s d i (gf s q MX_STATE_RANK) = t :: ts →
         yields (.arrayParityFault d mx) s fun u => failed u ∧ tstat u d t = .ended ePARITY ∧ gf u (pgDISP d) DISP_FRAME_FAILED = 1) ∧
       (activeSpare s d = some mx.val → yields (.arrayParityFault d mx) s fun u => failed u ∧ u.dies[d].shadow = [] ∧
         gf u q LAST_ERR_CODE = ePARITY)) ∧
  (∀ (s : State) (d : DieId) (x : Shadow) (xs : List Shadow) (m : Nat), runs s d → s.dies[d].shadow = x :: xs → x.wait = [] →
     activeSpare s d = some m → yields (.shadowSampleDone d) s fun u => u.dies[d].shadow = shadowFill xs ∧ u.mem = s.mem ∧
       (∀ y ∈ u.dies[d].shadow, ∃ z ∈ xs, y = { z with passes := y.passes, held := y.held, wait := y.wait }) ∧
       u.dies = s.dies.set d { s.dies[d] with shadow := shadowFill xs, watch := { s.dies[d].watch with acc := u.dies[d].watch.acc } })

/-! ### Graph slots and the beat (chapters 5 and 6) -/

/-- Slot `k` of die `d` is in state `n` with contents `sl`, and the other slot and memory are those of `s`. -/
def Sys2Proof.Machine.slotBecomes (s u : State) (d : DieId) (k : Fin 2) (n : Nat) (sl : Slot) : Prop :=
  slotState u d k.val = n ∧ slotOf u d k.val = sl ∧ slotState u d (1 - k.val) = slotState s d (1 - k.val) ∧
    slotOf u d (1 - k.val) = slotOf s d (1 - k.val) ∧ u.mem = s.mem

/-- Requester `r` may write operation `op` for slot `k` to DISP_CMD of die `d`. -/
def Sys2Proof.Machine.slotMay (s : State) (r : Req) (d : DieId) (op : Nat) (k : Fin 2) : Prop :=
  mayWrite r (pgDISP d + 0x104) (BitVec.ofNat 32 (op + 16 * k.val)) s

/-- R105, R106, R243: LOAD of an EMPTY or READY slot latches the image range and makes it LOADING; ARM of a READY slot whose watch tables still
digest as at its validation, in time and beside no other armed slot, makes it ARMED for ACT_STEP; DISARM and UNLOAD lead back. A command on
an ACTIVE slot is rejected with SLOT_ACTIVE. R102, R103, R105: the validation of a LOADING slot ends with the slot READY and its digests,
version and sequence number shown when every check passed, and else with the slot EMPTY and the code and index of the first failed check
shown. It rests on the model's readings in log entries 34, 35, 39 and 40. -/
def Obligations.SlotsAreLoadedValidatedAndArmed : Prop :=
  (∀ (s : State) (r : Req) (d : DieId) (k : Fin 2), slotMay s r d 1 k → slotState s d k.val = 0 ∨ slotState s d k.val = 2 →
     rd64 s (pgDISP d + DISP_IMG_LO_V.off) % 4096 = 0 → 0 < gf s (pgDISP d) DISP_IMG_LEN_V → yields (.dispLoad r d k) s fun u =>
       slotBecomes s u d k 1 ⟨rd64 s (pgDISP d + DISP_IMG_LO_V.off), gf s (pgDISP d) DISP_IMG_LEN_V * 4096, 0, 0, 0⟩) ∧
  (∀ (s : State) (r : Req) (d : DieId) (k : Fin 2), slotMay s r d 2 k → slotState s d k.val = 2 → slotState s d (1 - k.val) ≠ 3 →
     (gf s (pgTICK d) TICK_CTRL_EN = 0 ∨ ∀ n, lastStep s d = some n → n < rd64 s (pgDISP d + DISP_ACT_STEP_LO_V.off)) →
     (if k = 0 then s.dies[d].watch.digA else s.dies[d].watch.digB) = watchDigest s d → yields (.dispArm r d k) s fun u =>
       slotBecomes s u d k 3 { slotOf s d k.val with actStep := rd64 s (pgDISP d + DISP_ACT_STEP_LO_V.off) }) ∧
  (∀ (s : State) (r : Req) (d : DieId) (k : Fin 2), slotMay s r d 3 k → slotState s d k.val = 3 → yields (.dispDisarm r d k) s fun u =>
     slotBecomes s u d k 2 (slotOf s d k.val)) ∧
  (∀ (s : State) (r : Req) (d : DieId) (k : Fin 2), slotMay s r d 4 k → slotState s d k.val = 1 ∨ slotState s d k.val = 2 →
     yields (.dispUnload r d k) s fun u => slotBecomes s u d k 0 (slotOf s d k.val)) ∧
  (∀ (s : State) (r : Req) (d : DieId) (k : Fin 2),
     ∀ e ∈ [(1, Instr.dispLoad r d k), (2, .dispArm r d k), (3, .dispDisarm r d k), (4, .dispUnload r d k)], slotMay s r d e.1 k →
       slotState s d k.val = 4 → yields e.2 s fun u => slotBecomes s u d k 4 (slotOf s d k.val) ∧ gf u (pgDISP d) LAST_ERR_CODE = eSLOT_ACTIVE) ∧
  ∀ (s : State) (d : DieId) (k : Fin 2), runs s d → slotState s d k.val = 1 →
    let v := validate d (slotOf s d k.val).base (slotOf s d k.val).len s
    yields (.validationDone d k) s fun u => u.mem = v.1.mem ∧ match v.2 with
      | none =>
        let i := readImg v.1 (slotOf v.1 d k.val).base
        slotState u d k.val = 2 ∧ eventSet u (pgDISP d) 0 ∧
        (slotOf u d k.val).digest0 = crcA (peek v.1 i.base i.len) ∧ (slotOf u d k.val).digest1 = crcB (peek v.1 i.base i.len) ∧
        (if k = 0 then u.dies[d].watch.digA else u.dies[d].watch.digB) = watchDigest v.1 d
      | some e => slotState u d k.val = 0 ∧ eventSet u (pgDISP d) 1 ∧ gf u (pgDISP d) LAST_ERR_CODE = e.code % 2 ^ 16 ∧
        rd u (pgDISP d + DISP_VAL_IDX_V.off) = BitVec.ofNat 32 (e.idx % 2 ^ 23)

/-- R67, R78, R79, R90: EN is written where R78 allows. RUN on the master, with EN set, emits the tick that opens frame 0 of TICK_STEP with the
number after TICK_NUM; RUN cleared in HELD leads to OFF. RESUME opens the frame held back, at once or after the minimum period. STOP is
pending until a step ends. It rests on the model's readings in log entries 26, 44, 46 and 84. -/
def Obligations.MasterRunsStopsAndResumes : Prop :=
  ∀ (s : State) (r : Req) (d : DieId),
    let asks (f : Fld) (n : Nat) (keep : List Fld) : Prop := mayAsk r (pgTICK d) f n keep s ∧
      tickCtrlOk s d (setFld (keeping s (pgTICK d) keep) f n).toNat = true
    (∀ en : Bool, asks TICK_CTRL_EN (b2n en) [TICK_CTRL_RUN] → yields (.tickEn r d en) s fun u => gf u (pgTICK d) TICK_CTRL_EN = b2n en ∧
      gf u (pgTICK d) TICK_CTRL_RUN = gf s (pgTICK d) TICK_CTRL_RUN ∧
      (en = true → gf s (pgTICK d) TICK_CTRL_EN = 0 → u.dies[d].tick.freeWait = true ∧ gf u (pgWATCH d) WATCH_LADDER_VALID = 1)) ∧
    (isMaster s d = true →
      (asks TICK_CTRL_RUN 1 [TICK_CTRL_EN] → s.master.st = .off → gf s (pgTICK d) TICK_CTRL_RUN = 0 → yields (.run r d true) s fun u =>
        u.master.st = .running ∧ u.master.tick = rd64 s (pgTICK d + TICK_NUM_LO_V.off) + 1 ∧ u.master.frame = 0 ∧
        u.master.step = rd64 s (pgTICK d + TICK_STEP_LO_V.off)) ∧
      (asks TICK_CTRL_RUN 0 [TICK_CTRL_EN] → s.master.st = .held → gf s (pgTICK d) TICK_CTRL_RUN = 1 → yields (.run r d false) s fun u =>
        u.master = { s.master with st := .off } ∧ u.mem = s.mem) ∧
      (asks TICK_CTRL_RESUME 1 [TICK_CTRL_EN, TICK_CTRL_RUN] → s.master.st = .held → yields (.resume r d) s fun u =>
        u.master.st = .running ∧
        (s.master.minPassed = true → u.master.tick = s.master.tick + 1 ∧ u.master.step = s.master.heldStep ∧ u.master.frame = s.master.heldFrame) ∧
        (s.master.minPassed = false → u.master = { s.master with st := .running, resumeWait := true }))) ∧
    (asks TICK_CTRL_STOP 1 [TICK_CTRL_EN, TICK_CTRL_RUN] → yields (.stop r d) s fun u => u.master.stopPending = true ∧
      ∀ h ∈ liveDies s, gf u (pgTICK h) TICK_CTRL_STOP_PENDING = 1)

/-- R60, R63, R64, R65, R70: a report of a member for the open frame is kept, and any other is dropped and counted. The frame ends with the next
tick once every member is on record and the minimum period has passed. The deadline excludes the members without a contribution; the
watchdog holds the slice with cause 3. It rests on the model's readings in log entries 3, 51 and 84. -/
def Obligations.MasterEndsTheFrame : Prop :=
  ∀ (s : State) (d : DieId), s.stw.halt = .none →
    (masterDie s = some d →
      let m := s.master
      (∀ rep : Report,
        let fits := masterOpen s = true ∧ rep.frame = m.frame ∧ rep.openTick = m.tick ∧ rep.member ∈ m.members ∧ rep.member ∉ m.excluded ∧
          ∀ x ∈ m.reports, x.member ≠ rep.member
        (¬fits → yields (.doneReport rep) s fun u => Booked [pgTICK d] s u) ∧
        (fits → rep.done = true → yields (.doneReport rep) s fun u =>
          (m.minPassed = false → u = { s with master := u.master } ∧ u.master.reports = m.reports ++ [rep]) ∧
          (m.minPassed = true → (∀ x ∈ m.members, x ∈ m.excluded ∨ x = rep.member ∨ ∃ y ∈ m.reports, y.member = x) →
            u.master.tick = m.tick + 1))) ∧
      (masterOpen s = true → m.type = 1 → replaying s d = false →
        let late := m.members.filter fun x => !(m.contrib.contains x || m.excluded.contains x || m.reports.any fun y => y.member == x)
        let m' : Master := { m with excluded := m.excluded ++ late }
        yields .deadlineExpiry s fun u =>
          (late = [] ∨ m.minPassed = false ∨ allOnRecord m' = false → u = { s with master := m' }) ∧
          (late ≠ [] → m.minPassed = true → allOnRecord m' = true → u.master.tick = m.tick + 1)) ∧
      (masterOpen s = true → (∃ x ∈ m.members, x ∉ m.excluded ∧ ∀ y ∈ m.reports, y.member ≠ x) → yields .watchdogExpiry s fun u =>
        u.master.st = .held ∧ u.master.tick = m.tick + 1 ∧ eventSet u (pgTICK d) 4 ∧
        ∀ h ∈ liveDies s, gf u (pgTICK h) TICK_STATE_HOLD_CAUSE = 3)) ∧
    ((pkgTickDie s).filter (isMaster s) = some d → yields .minPeriodExpiry s fun u =>
      (enAll s = false → u = { s with master := { s.master with minPassed := true } }) ∧
      (enAll s = true → s.master.st = .running → s.master.resumeWait = true → u.master.tick = s.master.tick + 1 ∧
        u.master.step = s.master.heldStep ∧ u.master.frame = s.master.heldFrame ∧ u.master.resumeWait = false) ∧
      (enAll s = true → masterOpen s = true → allOnRecord s.master = true → u.master.tick = s.master.tick + 1) ∧
      (enAll s = true → masterOpen s = true → allOnRecord s.master = false → u = { s with master := { s.master with minPassed := true } }))

/-- R75, R77: a die that takes an edge keeps the tick as its last, holds the later ones, and is done with nothing of the new frame. It rests on
the model's readings in log entries 47 and 86. -/
def Obligations.EdgeKeepsTheTick : Prop :=
  ∀ (s : State) (d : DieId) (r : RxTick) (rest : List RxTick), runs s d → s.dies[d].tick.rx = r :: rest → enAll s = true →
    (pinTaken s d = true → s.dies[d].tick.pinEdge = true) → yields (.tickEdge d) s fun u =>
      u.dies[d].tick.last = some r.t ∧ u.dies[d].tick.rx = rest ∧ u.done[d] = ⟨false, false, false⟩

/-- R66, R74, R75, R77: a tick on the parent port, of the slice, reaches every live die after the latencies on its way, and waits while an edge of
its way trains again (R396); on any other port it is dropped and counted. A tick that does not come is lost, with its event and hold cause 5. An
edge of TICK_IN is taken when the tick's message has come, and counted as early otherwise. The edge of the oldest tick held shows the tick's
number in TICK_NUM. R61, R78, R163: a die that has finished the open frame is done with it, failed or not as R62 says, and any die but the tick
die tells the tick die so. It rests on the model's readings in log entries 3, 47 and 48. -/
def Obligations.TicksReachAndLeaveTheDies : Prop :=
  (∀ (s : State) (d : DieId), runs s d →
     (∀ (p : PortId) (t : Tick), portActive s p = true → portDie p = d → enAll s = true →
       (parentPort s d = some p → t.slice = gf s (pgLP d) LS_SLICE_SLICE_ID → yields (.tickReceive d p t) s fun u =>
         let come : Tick := { t with acc := min 65535 (t.acc + gf s (pgLPof p) LP_LAT_V) }
         ∀ h ∈ liveDies s, if fabricHeld s d h = true ∨ s.dies[h].tick.held ≠ [] then
           u.dies[h].tick = { s.dies[h].tick with held := s.dies[h].tick.held ++ [(d, come)] }
         else u.dies[h].tick = { s.dies[h].tick with rx := s.dies[h].tick.rx ++
           [⟨{ come with acc := min 65535 (come.acc + stairLat s d h) }, s.time + stairLat s d h⟩] }) ∧
       (parentPort s d ≠ some p ∨ t.slice ≠ gf s (pgLP d) LS_SLICE_SLICE_ID → yields (.tickReceive d p t) s fun u => Booked [pgTICK d] s u)) ∧
     (∀ t, s.dies[d].tick.last = some t → t.hold = false → enAll s = true → isMaster s d = false → s.dies[d].tick.freeWait = false →
       s.dies[d].tick.lost = false → s.dies[d].tick.rx = [] → yields (.tickLost d) s fun u =>
         u.dies = s.dies.set d { s.dies[d] with tick := { s.dies[d].tick with lost := true } } ∧
         gf u (pgTICK d) TICK_STATE_HOLD_CAUSE = 5 ∧ eventSet u (pgTICK d) 1 ∧ u.mem = s.mem) ∧
     (pinTaken s d = true → yields (.tickInEdge d) s fun u =>
       (s.dies[d].tick.rx = [] → Booked [pgTICK d] s u) ∧
       (s.dies[d].tick.rx ≠ [] → u = { s with dies := s.dies.set d { s.dies[d] with tick := { s.dies[d].tick with pinEdge := true } } })) ∧
     ∀ r rest, s.dies[d].tick.rx = r :: rest → enAll s = true → (pinTaken s d = true → s.dies[d].tick.pinEdge = true) →
       yields (.tickEdge d) s fun u => rd64 u (pgTICK d + TICK_NUM_LO_V.off) = r.t.tick % 2 ^ 64) ∧
  (∀ (s : State) (d : DieId) (t : Tick), runs s d → enAll s = true → openTick s d = some t → s.dies[d].disp.later = [] →
     s.done[d].done = false → dieDone s d t = true → yields (.dieDoneState d) s fun u =>
       u.done[d].done = true ∧ u.done[d].failed = dieFailed s d t ∧ (d ≠ tickDie s d → Out.doneState d (dieFailed s d t) ∈ u.out))

/-! ### Tasks (chapters 6 to 13) -/

/-- R109, R114, R268, R520: command `e` issues task `t` of die `d` where the dispatcher lets its unit take it and the task is one that `ok` names.
With no fault at issue the package becomes what the task's work `body` leaves, and the task faults with the code that work ends in, if any;
a fault at issue ends the task with its code and fails the frame, and no memory changes. -/
def Sys2Proof.Machine.issues (e : Instr) (d : DieId) (t : Nat) (s : State) (depth : Nat) (ok : Img → Task → Bool) (extra : Img → Task → IssueExtra)
    (body : Img → Task → State → State × Nat) : Prop :=
  ∀ i, s.stw.halt = .none → dieUp s d = true → activeImg s d = some i →
    let tk := readTask s i t
    let c := issueCode s d i tk (extra i tk)
    issuable s d i t tk.unit depth = true → ok i tk = true →
    let r := body i tk (beginTask d i tk t s)
    (c = eOK → yields e s fun u => u = if r.2 = eOK then r.1 else taskFault d t r.2 r.1) ∧
    (c ≠ eOK → yields e s fun u => tstat u d t = .ended c ∧ gf u (pgDISP d) DISP_FRAME_FAILED = 1 ∧ u.mem = s.mem)

/-- R109, R150, R155, R176, R191, R220, R225, R276, R322, R325, R432, R520: every task of a graph issues by its command, on the unit and with the
opcode of its kind, and does that unit's work. A matrix unit, in the last pass of its first task, and a mover execute two tasks at once, the
collective engine 16, and every other unit one; a mover takes no task while an edge on its way trains again (R396). It rests on the model's
readings in log entries 6, 33, 36 and 37. -/
def Obligations.TasksIssueOnTheirUnits : Prop :=
  ∀ (d : DieId) (t : Nat) (s : State),
    let no : Img → Task → IssueExtra := fun _ _ => .none
    let on (u op : Nat) : Img → Task → Bool := fun _ tk => tk.unit == u && tk.opcode == op
    let vector (op : Nat) : Img → Task → Bool := fun _ tk => (tk.unit == 6 || tk.unit == 7) && tk.opcode == op
    let mover (op : Nat) : Img → Task → Bool := fun i tk => decide (16 ≤ tk.unit) && tk.opcode == op && !mvHeld s d i tk
    let matrix (op : Nat) : Img → Task → Bool := fun _ tk => matOk op tk && rankAccepts s d t
    let update (i : Img) (tk : Task) : IssueExtra := (fun _ : Img => ⟨false, updBad s d tk, false⟩) i
    (∀ e ∈ [(Instr.lnFwd d t, 1, lnFwd), (.lnBwd d t, 2, lnBwd), (.rmsFwd d t, 3, rmsFwd), (.rmsBwd d t, 4, rmsBwd),
        (.smaxFwd d t, 5, smaxFwd), (.smaxBwd d t, 6, smaxBwd), (.loss d t, 7, loss)],
      issues e.1 d t s 1 (on 8 e.2.1) no fun i tk s => e.2.2 ⟨d, t, i, tk, rowP tk⟩ (wr (pgRE d + RE_ROW_DONE.off) 0 s)) ∧
    (∀ e ∈ [(Instr.mvCopy d t, 1), (.mvGather d t, 2), (.scatter d t, 3)], issues e.1 d t s 2 (mover e.2) no (mvWork d t e.2)) ∧
    issues (.mm d t) d t s 2 (matrix 1) no (matStart d t false) ∧
    issues (.mmXb d t) d t s 2 (matrix 2) (fun i tk => ⟨!rankAft s d i tk.unit, false, false⟩) (matStart d t true) ∧
    issues (.runTask d t) d t s 1 (vector 1) no (fun i tk s => ((orWait d t (fun s => (s, eOK)) (startProgram d t i tk s).1).1, eOK)) ∧
    issues (.mom d t) d t s 1 (vector 0x100) update (updWork d t false) ∧
    issues (.adam d t) d t s 1 (vector 0x101) update (updWork d t true) ∧
    issues (.feed d t) d t s 1 (fun i tk => on 10 0x20 i tk && !feedHeld s (8 + tk.p 64 1 % 8) (tk.p 68 4))
      (fun _ tk => ⟨gf s (pgQ (8 + tk.p 64 1 % 8)) Q_CTRL_EN == 0 || feedHome s (8 + tk.p 64 1 % 8) != d, false,
        feedGapAhead s (8 + tk.p 64 1 % 8) (tk.p 68 4)⟩) (feedWork d t) ∧
    issues (.reduce d t) d t s 16 (on 9 1)
      (fun i tk => ⟨(readTensor s i (tk.tensor 0)).elems != gsize s d * tk.clen, false, false⟩)
      (fun i tk s => forUntil (sendShard d t i tk) ((positions s d).filter (· != ownPos s d)) s) ∧
    issues (.fold d t) d t s 16 (on 9 2) no (foldWork d) ∧
    issues (.tree d t) d t s 16 (on 9 3) no (fun i tk s => treeAdvance d t i tk s) ∧
    issues (.ceGather d t) d t s 16 (on 9 4)
      (fun i tk => ⟨(readTensor s i (tk.tensor 1)).high != gsize s d * (readTensor s i (tk.tensor 0)).high, false, false⟩)
      (gatherWork d t) ∧
    issues (.side d t) d t s 16 (fun i tk => on 9 5 i tk && sideReady s d i tk) no (fun _ tk s => sideWork d t tk s) ∧
    issues (.sidewait d t) d t s 16 (on 9 6) no (fun _ _ s => (s, eOK)) ∧
    issues (.reshard d t) d t s 16 (on 9 7) no (reshardWork d t)

/-- R117, R176: a RUN task that issues starts its program on its engine: its entry in pc, its eight address registers and scalar inputs as the
task gives them, V and M registers at 0, no loop, and the task executing. It rests on the model's readings in log entry 6. -/
def Obligations.RunStartsTheProgram : Prop :=
  ∀ (d : DieId) (t : Nat) (s : State) (i : Img) (x : Fin 2), s.stw.halt = .none → dieUp s d = true → activeImg s d = some i →
    let tk := readTask s i t
    issuable s d i t tk.unit 1 = true → tk.unit = 6 + x.val → tk.opcode = 1 → issueCode s d i tk .none = eOK →
    yields (.runTask d t) s fun u => tstat u d t = .executing ∧ u.mem = s.mem ∧ u.dies[d].vx[x] =
      { task := some t, pc := tk.p 64 2, v := [], m := []
        a := #v[tk.px 68, tk.px 72, tk.px 76, tk.px 80, tk.px 84, tk.px 88, tk.px 92, tk.px 96], loops := []
        sin := (List.range 8).map (scalarIn s d tk), sout := 0, serial := s.dies[d].vx[x].serial + 1, trunkErr := 0 }

/-- R143, R145, R147, R154: the work of a matrix task with INIT, without a fault, leaves in its bank, row by row, the products of the rows of A
with the rows of B that it read, each from +0, group by group for a grouped pair and product by product otherwise. It rests on the model's
readings in log entries 6, 36 and 57. -/
def Obligations.ProductsFillTheBank : Prop :=
  ∀ (d : DieId) (t m : Nat) (crossed : Bool) (i : Img) (tk : Task) (s s1 s2 u : State) (a b : List (List FVal)) (rg : Regroup),
    let p := matP tk
    let va := operView s d i tk 0 false
    let vb := operView s d i tk 1 false
    let grouped := groupedPair va.fmt vb.fmt
    p.init = true → p.m ≤ 256 → p.n ≤ 256 → rankArray s d tk.unit = some m →
    readRows (memRead (.engine d)) va p.kaOrg p.k ((List.range p.m).map (p.aOrg + ·)) s = (s1, eOK, a) →
    readB d crossed vb p s1 = (s2, eOK, b, rg) → matmul d t crossed i tk s = (u, eOK) →
    let la := (loadPair va.fmt (!grouped && !elementPair va.fmt vb.fmt) a).1
    let lb := (loadPair vb.fmt (!grouped && !elementPair va.fmt vb.fmt) b).1
    ∀ r, r < p.m → bankRow u d m p.bank r p.n = lb.map fun y => cellValue grouped va.t.g 0 (la.getD r []) y

/-- R109, R111, R114, R115: an executing task whose unit has done its work ends, or drains while another die owes it an acknowledgement, and its
successors on the die lose one from their counts; a matrix task that waited for its bank works first, and faults with the code its work
meets. A decrement from another die that the die has sent and not had acknowledged does the same and is acknowledged; one whose tag is not
the attempt's is dropped and counted. A fault ends its task with its code, fails the frame and tells every other live die, where no unissued
task of the frame runs any more; on a die that still finishes an earlier frame the notice fails the last one opened (R113). It rests on the
model's readings in log entries 3, 32 and 33. -/
def Obligations.TasksEndAndFail : Prop :=
  ∀ (d : DieId) (t : Nat) (s : State) (i : Img), runs s d → activeImg s d = some i →
    let tk := readTask s i t
    (tstat s d t = .executing → unitDone s d t tk = true →
      let w := lateWork d i tk t s
      let s2 := unitComplete d i tk t w.1
      (w.2 = eOK → yields (.taskComplete d t) s fun u => (tstat u d t = .ended eOK ∨ tstat u d t = .draining) ∧
        (∀ k, sget zn u.dies[d].disp.decs k = sget zn s2.dies[d].disp.decs k +
          ((succsOf s2 d t).filter fun e => e.1 == d && e.2 == k).length) ∧
        ((∀ e ∈ succsOf s2 d t, e.1 = d) → sget zn s2.dies[d].disp.owed t = 0 → tstat u d t = .ended eOK)) ∧
      (w.2 ≠ eOK → yields (.taskComplete d t) s fun u => u = taskFault d t w.2 w.1)) ∧
    (∀ src srcTask tag, src ≠ d →
      (tag = s.dies[d].disp.att → sget zn s.dies[src].disp.owed srcTask ≠ 0 → yields (.remoteDecrement d src srcTask t tag) s fun u =>
        (∀ k, sget zn u.dies[d].disp.decs k = if k = t then sget zn s.dies[d].disp.decs t + 1 else sget zn s.dies[d].disp.decs k) ∧
        sget zn u.dies[src].disp.owed srcTask = sget zn s.dies[src].disp.owed srcTask - 1 ∧ .decrementAck d src srcTask ∈ u.out ∧ u.mem = s.mem) ∧
      (tag = s.dies[d].disp.att → sget zn s.dies[src].disp.owed srcTask = 0 → yields (.remoteDecrement d src srcTask t tag) s fun u => u = s) ∧
      (tag ≠ s.dies[d].disp.att → yields (.remoteDecrement d src srcTask t tag) s fun u => Booked [pgDISP d] s u)) ∧
    (∀ c ∈ errCodes, tstat s d t = .executing → yields (.taskFault d t c) s fun u => tstat u d t = .ended c ∧
      gf u (pgDISP d) DISP_FRAME_FAILED = 1 ∧ (∀ h ∈ liveDies s, h ≠ d → .frameFail h ∈ u.out) ∧ u.mem = s.mem ∧
      ∀ n ∈ unissued s d i, tstat u d n = .ended eFRAME_FAILED) ∧
    (frameRuns s d = true → s.dies[d].disp.later = [] → yields (.frameFailNotice d) s fun u =>
      gf u (pgDISP d) DISP_FRAME_FAILED = 1 ∧ u.mem = s.mem ∧ ∀ n ∈ unissued s d i, tstat u d n = .ended eFRAME_FAILED) ∧
    ∀ l x, s.dies[d].disp.later = l ++ [x] →
      (∀ h ∈ liveDies s, h ≠ d → s.dies[h].disp.frameOpen = true → curFrame s h = curFrame s d → gf s (pgDISP h) DISP_FRAME_FAILED ≠ 1) →
      yields (.frameFailNotice d) s fun u =>
        u = { s with dies := s.dies.set d { s.dies[d] with disp := { s.dies[d].disp with later := l ++ [{ x with failed := true }] } } }

/-! ### The collective engine (chapter 12) -/

/-- Message `m` of kind `op` is new to die `d` and current (R337, R342). -/
def Sys2Proof.Machine.ceNew (s : State) (d : DieId) (op : Nat) (m : CeMsg) : Prop :=
  runs s d ∧ ceDrop s d op m = none ∧ s.dies[d].ce.seen.contains (seenOf op m) = false

/-- `u` has sent the acknowledgement of message `m` of kind `op` to its sender (R327, R341). -/
def Sys2Proof.Machine.acked (u : State) (d : DieId) (op : Nat) (m : CeMsg) : Prop :=
  ∃ a, Out.ce d 3 m.srcMember a ∈ u.out ∧ a.ansOp = op ∧ a.att = m.att ∧ a.frame = m.frame ∧ a.bucket = m.bucket ∧ a.offset = m.offset

/-- `u` holds message `m`, acknowledged, and its memory is that of `s` (R337). -/
def Sys2Proof.Machine.held (u : State) (d : DieId) (op : Nat) (m : CeMsg) (s : State) : Prop :=
  acked u d op m ∧ seenOf op m ∈ u.dies[d].ce.seen ∧ u.mem = s.mem

/-- R323, R327, R332, R335, R345: a contribution of the bucket's frame and length enters its sender's receive slot, a checksum is kept for its
block, a child's sum enters its slot, the root's result enters SUM, and moved elements of the destination's format and class enter the next
slot of their tensor, whose entry is marked; each is held and acknowledged where the engine may write the range and no word it writes holds
an error. A tree task that executes then goes on. It rests on the model's readings in log entries 6 and 72. -/
def Obligations.MessagesEnterTheirBuffers : Prop :=
  ∀ (s : State) (d : DieId) (m : CeMsg) (i : Img), activeImg s d = some i → clean s →
    let words := (chunks 4 m.count m.data).map fun c => BitVec.ofNat 32 (leNat c)
    let open_ (a : Nat) : Prop := accessCheck (.ce d) a (4 * m.count) true s = eOK
    (∀ n tk, reduceOf s i m.bucket = some (n, tk) → tk.frame = m.frame → tk.clen = m.slen →
      (ceNew s d 1 m → m.offset + m.count ≤ tk.clen → m.srcPos ≠ ownPos s d →
        let a := operBase s i tk 1 + 4 * ((if ownPos s d < m.srcPos then m.srcPos - 1 else m.srcPos) * tk.clen + m.offset)
        open_ a → yields (.contrib d m) s fun u => held u d 1 m (writeWords d a
          ((chunks (if m.wire = 1 then 2 else 4) m.count m.data).map fun c => wireWord m.wire (leNat c)) s).1) ∧
      (ceNew s d 2 m → yields (.check d m) s fun u => held u d 2 m s ∧
        u.dies[d].ce.checks = ⟨m.bucket, m.srcPos, m.version / 2 ^ 32, BitVec.ofNat 32 m.version⟩ :: s.dies[d].ce.checks)) ∧
    (∀ n tk, treeOf s i m = some (n, tk) → m.offset + m.count ≤ tk.clen →
      (∀ k, ceNew s d 4 m → (treeChildren s d).find? (fun c => c.2 == m.srcMember) = some (k, m.srcMember) →
        let a := operBase s i tk 1 + 4 * (k * tk.clen + m.offset)
        open_ a → yields (.treeUp d m) s fun u => ∃ s2, held s2 d 4 m (writeWords d a words s).1 ∧ tstat s2 d n = tstat s d n ∧
          u = goOn d n (treeAdvance d n i tk) s2) ∧
      (ceNew s d 5 m → treeParent s d = some m.srcMember →
        let a := operBase s i tk 0 + 4 * m.offset
        open_ a → yields (.treeDown d m) s fun u => ∃ s2, held s2 d 5 m (writeWords d a words s).1 ∧ tstat s2 d n = tstat s d n ∧
          u = if tk.clen ≤ (addPart d 5 n m [] m.count s).2.n then
              goOn d n (fun s => match readWords d (operBase s i tk 0) tk.clen s with
                | (s3, 0, res) => treeResult d n tk res s3
                | (s3, c, _) => (s3, c)) s2
            else s2)) ∧
    ∀ w, ceNew s d 9 m → gf s (pgCE d) CE_STATE_LSTATE ≠ 0 → m.bucket < i.tensors →
      let x := readTensor s i m.bucket
      let v := viewOf s d x (slotAddr s i x (1 - b2n (ventry s d w).cur))
      let runs_ := elemRuns v (m.count + 1) m.offset m.count
      weightOf x = some w → m.digest = moveForm x → m.offset + m.count ≤ x.elems → cdiv (m.count * fmtBits v.fmt) 8 ≤ m.data.length →
      (∀ e ∈ runs_, accessCheck (.ce d) (v.span e.1 e.2.1 e.2.2).1 (v.span e.1 e.2.1 e.2.2).2 true s = eOK) →
      yields (.move d m) s fun u => held u d 9 m (writeRuns d v runs_ (unpack (fmtBits v.fmt) 0 m.count m.data) s).1 ∧
        ventry u d w = { ventry s d w with reshard := true, moved := max (ventry s d w).moved m.version }

/-- R333, R334, R338, R339: the parts of a side record and of a shard are held and acknowledged until the transfer is whole. A whole record from
a die of the package joins the package's records, one from a child of the tree or from a member of the group joins theirs; the reduced
record makes its die hold the side bucket, and one from another package is delivered to every die of this one. A shard of another version is
refused with STALE_VERSION, which faults its task, and a whole one of the version of its task is written and kept, and faults its task with
the code the write or the record meets. It rests on the model's readings in log entry 72. -/
def Obligations.TransfersBecomeWhole : Prop :=
  ∀ (s : State) (d : DieId) (m : CeMsg),
    let part (op : Nat) : CePart := (addPart d op 0 m m.data m.data.length s).2
    let size (p : CePart) : Nat := 64 + 64 * leNat (sgetList zb p.bytes 16 2)
    let whole (p : CePart) : Prop := p.head = true ∧ size p ≤ p.n
    let rec_ (p : CePart) : SideRec := sideParse (sgetList zb p.bytes 0 (size p))
    (∀ e ∈ [(6, Instr.sideUp d m), (7, .sideDown d m)], ceNew s d e.1 m → ¬whole (part e.1) → yields e.2 s fun u =>
      held u d e.1 m s ∧ part e.1 ∈ u.dies[d].ce.parts ∧ u.dies[d].watch = s.dies[d].watch) ∧
    (ceNew s d 6 m → whole (part 6) → yields (.sideUp d m) s fun u => ∃ s2, held s2 d 6 m s ∧ u =
      if m.srcMember = ownMember s d then
        (sidePackage d m.frame noTask (onCe d (fun c => { c with dieSides := sidePut m.srcDie (rec_ (part 6)) c.dieSides }) s2)).1
      else if fromChild s d m then
        sideUp d m.frame (onCe d (fun c => { c with childSides := sidePut m.srcMember (rec_ (part 6)) c.childSides }) s2)
      else sideUp d m.frame (onCe d (fun c => { c with memberSides := sidePut m.srcMember (rec_ (part 6)) c.memberSides }) s2)) ∧
    (ceNew s d 7 m → whole (part 7) → m.srcMember = ownMember s d → yields (.sideDown d m) s fun u => held u d 7 m s ∧
      u.dies[d].watch = { s.dies[d].watch with bucket := some (rec_ (part 7)) } ∧ gf u (pgCE d) CE_SIDE_HELD = 1 ∧
      gf u (pgCE d) CE_SIDE_MISMATCH = b2n (rec_ (part 7)).mismatch) ∧
    (ceNew s d 7 m → whole (part 7) → m.srcMember ≠ ownMember s d → yields (.sideDown d m) s fun u => ∃ s2, held s2 d 7 m s ∧
      u = sideDeliver d m.frame (rec_ (part 7)) s2) ∧
    ∀ i n tk, ceNew s d 8 m → activeImg s d = some i →
      (ceTasks s i 4).find? (fun e => e.2.bucket == m.bucket && e.2.frame == m.frame) = some (n, tk) →
      let src := operView s d i tk 0 false
      let p := (addPart d 8 n m m.data m.data.length s).2
      (m.version ≠ gatherVersion s d tk → yields (.shard d m) s fun u => u.mem = s.mem ∧
        (∃ a, Out.ce d 10 m.srcMember a ∈ u.out ∧ a.ansOp = 8 ∧ a.reason = eSTALE_VERSION) ∧
        (tstat s d n ≠ .executing → u.dies[d].ce.waiting = s.dies[d].ce.waiting ++ [(n, eSTALE_VERSION)]) ∧
        (tstat s d n = .executing → tstat u d n = .ended eSTALE_VERSION ∧ gf u (pgDISP d) DISP_FRAME_FAILED = 1)) ∧
      (m.version = gatherVersion s d tk → p.n < shardLen src → yields (.shard d m) s fun u => held u d 8 m s ∧ p ∈ u.dies[d].ce.parts) ∧
      (m.version = gatherVersion s d tk → shardLen src ≤ p.n → yields (.shard d m) s fun u => ∃ s2, held s2 d 8 m s ∧
        let w := shardWrite d tk src (operView s d i tk 1 true) m.srcPos (shardParse src (sgetList zb p.bytes 0 (shardLen src))) s2
        let k := gatherKeep d tk m.srcPos m.version (BitVec.ofNat 64 m.digest) (onCe d (fun c => { c with shards := (n, m.srcPos) :: c.shards }) w.1)
        u = if w.2 ≠ eOK then gatherFault d n w.2 w.1 else if k.2 ≠ eOK then gatherFault d n k.2 k.1 else k.1)

/-- R337, R342: a message of another epoch, attempt or frame is dropped and counted; one that the engine already holds is acknowledged again and
does nothing else. R327, R328, R337: an acknowledgement of the attempt ends the wait for the message it names, and nothing else changes; a
refusal does the same and ends the sending task with its reason. A message not acknowledged in time goes again, with RESEND, and is no longer
kept as lost when it finds a route. It rests on the model's readings in log entries 3 and 72. -/
def Obligations.RepeatsAndAnswers : Prop :=
  (∀ (s : State) (d : DieId) (m : CeMsg), runs s d →
     ∀ e ∈ [(1, Instr.contrib d m), (2, .check d m), (4, .treeUp d m), (5, .treeDown d m), (6, .sideUp d m), (7, .sideDown d m),
         (8, .shard d m), (9, .move d m)],
       ((ceDrop s d e.1 m).isSome = true → yields e.2 s fun u => Booked [pgCE d] s u) ∧
       (ceDrop s d e.1 m = none → s.dies[d].ce.seen.contains (seenOf e.1 m) = true → yields e.2 s fun u =>
         acked u d e.1 m ∧ u.mem = s.mem ∧ ∀ h : DieId, u.dies[h] = { s.dies[h] with sides := u.dies[h].sides })) ∧
  (∀ (s : State) (d : DieId), runs s d →
     (∀ (m : CeMsg) (o : CeOut), answerDrop s d m = none → s.dies[d].ce.out.find? (answers m) = some o →
       (yields (.ack d m) s fun u =>
         u = { s with dies := s.dies.set d { s.dies[d] with ce := { s.dies[d].ce with out := s.dies[d].ce.out.erase o } } }) ∧
       (tstat s d o.task = .executing → (activeImg s d).isSome = true → yields (.refuse d m) s fun u =>
         u.dies[d].ce.out = s.dies[d].ce.out.erase o ∧ tstat u d o.task = .ended m.reason ∧ gf u (pgDISP d) DISP_FRAME_FAILED = 1 ∧
         u.mem = s.mem)) ∧
     ∀ (n : Nat) (o : CeOut), stopped s = false → s.dies[d].ce.out[n]? = some o → yields (.ceAckTimeout d n) s fun u =>
       Out.ce d o.op o.dst { o.msg with resend := true } ∈ u.out ∧ u.mem = s.mem ∧ u.dies[d].ce =
         if (ceTransmit d o.op o.dst { o.msg with resend := true } s).2 = eOK then
           { s.dies[d].ce with out := s.dies[d].ce.out.set n { o with lost := false } } else s.dies[d].ce)

/-- R344, R346: a re-shard is armed, with its epoch latched, for the epoch that follows while no collective of the step is outstanding, and is
rejected with LAYOUT_BUSY while one is; a disarmed engine that has not begun to move is unarmed again. It rests on the model's readings in log
entries 26 and 72. -/
def Obligations.ReshardIsArmedBetweenCollectives : Prop :=
  ∀ (s : State) (r : Req) (d : DieId),
    (∀ epoch, epoch = (gf s (pgCE d) CE_EPOCH_V + 1) % 65536 → mayWrite r (pgCE d + 0x164) (BitVec.ofNat 32 (1 + epoch * 2 ^ 16)) s →
      (gf s (pgCE d) CE_STATE_OUTSTANDING = 0 → yields (.reshardArm r d epoch) s fun u =>
        gf u (pgCE d) CE_RESHARD_ARMED = 1 ∧ gf u (pgCE d) CE_RESHARD_EPOCH = epoch ∧
        gf u (pgCE d) CE_STATE_LSTATE = max 1 (gf s (pgCE d) CE_STATE_LSTATE) ∧
        u = { s with regs := u.regs, dies := s.dies.set d { s.dies[d] with ce := { s.dies[d].ce with armEpoch := epoch } } }) ∧
      (gf s (pgCE d) CE_STATE_OUTSTANDING = 1 → yields (.reshardArm r d epoch) s fun u =>
        gf u (pgCE d) LAST_ERR_CODE = eLAYOUT_BUSY ∧ gf u (pgCE d) CE_RESHARD_ARMED = gf s (pgCE d) CE_RESHARD_ARMED ∧
        gf u (pgCE d) CE_STATE_LSTATE = gf s (pgCE d) CE_STATE_LSTATE ∧ u.mem = s.mem ∧ u.dies = s.dies)) ∧
    (mayAsk r (pgCE d) CE_RESHARD_DISARM 1 [CE_RESHARD_EPOCH] s → yields (.reshardDisarm r d) s fun u => u = { s with regs := u.regs } ∧
      (gf s (pgCE d) CE_STATE_LSTATE = 1 → gf u (pgCE d) CE_STATE_LSTATE = 0 ∧ gf u (pgCE d) CE_RESHARD_ARMED = 0) ∧
      (gf s (pgCE d) CE_STATE_LSTATE ≠ 1 → gf u (pgCE d) CE_STATE_LSTATE = gf s (pgCE d) CE_STATE_LSTATE ∧
        gf u (pgCE d) CE_RESHARD_ARMED = gf s (pgCE d) CE_RESHARD_ARMED))

/-! ### Journal, replay, export and twin slices (chapter 13) -/

/-- R363, R364, R366: a write that enables the export checks every entry of its table: the good ones are kept and the bad ones counted, with the
event. A copy that ends makes its buffer the newest, valid for its step, with the event, and one that met an error leaves the buffer without
VALID; a stream that waited for the copy starts then. Streamed bytes enter the receive window, and those beyond it are dropped and counted.
It rests on the model's readings in log entries 71 and 79. -/
def Obligations.ExportTableCopyAndStream : Prop :=
  ∀ (s : State) (d : DieId),
    let base := rd64 s (pgJRNL d + JRNL_EXP_LO_V.off)
    (∀ r v i, let n := v.toNat % 2 ^ 13
      mayWrite r (pgJRNL d + 0x138) v s → gf s (pgTICK d) TICK_CTRL_EN = 0 → windowOk d base (8 * n) = eOK → activeImg s d = some i →
      clean s → (0 < n → accessCheck (.copier d) base (8 * n) false s = eOK) → yields (.exportTableCheck r d v) s fun u =>
        gf u (pgJRNL d) JRNL_EXP_CFG_COUNT = n ∧ u.mem = s.mem ∧
        (bit v.toNat 13 = false → u.dies = s.dies) ∧
        (bit v.toNat 13 = true → let good := (List.range n).filter fun k => exportOk s d i (exportWords (peek s (base + 8 * k) 8))
          u.dies[d].jrnl.entries = good ∧ gf u (pgJRNL d) JRNL_EXP_STAT_BAD = (n - good.length) % 2 ^ JRNL_EXP_STAT_BAD.width ∧
          (good.length ≠ n → eventSet u (pgJRNL d) 5))) ∧
    (∀ i, runs s d → gf s (pgJRNL d) JRNL_EXP_STAT_BUSY = 1 → activeImg s d = some i →
      let b := gf s (pgJRNL d) JRNL_EXP_STAT_TARGET
      let r := forUntil (exportCopy d i b) s.dies[d].jrnl.entries s
      (s.dies[d].jrnl.streamWait = false → yields (.exportCopyDone d) s fun u =>
        gf u (pgJRNL d) JRNL_EXP_STAT_BUSY = 0 ∧ u.mem = r.1.mem ∧
        (r.2 = eOK → gf u (pgJRNL d) (expValid b) = 1 ∧ gf u (pgJRNL d) JRNL_EXP_STAT_NEWEST = b ∧ eventSet u (pgJRNL d) 3 ∧
          rd64 u (pgJRNL d + (if b = 0 then JRNL_EXP_STEP0_LO_V.off else JRNL_EXP_STEP1_LO_V.off)) = s.dies[d].jrnl.copyStep % 2 ^ 64) ∧
        (r.2 ≠ eOK → gf u (pgJRNL d) (expValid b) = gf r.1 (pgJRNL d) (expValid b))) ∧
      (s.dies[d].jrnl.streamWait = true → yields (.exportCopyDone d) s fun u => u = exportStream d (copyEnd d s))) ∧
    ∀ off bytes, let at_ := rd64 s (pgJRNL d + JRNL_RX_LO_V.off) + off
      let data := bytes.take (gf s (pgJRNL d) JRNL_RX_LEN_V * 4096 - off)
      runs s d → clean s → (0 < data.length → accessCheck (.copier d) at_ data.length true s = eOK) →
      yields (.exportStreamReceive d off bytes) s fun u =>
        u.dies[d].jrnl = { s.dies[d].jrnl with rxDropped := s.dies[d].jrnl.rxDropped + (bytes.length - data.length) } ∧
        ∀ a, sget zb u.mem a = if at_ ≤ a ∧ a < at_ + data.length then data.getD (a - at_) 0 else sget zb s.mem a

/-- R359, R372: a change of MODE while the die takes no ticks sets replay to the head of its source, with no record taken and nothing missed or
different; JRNL_REL takes a multiple of 64 between itself and JRNL_WR, and no other value. R368, R369: a digest of the twin is kept with the one
of the highest other step; when it is of the step compared, the comparison ends, with agreement, or with a difference and its event. With the
slice held on the twin, a time-out ends it too, and fails the frame that the last tick opened. It rests on the model's readings in log entries 3,
79 and 80. -/
def Obligations.ReplayJournalAndTwins : Prop :=
  (∀ (s : State) (r : Req) (d : DieId),
     (∀ mode : Bool, mayWrite r (pgJRNL d + 0x12C) (BitVec.ofNat 32 (b2n mode)) s → gf s (pgTICK d) TICK_CTRL_EN = 0 →
       yields (.replayMode r d mode) s fun u => gf u (pgJRNL d) JRNL_RPL_CTRL_MODE = b2n mode ∧ gf u (pgJRNL d) JRNL_RPL_CTRL_MISS = 0 ∧
         gf u (pgJRNL d) JRNL_RPL_CTRL_DIFFER = 0 ∧ (∀ a, a ≠ pgJRNL d + 0x12C → rd u a = rd s a) ∧
         u = { s with regs := u.regs, dies := s.dies.set d { s.dies[d] with jrnl :=
           { s.dies[d].jrnl with cursor := 0, record := none, missed := false } } }) ∧
     ∀ v : D, reqActs s r = true → s.stw.csJob = none → pState s = 0 → (∃ l, checkAccess r (pgJRNL d + 0x118) 4 true s = .ok l) →
       yields (.jrnlRelWrite r d v) s fun u => u.mem = s.mem ∧ u.dies = s.dies ∧
         rd64 u (pgJRNL d + JRNL_WR_LO_V.off) = rd64 s (pgJRNL d + JRNL_WR_LO_V.off) ∧
         rd64 u (pgJRNL d + JRNL_REL_LO_V.off) =
           if v.toNat % 64 = 0 ∧ rd64 s (pgJRNL d + JRNL_REL_LO_V.off) ≤ v.toNat ∧ v.toNat ≤ rd64 s (pgJRNL d + JRNL_WR_LO_V.off)
           then v.toNat else rd64 s (pgJRNL d + JRNL_REL_LO_V.off)) ∧
  (∀ (s : State) (d : DieId), s.stw.halt = .none → pkgTickDie s = some d →
     let j := s.dies[d].jrnl
     let state (u : State) : Nat := gf u (pgJRNL d) JRNL_TWIN_STAT_STATE
     (∀ m : LinkMsg, field m.payload 0 1 = 1 → twinOn s d = true → twinPortOk s d = true →
       let x : TwinDig := ⟨field m.payload 8 8, (m.payload.drop 16).take 16, BitVec.ofNat 64 (field m.payload 32 8)⟩
       let kept := ((x :: j.peer.filter fun y => y.step != x.step).mergeSort fun a b => decide (b.step ≤ a.step)).take 2
       yields (.twinDigest m) s fun u => u.dies[d].jrnl.peer = kept ∧ u.mem = s.mem ∧
         (j.twinWait = false → u = { s with dies := s.dies.set d { s.dies[d] with jrnl := { j with peer := kept } } }) ∧
         ∀ o y, j.twinWait = true → j.own = some o → kept.find? (fun y => y.step == o.step) = some y → u.dies[d].jrnl.twinWait = false ∧
           (y.pkg = o.pkg → state u = 2) ∧ (y.pkg ≠ o.pkg → state u = 3 ∧ eventSet u (pgJRNL d) 6 ∧
             gf u (pgJRNL d) JRNL_TWIN_STAT_CAUSE = if y.e = o.e then 1 else 2)) ∧
     (j.twinWait = true → gf s (pgJRNL d) JRNL_TWIN_HOLD = 1 → yields .twinTimeout s fun u => u.dies[d].jrnl.twinWait = false ∧ state u = 3 ∧
       gf u (pgJRNL d) JRNL_TWIN_STAT_CAUSE = 3 ∧ u.mem = s.mem ∧
       ((activeImg s d).isSome = true → s.dies[d].disp.frameOpen = true → s.dies[d].disp.later = [] → gf u (pgDISP d) DISP_FRAME_FAILED = 1) ∧
       ∀ l x, s.dies[d].disp.later = l ++ [x] → u.dies[d].disp.later = l ++ [x.fail eTWIN_MISMATCH]))
end

