-- ==== Sys2Proof/Laws/Sparse.lean ====
section
/-!
SUPPORT. Laws/Sparse.lean: the laws of sparse maps: what a key reads after an update, and that every update keeps the
canonical form.
-/
namespace Sys2Proof.Machine

variable {α : Type}

/-! ### Reading after an update -/

theorem sget_serase_same (z : Nat → α) (m : SMap α) (k : Nat) : sget z (serase m k) k = z k := by
  induction m with
  | nil => rfl
  | cons e m ih =>
    obtain ⟨j, v⟩ := e
    by_cases h : j = k
    · simp [serase, h, ih]
    · simp [serase, h, sget, ih]

theorem sget_serase_other (z : Nat → α) (m : SMap α) {k j : Nat} (h : j ≠ k) : sget z (serase m k) j = sget z m j := by
  induction m with
  | nil => rfl
  | cons e m ih =>
    obtain ⟨i, v⟩ := e
    by_cases hi : i = k
    · have : i ≠ j := fun e => h (by omega)
      simp [serase, hi, sget, ih, show k ≠ j from fun e => h e.symm]
    · by_cases hj : i = j
      · subst hj; simp [serase, hi, sget]
      · simp [serase, hi, hj, sget, ih]

theorem sget_sinsert_same (z : Nat → α) (m : SMap α) (k : Nat) (x : α) (h : ∀ v, (k, v) ∉ m) :
    sget z (sinsert m k x) k = x := by
  induction m with
  | nil => simp [sinsert, sget]
  | cons e m ih =>
    obtain ⟨j, v⟩ := e
    have hj : j ≠ k := fun e => h v (by simp [e])
    have hm : ∀ v, (k, v) ∉ m := fun v hv => h v (by simp [hv])
    by_cases hk : k < j
    · simp [sinsert, hk, sget]
    · simp [sinsert, hk, sget, hj, ih hm]

theorem sget_sinsert_other (z : Nat → α) (m : SMap α) {k j : Nat} (x : α) (h : j ≠ k) :
    sget z (sinsert m k x) j = sget z m j := by
  have h' : k ≠ j := fun e => h e.symm
  induction m with
  | nil => simp [sinsert, sget, h']
  | cons e m ih =>
    obtain ⟨i, v⟩ := e
    by_cases hk : k < i
    · simp [sinsert, hk, sget, h']
    · simp [sinsert, hk, sget, ih]

theorem serase_no_key (m : SMap α) (k : Nat) (v : α) : (k, v) ∉ serase m k := by
  induction m with
  | nil => simp [serase]
  | cons e m ih =>
    obtain ⟨i, w⟩ := e
    by_cases hi : i = k
    · simp [serase, hi, ih]
    · simp [serase, hi, ih]; intro e; exact absurd e.symm hi

variable [DecidableEq α]

/-- What a key reads after one key is set. -/
theorem sget_sset (z : Nat → α) (m : SMap α) (k j : Nat) (x : α) :
    sget z (sset z m k x) j = if j = k then x else sget z m j := by
  unfold sset
  by_cases hj : j = k
  · subst hj
    by_cases hx : x = z j
    · simp [hx, sget_serase_same]
    · simp [hx, sget_sinsert_same z _ j x (fun v => serase_no_key m j v)]
  · by_cases hx : x = z k
    · simp [hx, hj, sget_serase_other z m hj]
    · simp [hx, hj, sget_sinsert_other z _ x hj, sget_serase_other z m hj]

@[simp] theorem sget_sset_same (z : Nat → α) (m : SMap α) (k : Nat) (x : α) : sget z (sset z m k x) k = x := by
  simp [sget_sset]

theorem sget_sset_other (z : Nat → α) (m : SMap α) {k j : Nat} (x : α) (h : j ≠ k) :
    sget z (sset z m k x) j = sget z m j := by
  simp [sget_sset, h]

/-- What a key reads after a run of keys is set. -/
theorem sget_ssetList (z : Nat → α) (xs : List α) : ∀ (m : SMap α) (k j : Nat),
    sget z (ssetList z m k xs) j = if h : k ≤ j ∧ j - k < xs.length then xs[j - k]'h.2 else sget z m j := by
  induction xs with
  | nil => intro m k j; simp [ssetList]
  | cons x xs ih =>
    intro m k j
    rw [ssetList, ih, sget_sset]
    by_cases hk : j = k
    · subst hk
      simp <;> omega
    · by_cases h : k + 1 ≤ j ∧ j - (k + 1) < xs.length
      · have h2 : k ≤ j ∧ j - k < (x :: xs).length := by simp; omega
        have h3 : j - k = (j - (k + 1)) + 1 := by omega
        simp only [h, h2, and_self, dite_true]
        simp [h3]
      · have h2 : ¬ (k ≤ j ∧ j - k < (x :: xs).length) := by simp; omega
        rw [dif_neg h, dif_neg h2, if_neg hk]

theorem sget_ssetList_other (z : Nat → α) (m : SMap α) (k : Nat) (xs : List α) {j : Nat} (h : j < k ∨ k + xs.length ≤ j) :
    sget z (ssetList z m k xs) j = sget z m j := by
  rw [sget_ssetList]
  have : ¬ (k ≤ j ∧ j - k < xs.length) := by omega
  simp [this]

/-- A run of keys that has been set reads as the values set. -/
theorem sgetList_ssetList (z : Nat → α) (m : SMap α) (k : Nat) (xs : List α) :
    sgetList z (ssetList z m k xs) k xs.length = xs := by
  have gen : ∀ (n i : Nat), i + n = xs.length → sgetList z (ssetList z m k xs) (k + i) n = xs.drop i := by
    intro n
    induction n with
    | zero => intro i h; simp [sgetList]; omega
    | succ n ih =>
      intro i h
      have hi : i < xs.length := by omega
      rw [sgetList, sget_ssetList, show k + i + 1 = k + (i + 1) from by omega, ih (i + 1) (by omega)]
      have hc : k ≤ k + i ∧ k + i - k < xs.length := by omega
      have e1 : k + i - k = i := by omega
      rw [dif_pos hc]
      simp only [e1]
      exact (List.drop_eq_getElem_cons hi).symm
  simpa using gen xs.length 0 (by omega)

omit [DecidableEq α] in
@[simp] theorem length_sgetList (z : Nat → α) (m : SMap α) (k n : Nat) : (sgetList z m k n).length = n := by
  induction n generalizing k with
  | zero => rfl
  | succ n ih => simp [sgetList, ih]

/-! ### The canonical form -/

theorem swfFrom_mono {z : Nat → α} {a b : Nat} {m : SMap α} (h : a ≤ b) (hm : swfFrom z b m = true) : swfFrom z a m = true := by
  cases m with
  | nil => rfl
  | cons e m =>
    obtain ⟨j, v⟩ := e
    simp only [swfFrom, Bool.and_eq_true, decide_eq_true_eq] at *
    exact ⟨⟨by omega, hm.1.2⟩, hm.2⟩

theorem swfFrom_serase {z : Nat → α} {a : Nat} {m : SMap α} (k : Nat) (h : swfFrom z a m = true) :
    swfFrom z a (serase m k) = true := by
  induction m generalizing a with
  | nil => rfl
  | cons e m ih =>
    obtain ⟨j, v⟩ := e
    simp only [swfFrom, Bool.and_eq_true, decide_eq_true_eq] at h
    by_cases hj : j = k
    · simp only [serase, hj, ite_true]
      exact swfFrom_mono (show a ≤ j + 1 from by omega) (hj ▸ ih h.2)
    · simp [serase, hj, swfFrom, h.1.1, h.1.2, ih h.2]

theorem swfFrom_sinsert {z : Nat → α} {a k : Nat} {x : α} {m : SMap α} (hx : x ≠ z k) (ha : a ≤ k) (hk : ∀ v, (k, v) ∉ m)
    (h : swfFrom z a m = true) : swfFrom z a (sinsert m k x) = true := by
  induction m generalizing a with
  | nil => simp [sinsert, swfFrom, ha, hx]
  | cons e m ih =>
    obtain ⟨j, v⟩ := e
    simp only [swfFrom, Bool.and_eq_true, decide_eq_true_eq] at h
    have hj : j ≠ k := fun e => hk v (by simp [e])
    by_cases hkj : k < j
    · simp only [sinsert, hkj, ite_true, swfFrom, Bool.and_eq_true, decide_eq_true_eq]
      exact ⟨⟨ha, hx⟩, ⟨by omega, h.1.2⟩, h.2⟩
    · simp only [sinsert, hkj, ite_false, swfFrom, Bool.and_eq_true, decide_eq_true_eq]
      exact ⟨h.1, ih (by omega) (fun v hv => hk v (by simp [hv])) h.2⟩

/-- Setting a key keeps the canonical form. -/
theorem swf_sset {z : Nat → α} {m : SMap α} (k : Nat) (x : α) (h : swf z m = true) : swf z (sset z m k x) = true := by
  unfold sset
  by_cases hx : x = z k
  · rw [if_pos hx]; exact swfFrom_serase k h
  · rw [if_neg hx]; exact swfFrom_sinsert hx (Nat.zero_le k) (fun v => serase_no_key m k v) (swfFrom_serase k h)

/-- Setting a run of keys keeps the canonical form. -/
theorem swf_ssetList {z : Nat → α} (xs : List α) : ∀ {m : SMap α} (k : Nat), swf z m = true → swf z (ssetList z m k xs) = true := by
  induction xs with
  | nil => intro m k h; exact h
  | cons x xs ih => intro m k h; exact ih (k + 1) (swf_sset k x h)

theorem swfFrom_skeep {z : Nat → α} {p : Nat → Bool} {a : Nat} {m : SMap α} (h : swfFrom z a m = true) :
    swfFrom z a (skeep p m) = true := by
  induction m generalizing a with
  | nil => rfl
  | cons e m ih =>
    obtain ⟨j, v⟩ := e
    simp only [swfFrom, Bool.and_eq_true, decide_eq_true_eq] at h
    by_cases hp : p j = true
    · simp only [skeep, List.filter, hp, swfFrom, Bool.and_eq_true, decide_eq_true_eq]
      exact ⟨h.1, ih h.2⟩
    · simp only [skeep, List.filter, hp]
      exact swfFrom_mono (by omega) (ih h.2)

/-- Dropping keys keeps the canonical form. -/
theorem swf_skeep {z : Nat → α} (p : Nat → Bool) {m : SMap α} (h : swf z m = true) : swf z (skeep p m) = true :=
  swfFrom_skeep h

/-- A canonical map is the only one with its contents: two canonical maps that read alike at every key are equal. -/
theorem swf_ext {z : Nat → α} {m n : SMap α} (hm : swf z m = true) (hn : swf z n = true) (h : ∀ k, sget z m k = sget z n k) :
    m = n := by
  have low : ∀ {a : Nat} {m : SMap α}, swfFrom z a m = true → ∀ k, k < a → sget z m k = z k := by
    intro a m
    induction m generalizing a with
    | nil => intro _ k _; rfl
    | cons e m ih =>
      obtain ⟨j, v⟩ := e
      intro h k hk
      simp only [swfFrom, Bool.and_eq_true, decide_eq_true_eq] at h
      have : j ≠ k := by omega
      simp [sget, this, ih h.2 k (by omega)]
  have main : ∀ {m n : SMap α} {a b : Nat}, swfFrom z a m = true → swfFrom z b n = true → (∀ k, sget z m k = sget z n k) → m = n := by
    intro m
    induction m with
    | nil =>
      intro n a b _ hn h
      cases n with
      | nil => rfl
      | cons e n =>
        obtain ⟨j, v⟩ := e
        simp only [swfFrom, Bool.and_eq_true, decide_eq_true_eq] at hn
        have := h j
        simp [sget] at this
        exact absurd this.symm hn.1.2
    | cons e m ih =>
      obtain ⟨i, u⟩ := e
      intro n a b hm hn h
      simp only [swfFrom, Bool.and_eq_true, decide_eq_true_eq] at hm
      cases n with
      | nil =>
        have := h i
        simp [sget] at this
        exact absurd this hm.1.2
      | cons e n =>
        obtain ⟨j, v⟩ := e
        simp only [swfFrom, Bool.and_eq_true, decide_eq_true_eq] at hn
        have hij : i = j := by
          rcases Nat.lt_trichotomy i j with hlt | he | hlt
          · have h1 := h i
            have h2 : j ≠ i := by omega
            simp [sget, h2, low hn.2 i (by omega)] at h1
            exact absurd h1 hm.1.2
          · exact he
          · have h1 := h j
            have h2 : i ≠ j := by omega
            simp [sget, h2, low hm.2 j (by omega)] at h1
            exact absurd h1.symm hn.1.2
        subst hij
        have huv : u = v := by have := h i; simpa [sget] using this
        subst huv
        have hrest : ∀ k, sget z m k = sget z n k := by
          intro k
          by_cases hk : i = k
          · subst hk
            rw [low hm.2 i (by omega), low hn.2 i (by omega)]
          · have := h k; simpa [sget, hk] using this
        rw [ih hm.2 hn.2 hrest]
  exact main hm hn h

end Sys2Proof.Machine
end

