-- ==== Sys2Proof/Laws/Canon.lean ====
section
/-!
SUPPORT. Laws/Canon.lean: every operation that changes a sparse map of the package level keeps the canonical form of Safety.lean.
-/
namespace Sys2Proof.Machine

/-! ### How the form passes through terms -/

theorem wf_ite {c : Prop} [Decidable c] {a b : State} (ha : a.wf = true) (hb : b.wf = true) :
    State.wf (if c then a else b) = true := by split <;> assumption

theorem wf_ite_fst {β : Type} {c : Prop} [Decidable c] {a b : State × β} (ha : a.1.wf = true) (hb : b.1.wf = true) :
    State.wf (if c then a else b).1 = true := by split <;> assumption

theorem wf_of_eq {β : Type} {p : State × β} {t : State} {c : β} (e : p = (t, c)) (h : p.1.wf = true) : t.wf = true := by
  subst e; exact h

theorem wf_forEach {α : Type} {f : α → State → State} (hf : ∀ x s, s.wf = true → (f x s).wf = true) (l : List α) {s : State}
    (h : s.wf = true) : (forEach f l s).wf = true := by
  induction l generalizing s with
  | nil => exact h
  | cons x xs ih => exact ih (hf x s h)

theorem wf_forUntil {α : Type} {f : α → State → State × Nat} (hf : ∀ x s, s.wf = true → (f x s).1.wf = true) (l : List α)
    {s : State} (h : s.wf = true) : (forUntil f l s).1.wf = true := by
  induction l generalizing s with
  | nil => exact h
  | cons x xs ih =>
    simp only [forUntil]
    split
    · rename_i s' he; exact ih (wf_of_eq he (hf x s h))
    · rename_i s' c _ he; exact wf_of_eq he (hf x s h)

theorem wf_foldl {α β : Type} {f : State × β → α → State × β} (hf : ∀ p x, p.1.wf = true → (f p x).1.wf = true) (l : List α)
    {p : State × β} (h : p.1.wf = true) : (l.foldl f p).1.wf = true := by
  induction l generalizing p with
  | nil => exact h
  | cons x xs ih => exact ih (hf p x h)

/-! ### Operations that change a sparse map -/

theorem State.wf_parts {s : State} : s.wf = true ↔
    (swf regReset s.regs = true ∧ swf z32 s.sel = true ∧ swf z32 s.hiLatch = true ∧ swf zo s.loShadow = true ∧
      swf zt s.tally = true ∧ swf zt s.snap = true ∧ swf zn s.rem = true ∧ Memory.wf s.mem = true ∧ swf zb s.hostMem = true ∧
      swf zn s.errs = true) := by
  simp [State.wf, and_assoc]

/-- A change of anything but the sparse maps of the package level keeps the form. -/
theorem wf_mk (t : State) {p : List Instr} {tm : Nat} {d : Vector Die 4} {po : Vector Port 16} {m : Master} {dn : Vector DoneSt 4}
    {st : Steward} {q : Vector QueueSt 32} {o : List Out} {fr : Nat} :
    State.wf ⟨p, tm, t.regs, t.sel, t.hiLatch, t.loShadow, t.tally, t.snap, t.rem, t.mem, t.hostMem, t.errs, d, po, m, dn, st, q, o,
      fr⟩ = t.wf := rfl

/-- Every memory operation keeps the canonical form of memory. -/
theorem Memory.wf_ssetList {m : List Host.Cell} (a : Nat) (bs : List Byte) (h : Memory.wf m = true) :
    Memory.wf (ssetList zb m a bs) = true := swf_ssetList bs a h

theorem wf_wr (a : Nat) (v : W) {s : State} (h : s.wf = true) : (wr a v s).wf = true := by
  rw [State.wf_parts] at *
  exact ⟨swf_sset a v h.1, h.2⟩

theorem wf_poke (a : Nat) (bs : List Byte) {s : State} (h : s.wf = true) : (poke a bs s).wf = true := by
  rw [State.wf_parts] at *
  obtain ⟨h1, h2, h3, h4, h5, h6, h7, h8, h9⟩ := h
  exact ⟨h1, h2, h3, h4, h5, h6, h7, Memory.wf_ssetList a bs h8, h9⟩

theorem wf_hostPoke (a : Nat) (bs : List Byte) {s : State} (h : s.wf = true) : (hostPoke a bs s).wf = true := by
  rw [State.wf_parts] at *
  obtain ⟨h1, h2, h3, h4, h5, h6, h7, h8, h9, h10⟩ := h
  exact ⟨h1, h2, h3, h4, h5, h6, h7, h8, swf_ssetList bs a h9, h10⟩

theorem wf_tallySet (k : Nat) (t : Tally) {s : State} (h : s.wf = true) :
    State.wf { s with tally := sset zt s.tally k t } = true := by
  rw [State.wf_parts] at *
  obtain ⟨h1, h2, h3, h4, h5, h6, h7, h8⟩ := h
  exact ⟨h1, h2, h3, h4, swf_sset k t h5, h6, h7, h8⟩

theorem wf_remSet (k n : Nat) {s : State} (h : s.wf = true) : State.wf { s with rem := sset zn s.rem k n } = true := by
  rw [State.wf_parts] at *
  obtain ⟨h1, h2, h3, h4, h5, h6, h7, h8⟩ := h
  exact ⟨h1, h2, h3, h4, h5, h6, swf_sset k n h7, h8⟩

theorem wf_errSet (k n : Nat) {s : State} (h : s.wf = true) : State.wf { s with errs := sset zn s.errs k n } = true := by
  rw [State.wf_parts] at *
  obtain ⟨h1, h2, h3, h4, h5, h6, h7, h8, h9, h10⟩ := h
  exact ⟨h1, h2, h3, h4, h5, h6, h7, h8, h9, swf_sset k n h10⟩

theorem wf_selSet (k : Nat) (v : W) {s : State} (h : s.wf = true) : State.wf { s with sel := sset z32 s.sel k v } = true := by
  rw [State.wf_parts] at *
  exact ⟨h.1, swf_sset k v h.2.1, h.2.2⟩

theorem wf_hiLatchSet (k : Nat) (v : W) {s : State} (h : s.wf = true) :
    State.wf { s with hiLatch := sset z32 s.hiLatch k v } = true := by
  rw [State.wf_parts] at *
  exact ⟨h.1, h.2.1, swf_sset k v h.2.2.1, h.2.2.2⟩

theorem wf_loShadowSet (k : Nat) (v : Option W) {s : State} (h : s.wf = true) :
    State.wf { s with loShadow := sset zo s.loShadow k v } = true := by
  rw [State.wf_parts] at *
  exact ⟨h.1, h.2.1, h.2.2.1, swf_sset k v h.2.2.2.1, h.2.2.2.2⟩

/-- A run of keys set one after another keeps the canonical form. -/
theorem swf_foldl_sset {α β : Type} [DecidableEq α] {z : Nat → α} (k : β → Nat) (x : β → α) (l : List β) {m : SMap α}
    (h : swf z m = true) : swf z (l.foldl (fun m e => sset z m (k e) (x e)) m) = true := by
  induction l generalizing m with
  | nil => exact h
  | cons e l ih => exact ih (swf_sset (k e) (x e) h)

/-- The maps of the package level that a state has keep the form when each is kept. -/
theorem wf_keep {s : State} (h : s.wf = true) (p1 p2 p3 p4 p5 p6 p7 p8 p9 p10 : Nat → Bool) :
    State.wf { s with
      regs := skeep p1 s.regs, sel := skeep p2 s.sel, hiLatch := skeep p3 s.hiLatch, loShadow := skeep p4 s.loShadow
      tally := skeep p5 s.tally, snap := skeep p6 s.snap, rem := skeep p7 s.rem, mem := skeep p8 s.mem
      hostMem := skeep p9 s.hostMem, errs := skeep p10 s.errs } = true := by
  rw [State.wf_parts] at *
  obtain ⟨h1, h2, h3, h4, h5, h6, h7, h8, h9, h10⟩ := h
  exact ⟨swf_skeep _ h1, swf_skeep _ h2, swf_skeep _ h3, swf_skeep _ h4, swf_skeep _ h5, swf_skeep _ h6, swf_skeep _ h7,
    swf_skeep _ h8, swf_skeep _ h9, swf_skeep _ h10⟩

end Sys2Proof.Machine
end

