-- ==== Sys2Proof/Laws/State.lean ====
section
/-!
SUPPORT. Laws/State.lean: what each update of the state leaves as it was, one lemma for each field and update.
-/
namespace Sys2Proof.Machine

variable (s : State)

/-! ### wr -/
@[simp] theorem wr_pending (a : Nat) (v : W) : (wr a v s).pending = s.pending := rfl
@[simp] theorem wr_time (a : Nat) (v : W) : (wr a v s).time = s.time := rfl
@[simp] theorem wr_sel (a : Nat) (v : W) : (wr a v s).sel = s.sel := rfl
@[simp] theorem wr_hiLatch (a : Nat) (v : W) : (wr a v s).hiLatch = s.hiLatch := rfl
@[simp] theorem wr_loShadow (a : Nat) (v : W) : (wr a v s).loShadow = s.loShadow := rfl
@[simp] theorem wr_tally (a : Nat) (v : W) : (wr a v s).tally = s.tally := rfl
@[simp] theorem wr_snap (a : Nat) (v : W) : (wr a v s).snap = s.snap := rfl
@[simp] theorem wr_rem (a : Nat) (v : W) : (wr a v s).rem = s.rem := rfl
@[simp] theorem wr_mem (a : Nat) (v : W) : (wr a v s).mem = s.mem := rfl
@[simp] theorem wr_hostMem (a : Nat) (v : W) : (wr a v s).hostMem = s.hostMem := rfl
@[simp] theorem wr_errs (a : Nat) (v : W) : (wr a v s).errs = s.errs := rfl
@[simp] theorem wr_dies (a : Nat) (v : W) : (wr a v s).dies = s.dies := rfl
@[simp] theorem wr_ports (a : Nat) (v : W) : (wr a v s).ports = s.ports := rfl
@[simp] theorem wr_master (a : Nat) (v : W) : (wr a v s).master = s.master := rfl
@[simp] theorem wr_done (a : Nat) (v : W) : (wr a v s).done = s.done := rfl
@[simp] theorem wr_stw (a : Nat) (v : W) : (wr a v s).stw = s.stw := rfl
@[simp] theorem wr_queues (a : Nat) (v : W) : (wr a v s).queues = s.queues := rfl
@[simp] theorem wr_out (a : Nat) (v : W) : (wr a v s).out = s.out := rfl
@[simp] theorem wr_fresh (a : Nat) (v : W) : (wr a v s).fresh = s.fresh := rfl

/-! ### sf -/
@[simp] theorem sf_pending (p : Nat) (f : Fld) (n : Nat) : (sf p f n s).pending = s.pending := rfl
@[simp] theorem sf_time (p : Nat) (f : Fld) (n : Nat) : (sf p f n s).time = s.time := rfl
@[simp] theorem sf_sel (p : Nat) (f : Fld) (n : Nat) : (sf p f n s).sel = s.sel := rfl
@[simp] theorem sf_hiLatch (p : Nat) (f : Fld) (n : Nat) : (sf p f n s).hiLatch = s.hiLatch := rfl
@[simp] theorem sf_loShadow (p : Nat) (f : Fld) (n : Nat) : (sf p f n s).loShadow = s.loShadow := rfl
@[simp] theorem sf_tally (p : Nat) (f : Fld) (n : Nat) : (sf p f n s).tally = s.tally := rfl
@[simp] theorem sf_snap (p : Nat) (f : Fld) (n : Nat) : (sf p f n s).snap = s.snap := rfl
@[simp] theorem sf_rem (p : Nat) (f : Fld) (n : Nat) : (sf p f n s).rem = s.rem := rfl
@[simp] theorem sf_mem (p : Nat) (f : Fld) (n : Nat) : (sf p f n s).mem = s.mem := rfl
@[simp] theorem sf_hostMem (p : Nat) (f : Fld) (n : Nat) : (sf p f n s).hostMem = s.hostMem := rfl
@[simp] theorem sf_errs (p : Nat) (f : Fld) (n : Nat) : (sf p f n s).errs = s.errs := rfl
@[simp] theorem sf_dies (p : Nat) (f : Fld) (n : Nat) : (sf p f n s).dies = s.dies := rfl
@[simp] theorem sf_ports (p : Nat) (f : Fld) (n : Nat) : (sf p f n s).ports = s.ports := rfl
@[simp] theorem sf_master (p : Nat) (f : Fld) (n : Nat) : (sf p f n s).master = s.master := rfl
@[simp] theorem sf_done (p : Nat) (f : Fld) (n : Nat) : (sf p f n s).done = s.done := rfl
@[simp] theorem sf_stw (p : Nat) (f : Fld) (n : Nat) : (sf p f n s).stw = s.stw := rfl
@[simp] theorem sf_queues (p : Nat) (f : Fld) (n : Nat) : (sf p f n s).queues = s.queues := rfl
@[simp] theorem sf_out (p : Nat) (f : Fld) (n : Nat) : (sf p f n s).out = s.out := rfl
@[simp] theorem sf_fresh (p : Nat) (f : Fld) (n : Nat) : (sf p f n s).fresh = s.fresh := rfl

/-! ### wr64 -/
@[simp] theorem wr64_pending (a v : Nat) : (wr64 a v s).pending = s.pending := rfl
@[simp] theorem wr64_time (a v : Nat) : (wr64 a v s).time = s.time := rfl
@[simp] theorem wr64_sel (a v : Nat) : (wr64 a v s).sel = s.sel := rfl
@[simp] theorem wr64_hiLatch (a v : Nat) : (wr64 a v s).hiLatch = s.hiLatch := rfl
@[simp] theorem wr64_loShadow (a v : Nat) : (wr64 a v s).loShadow = s.loShadow := rfl
@[simp] theorem wr64_tally (a v : Nat) : (wr64 a v s).tally = s.tally := rfl
@[simp] theorem wr64_snap (a v : Nat) : (wr64 a v s).snap = s.snap := rfl
@[simp] theorem wr64_rem (a v : Nat) : (wr64 a v s).rem = s.rem := rfl
@[simp] theorem wr64_mem (a v : Nat) : (wr64 a v s).mem = s.mem := rfl
@[simp] theorem wr64_hostMem (a v : Nat) : (wr64 a v s).hostMem = s.hostMem := rfl
@[simp] theorem wr64_errs (a v : Nat) : (wr64 a v s).errs = s.errs := rfl
@[simp] theorem wr64_dies (a v : Nat) : (wr64 a v s).dies = s.dies := rfl
@[simp] theorem wr64_ports (a v : Nat) : (wr64 a v s).ports = s.ports := rfl
@[simp] theorem wr64_master (a v : Nat) : (wr64 a v s).master = s.master := rfl
@[simp] theorem wr64_done (a v : Nat) : (wr64 a v s).done = s.done := rfl
@[simp] theorem wr64_stw (a v : Nat) : (wr64 a v s).stw = s.stw := rfl
@[simp] theorem wr64_queues (a v : Nat) : (wr64 a v s).queues = s.queues := rfl
@[simp] theorem wr64_out (a v : Nat) : (wr64 a v s).out = s.out := rfl
@[simp] theorem wr64_fresh (a v : Nat) : (wr64 a v s).fresh = s.fresh := rfl

/-! ### onDie -/
@[simp] theorem onDie_pending (d : DieId) (f : Die → Die) : (onDie d f s).pending = s.pending := rfl
@[simp] theorem onDie_time (d : DieId) (f : Die → Die) : (onDie d f s).time = s.time := rfl
@[simp] theorem onDie_regs (d : DieId) (f : Die → Die) : (onDie d f s).regs = s.regs := rfl
@[simp] theorem onDie_sel (d : DieId) (f : Die → Die) : (onDie d f s).sel = s.sel := rfl
@[simp] theorem onDie_hiLatch (d : DieId) (f : Die → Die) : (onDie d f s).hiLatch = s.hiLatch := rfl
@[simp] theorem onDie_loShadow (d : DieId) (f : Die → Die) : (onDie d f s).loShadow = s.loShadow := rfl
@[simp] theorem onDie_tally (d : DieId) (f : Die → Die) : (onDie d f s).tally = s.tally := rfl
@[simp] theorem onDie_snap (d : DieId) (f : Die → Die) : (onDie d f s).snap = s.snap := rfl
@[simp] theorem onDie_rem (d : DieId) (f : Die → Die) : (onDie d f s).rem = s.rem := rfl
@[simp] theorem onDie_mem (d : DieId) (f : Die → Die) : (onDie d f s).mem = s.mem := rfl
@[simp] theorem onDie_hostMem (d : DieId) (f : Die → Die) : (onDie d f s).hostMem = s.hostMem := rfl
@[simp] theorem onDie_errs (d : DieId) (f : Die → Die) : (onDie d f s).errs = s.errs := rfl
@[simp] theorem onDie_ports (d : DieId) (f : Die → Die) : (onDie d f s).ports = s.ports := rfl
@[simp] theorem onDie_master (d : DieId) (f : Die → Die) : (onDie d f s).master = s.master := rfl
@[simp] theorem onDie_done (d : DieId) (f : Die → Die) : (onDie d f s).done = s.done := rfl
@[simp] theorem onDie_stw (d : DieId) (f : Die → Die) : (onDie d f s).stw = s.stw := rfl
@[simp] theorem onDie_queues (d : DieId) (f : Die → Die) : (onDie d f s).queues = s.queues := rfl
@[simp] theorem onDie_out (d : DieId) (f : Die → Die) : (onDie d f s).out = s.out := rfl
@[simp] theorem onDie_fresh (d : DieId) (f : Die → Die) : (onDie d f s).fresh = s.fresh := rfl

/-! ### onPort -/
@[simp] theorem onPort_pending (p : PortId) (f : Port → Port) : (onPort p f s).pending = s.pending := rfl
@[simp] theorem onPort_time (p : PortId) (f : Port → Port) : (onPort p f s).time = s.time := rfl
@[simp] theorem onPort_regs (p : PortId) (f : Port → Port) : (onPort p f s).regs = s.regs := rfl
@[simp] theorem onPort_sel (p : PortId) (f : Port → Port) : (onPort p f s).sel = s.sel := rfl
@[simp] theorem onPort_hiLatch (p : PortId) (f : Port → Port) : (onPort p f s).hiLatch = s.hiLatch := rfl
@[simp] theorem onPort_loShadow (p : PortId) (f : Port → Port) : (onPort p f s).loShadow = s.loShadow := rfl
@[simp] theorem onPort_tally (p : PortId) (f : Port → Port) : (onPort p f s).tally = s.tally := rfl
@[simp] theorem onPort_snap (p : PortId) (f : Port → Port) : (onPort p f s).snap = s.snap := rfl
@[simp] theorem onPort_rem (p : PortId) (f : Port → Port) : (onPort p f s).rem = s.rem := rfl
@[simp] theorem onPort_mem (p : PortId) (f : Port → Port) : (onPort p f s).mem = s.mem := rfl
@[simp] theorem onPort_hostMem (p : PortId) (f : Port → Port) : (onPort p f s).hostMem = s.hostMem := rfl
@[simp] theorem onPort_errs (p : PortId) (f : Port → Port) : (onPort p f s).errs = s.errs := rfl
@[simp] theorem onPort_dies (p : PortId) (f : Port → Port) : (onPort p f s).dies = s.dies := rfl
@[simp] theorem onPort_master (p : PortId) (f : Port → Port) : (onPort p f s).master = s.master := rfl
@[simp] theorem onPort_done (p : PortId) (f : Port → Port) : (onPort p f s).done = s.done := rfl
@[simp] theorem onPort_stw (p : PortId) (f : Port → Port) : (onPort p f s).stw = s.stw := rfl
@[simp] theorem onPort_queues (p : PortId) (f : Port → Port) : (onPort p f s).queues = s.queues := rfl
@[simp] theorem onPort_out (p : PortId) (f : Port → Port) : (onPort p f s).out = s.out := rfl
@[simp] theorem onPort_fresh (p : PortId) (f : Port → Port) : (onPort p f s).fresh = s.fresh := rfl

/-! ### emit -/
@[simp] theorem emit_pending (o : Out) : (emit o s).pending = s.pending := rfl
@[simp] theorem emit_time (o : Out) : (emit o s).time = s.time := rfl
@[simp] theorem emit_regs (o : Out) : (emit o s).regs = s.regs := rfl
@[simp] theorem emit_sel (o : Out) : (emit o s).sel = s.sel := rfl
@[simp] theorem emit_hiLatch (o : Out) : (emit o s).hiLatch = s.hiLatch := rfl
@[simp] theorem emit_loShadow (o : Out) : (emit o s).loShadow = s.loShadow := rfl
@[simp] theorem emit_tally (o : Out) : (emit o s).tally = s.tally := rfl
@[simp] theorem emit_snap (o : Out) : (emit o s).snap = s.snap := rfl
@[simp] theorem emit_rem (o : Out) : (emit o s).rem = s.rem := rfl
@[simp] theorem emit_mem (o : Out) : (emit o s).mem = s.mem := rfl
@[simp] theorem emit_hostMem (o : Out) : (emit o s).hostMem = s.hostMem := rfl
@[simp] theorem emit_errs (o : Out) : (emit o s).errs = s.errs := rfl
@[simp] theorem emit_dies (o : Out) : (emit o s).dies = s.dies := rfl
@[simp] theorem emit_ports (o : Out) : (emit o s).ports = s.ports := rfl
@[simp] theorem emit_master (o : Out) : (emit o s).master = s.master := rfl
@[simp] theorem emit_done (o : Out) : (emit o s).done = s.done := rfl
@[simp] theorem emit_stw (o : Out) : (emit o s).stw = s.stw := rfl
@[simp] theorem emit_queues (o : Out) : (emit o s).queues = s.queues := rfl
@[simp] theorem emit_fresh (o : Out) : (emit o s).fresh = s.fresh := rfl

/-! ### emits -/
@[simp] theorem emits_pending (os : List Out) : (emits os s).pending = s.pending := rfl
@[simp] theorem emits_time (os : List Out) : (emits os s).time = s.time := rfl
@[simp] theorem emits_regs (os : List Out) : (emits os s).regs = s.regs := rfl
@[simp] theorem emits_sel (os : List Out) : (emits os s).sel = s.sel := rfl
@[simp] theorem emits_hiLatch (os : List Out) : (emits os s).hiLatch = s.hiLatch := rfl
@[simp] theorem emits_loShadow (os : List Out) : (emits os s).loShadow = s.loShadow := rfl
@[simp] theorem emits_tally (os : List Out) : (emits os s).tally = s.tally := rfl
@[simp] theorem emits_snap (os : List Out) : (emits os s).snap = s.snap := rfl
@[simp] theorem emits_rem (os : List Out) : (emits os s).rem = s.rem := rfl
@[simp] theorem emits_mem (os : List Out) : (emits os s).mem = s.mem := rfl
@[simp] theorem emits_hostMem (os : List Out) : (emits os s).hostMem = s.hostMem := rfl
@[simp] theorem emits_errs (os : List Out) : (emits os s).errs = s.errs := rfl
@[simp] theorem emits_dies (os : List Out) : (emits os s).dies = s.dies := rfl
@[simp] theorem emits_ports (os : List Out) : (emits os s).ports = s.ports := rfl
@[simp] theorem emits_master (os : List Out) : (emits os s).master = s.master := rfl
@[simp] theorem emits_done (os : List Out) : (emits os s).done = s.done := rfl
@[simp] theorem emits_stw (os : List Out) : (emits os s).stw = s.stw := rfl
@[simp] theorem emits_queues (os : List Out) : (emits os s).queues = s.queues := rfl
@[simp] theorem emits_fresh (os : List Out) : (emits os s).fresh = s.fresh := rfl

/-! ### poke -/
@[simp] theorem poke_pending (a : Nat) (bs : List Byte) : (poke a bs s).pending = s.pending := rfl
@[simp] theorem poke_time (a : Nat) (bs : List Byte) : (poke a bs s).time = s.time := rfl
@[simp] theorem poke_regs (a : Nat) (bs : List Byte) : (poke a bs s).regs = s.regs := rfl
@[simp] theorem poke_sel (a : Nat) (bs : List Byte) : (poke a bs s).sel = s.sel := rfl
@[simp] theorem poke_hiLatch (a : Nat) (bs : List Byte) : (poke a bs s).hiLatch = s.hiLatch := rfl
@[simp] theorem poke_loShadow (a : Nat) (bs : List Byte) : (poke a bs s).loShadow = s.loShadow := rfl
@[simp] theorem poke_tally (a : Nat) (bs : List Byte) : (poke a bs s).tally = s.tally := rfl
@[simp] theorem poke_snap (a : Nat) (bs : List Byte) : (poke a bs s).snap = s.snap := rfl
@[simp] theorem poke_rem (a : Nat) (bs : List Byte) : (poke a bs s).rem = s.rem := rfl
@[simp] theorem poke_hostMem (a : Nat) (bs : List Byte) : (poke a bs s).hostMem = s.hostMem := rfl
@[simp] theorem poke_errs (a : Nat) (bs : List Byte) : (poke a bs s).errs = s.errs := rfl
@[simp] theorem poke_dies (a : Nat) (bs : List Byte) : (poke a bs s).dies = s.dies := rfl
@[simp] theorem poke_ports (a : Nat) (bs : List Byte) : (poke a bs s).ports = s.ports := rfl
@[simp] theorem poke_master (a : Nat) (bs : List Byte) : (poke a bs s).master = s.master := rfl
@[simp] theorem poke_done (a : Nat) (bs : List Byte) : (poke a bs s).done = s.done := rfl
@[simp] theorem poke_stw (a : Nat) (bs : List Byte) : (poke a bs s).stw = s.stw := rfl
@[simp] theorem poke_queues (a : Nat) (bs : List Byte) : (poke a bs s).queues = s.queues := rfl
@[simp] theorem poke_out (a : Nat) (bs : List Byte) : (poke a bs s).out = s.out := rfl
@[simp] theorem poke_fresh (a : Nat) (bs : List Byte) : (poke a bs s).fresh = s.fresh := rfl

/-! ### hostPoke -/
@[simp] theorem hostPoke_pending (a : Nat) (bs : List Byte) : (hostPoke a bs s).pending = s.pending := rfl
@[simp] theorem hostPoke_time (a : Nat) (bs : List Byte) : (hostPoke a bs s).time = s.time := rfl
@[simp] theorem hostPoke_regs (a : Nat) (bs : List Byte) : (hostPoke a bs s).regs = s.regs := rfl
@[simp] theorem hostPoke_sel (a : Nat) (bs : List Byte) : (hostPoke a bs s).sel = s.sel := rfl
@[simp] theorem hostPoke_hiLatch (a : Nat) (bs : List Byte) : (hostPoke a bs s).hiLatch = s.hiLatch := rfl
@[simp] theorem hostPoke_loShadow (a : Nat) (bs : List Byte) : (hostPoke a bs s).loShadow = s.loShadow := rfl
@[simp] theorem hostPoke_tally (a : Nat) (bs : List Byte) : (hostPoke a bs s).tally = s.tally := rfl
@[simp] theorem hostPoke_snap (a : Nat) (bs : List Byte) : (hostPoke a bs s).snap = s.snap := rfl
@[simp] theorem hostPoke_rem (a : Nat) (bs : List Byte) : (hostPoke a bs s).rem = s.rem := rfl
@[simp] theorem hostPoke_mem (a : Nat) (bs : List Byte) : (hostPoke a bs s).mem = s.mem := rfl
@[simp] theorem hostPoke_errs (a : Nat) (bs : List Byte) : (hostPoke a bs s).errs = s.errs := rfl
@[simp] theorem hostPoke_dies (a : Nat) (bs : List Byte) : (hostPoke a bs s).dies = s.dies := rfl
@[simp] theorem hostPoke_ports (a : Nat) (bs : List Byte) : (hostPoke a bs s).ports = s.ports := rfl
@[simp] theorem hostPoke_master (a : Nat) (bs : List Byte) : (hostPoke a bs s).master = s.master := rfl
@[simp] theorem hostPoke_done (a : Nat) (bs : List Byte) : (hostPoke a bs s).done = s.done := rfl
@[simp] theorem hostPoke_stw (a : Nat) (bs : List Byte) : (hostPoke a bs s).stw = s.stw := rfl
@[simp] theorem hostPoke_queues (a : Nat) (bs : List Byte) : (hostPoke a bs s).queues = s.queues := rfl
@[simp] theorem hostPoke_out (a : Nat) (bs : List Byte) : (hostPoke a bs s).out = s.out := rfl
@[simp] theorem hostPoke_fresh (a : Nat) (bs : List Byte) : (hostPoke a bs s).fresh = s.fresh := rfl

/-! ### evtRaw -/
@[simp] theorem evtRaw_pending (p b : Nat) : (evtRaw p b s).pending = s.pending := rfl
@[simp] theorem evtRaw_time (p b : Nat) : (evtRaw p b s).time = s.time := rfl
@[simp] theorem evtRaw_sel (p b : Nat) : (evtRaw p b s).sel = s.sel := rfl
@[simp] theorem evtRaw_hiLatch (p b : Nat) : (evtRaw p b s).hiLatch = s.hiLatch := rfl
@[simp] theorem evtRaw_loShadow (p b : Nat) : (evtRaw p b s).loShadow = s.loShadow := rfl
@[simp] theorem evtRaw_tally (p b : Nat) : (evtRaw p b s).tally = s.tally := rfl
@[simp] theorem evtRaw_snap (p b : Nat) : (evtRaw p b s).snap = s.snap := rfl
@[simp] theorem evtRaw_rem (p b : Nat) : (evtRaw p b s).rem = s.rem := rfl
@[simp] theorem evtRaw_mem (p b : Nat) : (evtRaw p b s).mem = s.mem := rfl
@[simp] theorem evtRaw_hostMem (p b : Nat) : (evtRaw p b s).hostMem = s.hostMem := rfl
@[simp] theorem evtRaw_errs (p b : Nat) : (evtRaw p b s).errs = s.errs := rfl
@[simp] theorem evtRaw_dies (p b : Nat) : (evtRaw p b s).dies = s.dies := rfl
@[simp] theorem evtRaw_ports (p b : Nat) : (evtRaw p b s).ports = s.ports := rfl
@[simp] theorem evtRaw_master (p b : Nat) : (evtRaw p b s).master = s.master := rfl
@[simp] theorem evtRaw_done (p b : Nat) : (evtRaw p b s).done = s.done := rfl
@[simp] theorem evtRaw_stw (p b : Nat) : (evtRaw p b s).stw = s.stw := rfl
@[simp] theorem evtRaw_queues (p b : Nat) : (evtRaw p b s).queues = s.queues := rfl
@[simp] theorem evtRaw_out (p b : Nat) : (evtRaw p b s).out = s.out := rfl
@[simp] theorem evtRaw_fresh (p b : Nat) : (evtRaw p b s).fresh = s.fresh := rfl

/-! ### onDisp -/
@[simp] theorem onDisp_pending (d : DieId) (f : Disp → Disp) : (onDisp d f s).pending = s.pending := rfl
@[simp] theorem onDisp_time (d : DieId) (f : Disp → Disp) : (onDisp d f s).time = s.time := rfl
@[simp] theorem onDisp_regs (d : DieId) (f : Disp → Disp) : (onDisp d f s).regs = s.regs := rfl
@[simp] theorem onDisp_sel (d : DieId) (f : Disp → Disp) : (onDisp d f s).sel = s.sel := rfl
@[simp] theorem onDisp_hiLatch (d : DieId) (f : Disp → Disp) : (onDisp d f s).hiLatch = s.hiLatch := rfl
@[simp] theorem onDisp_loShadow (d : DieId) (f : Disp → Disp) : (onDisp d f s).loShadow = s.loShadow := rfl
@[simp] theorem onDisp_tally (d : DieId) (f : Disp → Disp) : (onDisp d f s).tally = s.tally := rfl
@[simp] theorem onDisp_snap (d : DieId) (f : Disp → Disp) : (onDisp d f s).snap = s.snap := rfl
@[simp] theorem onDisp_rem (d : DieId) (f : Disp → Disp) : (onDisp d f s).rem = s.rem := rfl
@[simp] theorem onDisp_mem (d : DieId) (f : Disp → Disp) : (onDisp d f s).mem = s.mem := rfl
@[simp] theorem onDisp_hostMem (d : DieId) (f : Disp → Disp) : (onDisp d f s).hostMem = s.hostMem := rfl
@[simp] theorem onDisp_errs (d : DieId) (f : Disp → Disp) : (onDisp d f s).errs = s.errs := rfl
@[simp] theorem onDisp_ports (d : DieId) (f : Disp → Disp) : (onDisp d f s).ports = s.ports := rfl
@[simp] theorem onDisp_master (d : DieId) (f : Disp → Disp) : (onDisp d f s).master = s.master := rfl
@[simp] theorem onDisp_done (d : DieId) (f : Disp → Disp) : (onDisp d f s).done = s.done := rfl
@[simp] theorem onDisp_stw (d : DieId) (f : Disp → Disp) : (onDisp d f s).stw = s.stw := rfl
@[simp] theorem onDisp_queues (d : DieId) (f : Disp → Disp) : (onDisp d f s).queues = s.queues := rfl
@[simp] theorem onDisp_out (d : DieId) (f : Disp → Disp) : (onDisp d f s).out = s.out := rfl
@[simp] theorem onDisp_fresh (d : DieId) (f : Disp → Disp) : (onDisp d f s).fresh = s.fresh := rfl

/-! ### setTask -/
@[simp] theorem setTask_pending (d : DieId) (t : Nat) (x : TaskSt) : (setTask d t x s).pending = s.pending := rfl
@[simp] theorem setTask_time (d : DieId) (t : Nat) (x : TaskSt) : (setTask d t x s).time = s.time := rfl
@[simp] theorem setTask_regs (d : DieId) (t : Nat) (x : TaskSt) : (setTask d t x s).regs = s.regs := rfl
@[simp] theorem setTask_sel (d : DieId) (t : Nat) (x : TaskSt) : (setTask d t x s).sel = s.sel := rfl
@[simp] theorem setTask_hiLatch (d : DieId) (t : Nat) (x : TaskSt) : (setTask d t x s).hiLatch = s.hiLatch := rfl
@[simp] theorem setTask_loShadow (d : DieId) (t : Nat) (x : TaskSt) : (setTask d t x s).loShadow = s.loShadow := rfl
@[simp] theorem setTask_tally (d : DieId) (t : Nat) (x : TaskSt) : (setTask d t x s).tally = s.tally := rfl
@[simp] theorem setTask_snap (d : DieId) (t : Nat) (x : TaskSt) : (setTask d t x s).snap = s.snap := rfl
@[simp] theorem setTask_rem (d : DieId) (t : Nat) (x : TaskSt) : (setTask d t x s).rem = s.rem := rfl
@[simp] theorem setTask_mem (d : DieId) (t : Nat) (x : TaskSt) : (setTask d t x s).mem = s.mem := rfl
@[simp] theorem setTask_hostMem (d : DieId) (t : Nat) (x : TaskSt) : (setTask d t x s).hostMem = s.hostMem := rfl
@[simp] theorem setTask_errs (d : DieId) (t : Nat) (x : TaskSt) : (setTask d t x s).errs = s.errs := rfl
@[simp] theorem setTask_ports (d : DieId) (t : Nat) (x : TaskSt) : (setTask d t x s).ports = s.ports := rfl
@[simp] theorem setTask_master (d : DieId) (t : Nat) (x : TaskSt) : (setTask d t x s).master = s.master := rfl
@[simp] theorem setTask_done (d : DieId) (t : Nat) (x : TaskSt) : (setTask d t x s).done = s.done := rfl
@[simp] theorem setTask_stw (d : DieId) (t : Nat) (x : TaskSt) : (setTask d t x s).stw = s.stw := rfl
@[simp] theorem setTask_queues (d : DieId) (t : Nat) (x : TaskSt) : (setTask d t x s).queues = s.queues := rfl
@[simp] theorem setTask_out (d : DieId) (t : Nat) (x : TaskSt) : (setTask d t x s).out = s.out := rfl
@[simp] theorem setTask_fresh (d : DieId) (t : Nat) (x : TaskSt) : (setTask d t x s).fresh = s.fresh := rfl

/-! ### onVx -/
@[simp] theorem onVx_pending (d : DieId) (x : Fin 2) (f : Vx → Vx) : (onVx d x f s).pending = s.pending := rfl
@[simp] theorem onVx_time (d : DieId) (x : Fin 2) (f : Vx → Vx) : (onVx d x f s).time = s.time := rfl
@[simp] theorem onVx_regs (d : DieId) (x : Fin 2) (f : Vx → Vx) : (onVx d x f s).regs = s.regs := rfl
@[simp] theorem onVx_sel (d : DieId) (x : Fin 2) (f : Vx → Vx) : (onVx d x f s).sel = s.sel := rfl
@[simp] theorem onVx_hiLatch (d : DieId) (x : Fin 2) (f : Vx → Vx) : (onVx d x f s).hiLatch = s.hiLatch := rfl
@[simp] theorem onVx_loShadow (d : DieId) (x : Fin 2) (f : Vx → Vx) : (onVx d x f s).loShadow = s.loShadow := rfl
@[simp] theorem onVx_tally (d : DieId) (x : Fin 2) (f : Vx → Vx) : (onVx d x f s).tally = s.tally := rfl
@[simp] theorem onVx_snap (d : DieId) (x : Fin 2) (f : Vx → Vx) : (onVx d x f s).snap = s.snap := rfl
@[simp] theorem onVx_rem (d : DieId) (x : Fin 2) (f : Vx → Vx) : (onVx d x f s).rem = s.rem := rfl
@[simp] theorem onVx_mem (d : DieId) (x : Fin 2) (f : Vx → Vx) : (onVx d x f s).mem = s.mem := rfl
@[simp] theorem onVx_hostMem (d : DieId) (x : Fin 2) (f : Vx → Vx) : (onVx d x f s).hostMem = s.hostMem := rfl
@[simp] theorem onVx_errs (d : DieId) (x : Fin 2) (f : Vx → Vx) : (onVx d x f s).errs = s.errs := rfl
@[simp] theorem onVx_ports (d : DieId) (x : Fin 2) (f : Vx → Vx) : (onVx d x f s).ports = s.ports := rfl
@[simp] theorem onVx_master (d : DieId) (x : Fin 2) (f : Vx → Vx) : (onVx d x f s).master = s.master := rfl
@[simp] theorem onVx_done (d : DieId) (x : Fin 2) (f : Vx → Vx) : (onVx d x f s).done = s.done := rfl
@[simp] theorem onVx_stw (d : DieId) (x : Fin 2) (f : Vx → Vx) : (onVx d x f s).stw = s.stw := rfl
@[simp] theorem onVx_queues (d : DieId) (x : Fin 2) (f : Vx → Vx) : (onVx d x f s).queues = s.queues := rfl
@[simp] theorem onVx_out (d : DieId) (x : Fin 2) (f : Vx → Vx) : (onVx d x f s).out = s.out := rfl
@[simp] theorem onVx_fresh (d : DieId) (x : Fin 2) (f : Vx → Vx) : (onVx d x f s).fresh = s.fresh := rfl

/-! ### onCe -/
@[simp] theorem onCe_pending (d : DieId) (f : Ce → Ce) : (onCe d f s).pending = s.pending := rfl
@[simp] theorem onCe_time (d : DieId) (f : Ce → Ce) : (onCe d f s).time = s.time := rfl
@[simp] theorem onCe_regs (d : DieId) (f : Ce → Ce) : (onCe d f s).regs = s.regs := rfl
@[simp] theorem onCe_sel (d : DieId) (f : Ce → Ce) : (onCe d f s).sel = s.sel := rfl
@[simp] theorem onCe_hiLatch (d : DieId) (f : Ce → Ce) : (onCe d f s).hiLatch = s.hiLatch := rfl
@[simp] theorem onCe_loShadow (d : DieId) (f : Ce → Ce) : (onCe d f s).loShadow = s.loShadow := rfl
@[simp] theorem onCe_tally (d : DieId) (f : Ce → Ce) : (onCe d f s).tally = s.tally := rfl
@[simp] theorem onCe_snap (d : DieId) (f : Ce → Ce) : (onCe d f s).snap = s.snap := rfl
@[simp] theorem onCe_rem (d : DieId) (f : Ce → Ce) : (onCe d f s).rem = s.rem := rfl
@[simp] theorem onCe_mem (d : DieId) (f : Ce → Ce) : (onCe d f s).mem = s.mem := rfl
@[simp] theorem onCe_hostMem (d : DieId) (f : Ce → Ce) : (onCe d f s).hostMem = s.hostMem := rfl
@[simp] theorem onCe_errs (d : DieId) (f : Ce → Ce) : (onCe d f s).errs = s.errs := rfl
@[simp] theorem onCe_ports (d : DieId) (f : Ce → Ce) : (onCe d f s).ports = s.ports := rfl
@[simp] theorem onCe_master (d : DieId) (f : Ce → Ce) : (onCe d f s).master = s.master := rfl
@[simp] theorem onCe_done (d : DieId) (f : Ce → Ce) : (onCe d f s).done = s.done := rfl
@[simp] theorem onCe_stw (d : DieId) (f : Ce → Ce) : (onCe d f s).stw = s.stw := rfl
@[simp] theorem onCe_queues (d : DieId) (f : Ce → Ce) : (onCe d f s).queues = s.queues := rfl
@[simp] theorem onCe_out (d : DieId) (f : Ce → Ce) : (onCe d f s).out = s.out := rfl
@[simp] theorem onCe_fresh (d : DieId) (f : Ce → Ce) : (onCe d f s).fresh = s.fresh := rfl

/-! ### onTick -/
@[simp] theorem onTick_pending (d : DieId) (f : TickDie → TickDie) : (onTick d f s).pending = s.pending := rfl
@[simp] theorem onTick_time (d : DieId) (f : TickDie → TickDie) : (onTick d f s).time = s.time := rfl
@[simp] theorem onTick_regs (d : DieId) (f : TickDie → TickDie) : (onTick d f s).regs = s.regs := rfl
@[simp] theorem onTick_sel (d : DieId) (f : TickDie → TickDie) : (onTick d f s).sel = s.sel := rfl
@[simp] theorem onTick_hiLatch (d : DieId) (f : TickDie → TickDie) : (onTick d f s).hiLatch = s.hiLatch := rfl
@[simp] theorem onTick_loShadow (d : DieId) (f : TickDie → TickDie) : (onTick d f s).loShadow = s.loShadow := rfl
@[simp] theorem onTick_tally (d : DieId) (f : TickDie → TickDie) : (onTick d f s).tally = s.tally := rfl
@[simp] theorem onTick_snap (d : DieId) (f : TickDie → TickDie) : (onTick d f s).snap = s.snap := rfl
@[simp] theorem onTick_rem (d : DieId) (f : TickDie → TickDie) : (onTick d f s).rem = s.rem := rfl
@[simp] theorem onTick_mem (d : DieId) (f : TickDie → TickDie) : (onTick d f s).mem = s.mem := rfl
@[simp] theorem onTick_hostMem (d : DieId) (f : TickDie → TickDie) : (onTick d f s).hostMem = s.hostMem := rfl
@[simp] theorem onTick_errs (d : DieId) (f : TickDie → TickDie) : (onTick d f s).errs = s.errs := rfl
@[simp] theorem onTick_ports (d : DieId) (f : TickDie → TickDie) : (onTick d f s).ports = s.ports := rfl
@[simp] theorem onTick_master (d : DieId) (f : TickDie → TickDie) : (onTick d f s).master = s.master := rfl
@[simp] theorem onTick_done (d : DieId) (f : TickDie → TickDie) : (onTick d f s).done = s.done := rfl
@[simp] theorem onTick_stw (d : DieId) (f : TickDie → TickDie) : (onTick d f s).stw = s.stw := rfl
@[simp] theorem onTick_queues (d : DieId) (f : TickDie → TickDie) : (onTick d f s).queues = s.queues := rfl
@[simp] theorem onTick_out (d : DieId) (f : TickDie → TickDie) : (onTick d f s).out = s.out := rfl
@[simp] theorem onTick_fresh (d : DieId) (f : TickDie → TickDie) : (onTick d f s).fresh = s.fresh := rfl

/-! ### onMaster -/
@[simp] theorem onMaster_pending (f : Master → Master) : (onMaster f s).pending = s.pending := rfl
@[simp] theorem onMaster_time (f : Master → Master) : (onMaster f s).time = s.time := rfl
@[simp] theorem onMaster_regs (f : Master → Master) : (onMaster f s).regs = s.regs := rfl
@[simp] theorem onMaster_sel (f : Master → Master) : (onMaster f s).sel = s.sel := rfl
@[simp] theorem onMaster_hiLatch (f : Master → Master) : (onMaster f s).hiLatch = s.hiLatch := rfl
@[simp] theorem onMaster_loShadow (f : Master → Master) : (onMaster f s).loShadow = s.loShadow := rfl
@[simp] theorem onMaster_tally (f : Master → Master) : (onMaster f s).tally = s.tally := rfl
@[simp] theorem onMaster_snap (f : Master → Master) : (onMaster f s).snap = s.snap := rfl
@[simp] theorem onMaster_rem (f : Master → Master) : (onMaster f s).rem = s.rem := rfl
@[simp] theorem onMaster_mem (f : Master → Master) : (onMaster f s).mem = s.mem := rfl
@[simp] theorem onMaster_hostMem (f : Master → Master) : (onMaster f s).hostMem = s.hostMem := rfl
@[simp] theorem onMaster_errs (f : Master → Master) : (onMaster f s).errs = s.errs := rfl
@[simp] theorem onMaster_dies (f : Master → Master) : (onMaster f s).dies = s.dies := rfl
@[simp] theorem onMaster_ports (f : Master → Master) : (onMaster f s).ports = s.ports := rfl
@[simp] theorem onMaster_done (f : Master → Master) : (onMaster f s).done = s.done := rfl
@[simp] theorem onMaster_stw (f : Master → Master) : (onMaster f s).stw = s.stw := rfl
@[simp] theorem onMaster_queues (f : Master → Master) : (onMaster f s).queues = s.queues := rfl
@[simp] theorem onMaster_out (f : Master → Master) : (onMaster f s).out = s.out := rfl
@[simp] theorem onMaster_fresh (f : Master → Master) : (onMaster f s).fresh = s.fresh := rfl

/-! ### onStw -/
@[simp] theorem onStw_pending (f : Steward → Steward) : (onStw f s).pending = s.pending := rfl
@[simp] theorem onStw_time (f : Steward → Steward) : (onStw f s).time = s.time := rfl
@[simp] theorem onStw_regs (f : Steward → Steward) : (onStw f s).regs = s.regs := rfl
@[simp] theorem onStw_sel (f : Steward → Steward) : (onStw f s).sel = s.sel := rfl
@[simp] theorem onStw_hiLatch (f : Steward → Steward) : (onStw f s).hiLatch = s.hiLatch := rfl
@[simp] theorem onStw_loShadow (f : Steward → Steward) : (onStw f s).loShadow = s.loShadow := rfl
@[simp] theorem onStw_tally (f : Steward → Steward) : (onStw f s).tally = s.tally := rfl
@[simp] theorem onStw_snap (f : Steward → Steward) : (onStw f s).snap = s.snap := rfl
@[simp] theorem onStw_rem (f : Steward → Steward) : (onStw f s).rem = s.rem := rfl
@[simp] theorem onStw_mem (f : Steward → Steward) : (onStw f s).mem = s.mem := rfl
@[simp] theorem onStw_hostMem (f : Steward → Steward) : (onStw f s).hostMem = s.hostMem := rfl
@[simp] theorem onStw_errs (f : Steward → Steward) : (onStw f s).errs = s.errs := rfl
@[simp] theorem onStw_dies (f : Steward → Steward) : (onStw f s).dies = s.dies := rfl
@[simp] theorem onStw_ports (f : Steward → Steward) : (onStw f s).ports = s.ports := rfl
@[simp] theorem onStw_master (f : Steward → Steward) : (onStw f s).master = s.master := rfl
@[simp] theorem onStw_done (f : Steward → Steward) : (onStw f s).done = s.done := rfl
@[simp] theorem onStw_queues (f : Steward → Steward) : (onStw f s).queues = s.queues := rfl
@[simp] theorem onStw_out (f : Steward → Steward) : (onStw f s).out = s.out := rfl
@[simp] theorem onStw_fresh (f : Steward → Steward) : (onStw f s).fresh = s.fresh := rfl

/-! ### onSide -/
@[simp] theorem onSide_pending (d : DieId) (e : SideId) (f : Side → Side) : (onSide d e f s).pending = s.pending := rfl
@[simp] theorem onSide_time (d : DieId) (e : SideId) (f : Side → Side) : (onSide d e f s).time = s.time := rfl
@[simp] theorem onSide_regs (d : DieId) (e : SideId) (f : Side → Side) : (onSide d e f s).regs = s.regs := rfl
@[simp] theorem onSide_sel (d : DieId) (e : SideId) (f : Side → Side) : (onSide d e f s).sel = s.sel := rfl
@[simp] theorem onSide_hiLatch (d : DieId) (e : SideId) (f : Side → Side) : (onSide d e f s).hiLatch = s.hiLatch := rfl
@[simp] theorem onSide_loShadow (d : DieId) (e : SideId) (f : Side → Side) : (onSide d e f s).loShadow = s.loShadow := rfl
@[simp] theorem onSide_tally (d : DieId) (e : SideId) (f : Side → Side) : (onSide d e f s).tally = s.tally := rfl
@[simp] theorem onSide_snap (d : DieId) (e : SideId) (f : Side → Side) : (onSide d e f s).snap = s.snap := rfl
@[simp] theorem onSide_rem (d : DieId) (e : SideId) (f : Side → Side) : (onSide d e f s).rem = s.rem := rfl
@[simp] theorem onSide_mem (d : DieId) (e : SideId) (f : Side → Side) : (onSide d e f s).mem = s.mem := rfl
@[simp] theorem onSide_hostMem (d : DieId) (e : SideId) (f : Side → Side) : (onSide d e f s).hostMem = s.hostMem := rfl
@[simp] theorem onSide_errs (d : DieId) (e : SideId) (f : Side → Side) : (onSide d e f s).errs = s.errs := rfl
@[simp] theorem onSide_ports (d : DieId) (e : SideId) (f : Side → Side) : (onSide d e f s).ports = s.ports := rfl
@[simp] theorem onSide_master (d : DieId) (e : SideId) (f : Side → Side) : (onSide d e f s).master = s.master := rfl
@[simp] theorem onSide_done (d : DieId) (e : SideId) (f : Side → Side) : (onSide d e f s).done = s.done := rfl
@[simp] theorem onSide_stw (d : DieId) (e : SideId) (f : Side → Side) : (onSide d e f s).stw = s.stw := rfl
@[simp] theorem onSide_queues (d : DieId) (e : SideId) (f : Side → Side) : (onSide d e f s).queues = s.queues := rfl
@[simp] theorem onSide_out (d : DieId) (e : SideId) (f : Side → Side) : (onSide d e f s).out = s.out := rfl
@[simp] theorem onSide_fresh (d : DieId) (e : SideId) (f : Side → Side) : (onSide d e f s).fresh = s.fresh := rfl

/-! ### onInteg -/
@[simp] theorem onInteg_pending (d : DieId) (f : Integ → Integ) : (onInteg d f s).pending = s.pending := rfl
@[simp] theorem onInteg_time (d : DieId) (f : Integ → Integ) : (onInteg d f s).time = s.time := rfl
@[simp] theorem onInteg_regs (d : DieId) (f : Integ → Integ) : (onInteg d f s).regs = s.regs := rfl
@[simp] theorem onInteg_sel (d : DieId) (f : Integ → Integ) : (onInteg d f s).sel = s.sel := rfl
@[simp] theorem onInteg_hiLatch (d : DieId) (f : Integ → Integ) : (onInteg d f s).hiLatch = s.hiLatch := rfl
@[simp] theorem onInteg_loShadow (d : DieId) (f : Integ → Integ) : (onInteg d f s).loShadow = s.loShadow := rfl
@[simp] theorem onInteg_tally (d : DieId) (f : Integ → Integ) : (onInteg d f s).tally = s.tally := rfl
@[simp] theorem onInteg_snap (d : DieId) (f : Integ → Integ) : (onInteg d f s).snap = s.snap := rfl
@[simp] theorem onInteg_rem (d : DieId) (f : Integ → Integ) : (onInteg d f s).rem = s.rem := rfl
@[simp] theorem onInteg_mem (d : DieId) (f : Integ → Integ) : (onInteg d f s).mem = s.mem := rfl
@[simp] theorem onInteg_hostMem (d : DieId) (f : Integ → Integ) : (onInteg d f s).hostMem = s.hostMem := rfl
@[simp] theorem onInteg_errs (d : DieId) (f : Integ → Integ) : (onInteg d f s).errs = s.errs := rfl
@[simp] theorem onInteg_ports (d : DieId) (f : Integ → Integ) : (onInteg d f s).ports = s.ports := rfl
@[simp] theorem onInteg_master (d : DieId) (f : Integ → Integ) : (onInteg d f s).master = s.master := rfl
@[simp] theorem onInteg_done (d : DieId) (f : Integ → Integ) : (onInteg d f s).done = s.done := rfl
@[simp] theorem onInteg_stw (d : DieId) (f : Integ → Integ) : (onInteg d f s).stw = s.stw := rfl
@[simp] theorem onInteg_queues (d : DieId) (f : Integ → Integ) : (onInteg d f s).queues = s.queues := rfl
@[simp] theorem onInteg_out (d : DieId) (f : Integ → Integ) : (onInteg d f s).out = s.out := rfl
@[simp] theorem onInteg_fresh (d : DieId) (f : Integ → Integ) : (onInteg d f s).fresh = s.fresh := rfl

/-! ### onJrnl -/
@[simp] theorem onJrnl_pending (d : DieId) (f : Jrnl → Jrnl) : (onJrnl d f s).pending = s.pending := rfl
@[simp] theorem onJrnl_time (d : DieId) (f : Jrnl → Jrnl) : (onJrnl d f s).time = s.time := rfl
@[simp] theorem onJrnl_regs (d : DieId) (f : Jrnl → Jrnl) : (onJrnl d f s).regs = s.regs := rfl
@[simp] theorem onJrnl_sel (d : DieId) (f : Jrnl → Jrnl) : (onJrnl d f s).sel = s.sel := rfl
@[simp] theorem onJrnl_hiLatch (d : DieId) (f : Jrnl → Jrnl) : (onJrnl d f s).hiLatch = s.hiLatch := rfl
@[simp] theorem onJrnl_loShadow (d : DieId) (f : Jrnl → Jrnl) : (onJrnl d f s).loShadow = s.loShadow := rfl
@[simp] theorem onJrnl_tally (d : DieId) (f : Jrnl → Jrnl) : (onJrnl d f s).tally = s.tally := rfl
@[simp] theorem onJrnl_snap (d : DieId) (f : Jrnl → Jrnl) : (onJrnl d f s).snap = s.snap := rfl
@[simp] theorem onJrnl_rem (d : DieId) (f : Jrnl → Jrnl) : (onJrnl d f s).rem = s.rem := rfl
@[simp] theorem onJrnl_mem (d : DieId) (f : Jrnl → Jrnl) : (onJrnl d f s).mem = s.mem := rfl
@[simp] theorem onJrnl_hostMem (d : DieId) (f : Jrnl → Jrnl) : (onJrnl d f s).hostMem = s.hostMem := rfl
@[simp] theorem onJrnl_errs (d : DieId) (f : Jrnl → Jrnl) : (onJrnl d f s).errs = s.errs := rfl
@[simp] theorem onJrnl_ports (d : DieId) (f : Jrnl → Jrnl) : (onJrnl d f s).ports = s.ports := rfl
@[simp] theorem onJrnl_master (d : DieId) (f : Jrnl → Jrnl) : (onJrnl d f s).master = s.master := rfl
@[simp] theorem onJrnl_done (d : DieId) (f : Jrnl → Jrnl) : (onJrnl d f s).done = s.done := rfl
@[simp] theorem onJrnl_stw (d : DieId) (f : Jrnl → Jrnl) : (onJrnl d f s).stw = s.stw := rfl
@[simp] theorem onJrnl_queues (d : DieId) (f : Jrnl → Jrnl) : (onJrnl d f s).queues = s.queues := rfl
@[simp] theorem onJrnl_out (d : DieId) (f : Jrnl → Jrnl) : (onJrnl d f s).out = s.out := rfl
@[simp] theorem onJrnl_fresh (d : DieId) (f : Jrnl → Jrnl) : (onJrnl d f s).fresh = s.fresh := rfl

/-! ### onSlot -/
@[simp] theorem onSlot_pending (d : DieId) (k : Nat) (f : Slot → Slot) : (onSlot d k f s).pending = s.pending := by unfold onSlot; split <;> rfl
@[simp] theorem onSlot_time (d : DieId) (k : Nat) (f : Slot → Slot) : (onSlot d k f s).time = s.time := by unfold onSlot; split <;> rfl
@[simp] theorem onSlot_regs (d : DieId) (k : Nat) (f : Slot → Slot) : (onSlot d k f s).regs = s.regs := by unfold onSlot; split <;> rfl
@[simp] theorem onSlot_sel (d : DieId) (k : Nat) (f : Slot → Slot) : (onSlot d k f s).sel = s.sel := by unfold onSlot; split <;> rfl
@[simp] theorem onSlot_hiLatch (d : DieId) (k : Nat) (f : Slot → Slot) : (onSlot d k f s).hiLatch = s.hiLatch := by unfold onSlot; split <;> rfl
@[simp] theorem onSlot_loShadow (d : DieId) (k : Nat) (f : Slot → Slot) : (onSlot d k f s).loShadow = s.loShadow := by unfold onSlot; split <;> rfl
@[simp] theorem onSlot_tally (d : DieId) (k : Nat) (f : Slot → Slot) : (onSlot d k f s).tally = s.tally := by unfold onSlot; split <;> rfl
@[simp] theorem onSlot_snap (d : DieId) (k : Nat) (f : Slot → Slot) : (onSlot d k f s).snap = s.snap := by unfold onSlot; split <;> rfl
@[simp] theorem onSlot_rem (d : DieId) (k : Nat) (f : Slot → Slot) : (onSlot d k f s).rem = s.rem := by unfold onSlot; split <;> rfl
@[simp] theorem onSlot_mem (d : DieId) (k : Nat) (f : Slot → Slot) : (onSlot d k f s).mem = s.mem := by unfold onSlot; split <;> rfl
@[simp] theorem onSlot_hostMem (d : DieId) (k : Nat) (f : Slot → Slot) : (onSlot d k f s).hostMem = s.hostMem := by unfold onSlot; split <;> rfl
@[simp] theorem onSlot_errs (d : DieId) (k : Nat) (f : Slot → Slot) : (onSlot d k f s).errs = s.errs := by unfold onSlot; split <;> rfl
@[simp] theorem onSlot_ports (d : DieId) (k : Nat) (f : Slot → Slot) : (onSlot d k f s).ports = s.ports := by unfold onSlot; split <;> rfl
@[simp] theorem onSlot_master (d : DieId) (k : Nat) (f : Slot → Slot) : (onSlot d k f s).master = s.master := by unfold onSlot; split <;> rfl
@[simp] theorem onSlot_done (d : DieId) (k : Nat) (f : Slot → Slot) : (onSlot d k f s).done = s.done := by unfold onSlot; split <;> rfl
@[simp] theorem onSlot_stw (d : DieId) (k : Nat) (f : Slot → Slot) : (onSlot d k f s).stw = s.stw := by unfold onSlot; split <;> rfl
@[simp] theorem onSlot_queues (d : DieId) (k : Nat) (f : Slot → Slot) : (onSlot d k f s).queues = s.queues := by unfold onSlot; split <;> rfl
@[simp] theorem onSlot_out (d : DieId) (k : Nat) (f : Slot → Slot) : (onSlot d k f s).out = s.out := by unfold onSlot; split <;> rfl
@[simp] theorem onSlot_fresh (d : DieId) (k : Nat) (f : Slot → Slot) : (onSlot d k f s).fresh = s.fresh := by unfold onSlot; split <;> rfl

end Sys2Proof.Machine
end

