-- ==== Sys2Proof/Laws/Ops.lean ====
section
/-!
SUPPORT. Laws/Ops.lean: what a register reads after an update, and all that counting a tally and raising an event may change.
-/
namespace Sys2Proof.Machine

/-! ### Registers -/

theorem rd_wr (s : State) (a b : Nat) (v : W) : rd (wr a v s) b = if b = a then v else rd s b := sget_sset regReset s.regs a b v

@[simp] theorem rd_wr_same (s : State) (a : Nat) (v : W) : rd (wr a v s) a = v := by simp [rd_wr]

theorem rd_wr_other (s : State) {a b : Nat} (v : W) (h : b ≠ a) : rd (wr a v s) b = rd s b := by simp [rd_wr, h]

theorem rd_sf_other (s : State) {p b : Nat} {f : Fld} (n : Nat) (h : b ≠ p + f.off) : rd (sf p f n s) b = rd s b :=
  rd_wr_other s _ h

theorem rd_wr64_other (s : State) {a b : Nat} (v : Nat) (h : b ≠ a) (h' : b ≠ a + 4) : rd (wr64 a v s) b = rd s b := by
  unfold wr64
  rw [rd_wr_other _ _ h', rd_wr_other _ _ h]

/-- Registers that read alike give the same field. -/
theorem gf_congr {s u : State} {p : Nat} {f : Fld} (h : rd u (p + f.off) = rd s (p + f.off)) : gf u p f = gf s p f := by
  unfold gf; rw [h]

theorem rd_of_regs {s u : State} (h : u.regs = s.regs) (a : Nat) : rd u a = rd s a := by unfold rd; rw [h]

theorem gf_of_regs {s u : State} (h : u.regs = s.regs) (p : Nat) (f : Fld) : gf u p f = gf s p f := gf_congr (rd_of_regs h _)

theorem gf_wr_other (s : State) {a p : Nat} {f : Fld} (v : W) (h : p + f.off ≠ a) : gf (wr a v s) p f = gf s p f :=
  gf_congr (rd_wr_other s v h)

theorem gf_sf_off (s : State) {p q : Nat} {f g : Fld} (n : Nat) (h : q + g.off ≠ p + f.off) :
    gf (sf p f n s) q g = gf s q g := gf_congr (rd_wr_other s _ h)

/-- A field that lies in its register. -/
def Fld.fits (f : Fld) : Bool := decide (f.lo + f.width ≤ 32)

theorem setFld_toNat (v : W) (f : Fld) (n : Nat) (h : f.fits = true) :
    (setFld v f n).toNat = v.toNat - fld v f * 2 ^ f.lo + n % 2 ^ f.width * 2 ^ f.lo := by
  simp only [Fld.fits, decide_eq_true_eq] at h
  have hv := v.isLt
  have hn : n % 2 ^ f.width < 2 ^ f.width := Nat.mod_lt _ (Nat.two_pow_pos _)
  have e1 : v.toNat = v.toNat % 2 ^ f.lo + 2 ^ f.lo * (fld v f) + 2 ^ f.lo * 2 ^ f.width * (v.toNat / 2 ^ f.lo / 2 ^ f.width) := by
    unfold fld
    have h1 := Nat.mod_add_div v.toNat (2 ^ f.lo)
    have h2 := Nat.mod_add_div (v.toNat / 2 ^ f.lo) (2 ^ f.width)
    calc v.toNat = v.toNat % 2 ^ f.lo + 2 ^ f.lo * (v.toNat / 2 ^ f.lo) := h1.symm
      _ = _ := by
        conv => lhs; rw [← h2]
        rw [Nat.mul_add, Nat.mul_assoc, Nat.add_assoc]
  have hlow : v.toNat % 2 ^ f.lo < 2 ^ f.lo := Nat.mod_lt _ (Nat.two_pow_pos _)
  have hhi : v.toNat / 2 ^ f.lo / 2 ^ f.width < 2 ^ (32 - f.lo - f.width) := by
    rw [Nat.div_div_eq_div_mul, ← Nat.pow_add, Nat.div_lt_iff_lt_mul (Nat.two_pow_pos _), ← Nat.pow_add]
    have : 32 - f.lo - f.width + (f.lo + f.width) = 32 := by omega
    rw [this]; exact hv
  have p1 : (2 : Nat) ^ f.lo * 2 ^ f.width * 2 ^ (32 - f.lo - f.width) = 2 ^ 32 := by
    rw [← Nat.pow_add, ← Nat.pow_add]; congr 1; omega
  unfold setFld
  rw [BitVec.toNat_ofNat]
  apply Nat.mod_eq_of_lt
  generalize hA : (2 : Nat) ^ f.lo = A at *
  generalize hB : (2 : Nat) ^ f.width = B at *
  generalize hC : (2 : Nat) ^ (32 - f.lo - f.width) = C at *
  generalize hm : n % B = m at *
  generalize hL : v.toNat % A = L at *
  generalize hH : v.toNat / A / B = H at *
  have e2 : v.toNat - fld v f * A + m * A = L + A * m + A * B * H := by
    have : fld v f * A = A * fld v f := Nat.mul_comm _ _
    have : m * A = A * m := Nat.mul_comm _ _
    omega
  rw [e2]
  have e3 : A * B * H + A * B ≤ A * B * C := by
    have : A * B * (H + 1) ≤ A * B * C := Nat.mul_le_mul_left _ hhi
    rwa [Nat.mul_add, Nat.mul_one] at this
  have e4 : A * m + A ≤ A * B := by
    have : A * (m + 1) ≤ A * B := Nat.mul_le_mul_left _ hn
    rwa [Nat.mul_add, Nat.mul_one] at this
  rw [p1] at e3
  omega

/-- A field reads what was set in it. -/
theorem fld_setFld_same (v : W) (f : Fld) (n : Nat) (h : f.fits = true) : fld (setFld v f n) f = n % 2 ^ f.width := by
  have e := setFld_toNat v f n h
  have hn : n % 2 ^ f.width < 2 ^ f.width := Nat.mod_lt _ (Nat.two_pow_pos _)
  unfold fld at e ⊢
  rw [e]
  have h1 := Nat.mod_add_div v.toNat (2 ^ f.lo)
  have h2 := Nat.mod_add_div (v.toNat / 2 ^ f.lo) (2 ^ f.width)
  have hlow : v.toNat % 2 ^ f.lo < 2 ^ f.lo := Nat.mod_lt _ (Nat.two_pow_pos _)
  generalize (2 : Nat) ^ f.lo = A at *
  generalize (2 : Nat) ^ f.width = B at *
  generalize hL : v.toNat % A = L at *
  generalize hH : v.toNat / A / B = H at *
  generalize hF : v.toNat / A % B = F at *
  have hF' : v.toNat = L + A * F + A * (B * H) := by
    rw [← h1, ← h2, Nat.mul_add, Nat.add_assoc]
  have e2 : v.toNat - F * A + n % B * A = L + A * (n % B + B * H) := by
    have : F * A = A * F := Nat.mul_comm _ _
    have : n % B * A = A * (n % B) := Nat.mul_comm _ _
    rw [Nat.mul_add]
    omega
  rw [e2, Nat.add_mul_div_left _ _ (by omega), Nat.div_eq_of_lt hlow, Nat.zero_add, Nat.add_mul_mod_self_left,
    Nat.mod_mod]

/-- A field reads what was set in it. -/
theorem gf_sf_same (s : State) (p : Nat) (f : Fld) (n : Nat) (h : f.fits = true) : gf (sf p f n s) p f = n % 2 ^ f.width := by
  unfold gf sf
  rw [rd_wr_same]
  exact fld_setFld_same _ _ _ h

/-- Two fields of a register that share no bit. -/
def Fld.apart (f g : Fld) : Bool := decide (f.lo + f.width ≤ g.lo) || decide (g.lo + g.width ≤ f.lo)

/-- Setting a field leaves another field of the register as it was. -/
theorem fld_setFld_apart (v : W) (f g : Fld) (n : Nat) (h : f.fits = true) (hg : f.apart g = true) :
    fld (setFld v f n) g = fld v g := by
  have e := setFld_toNat v f n h
  have hn : n % 2 ^ f.width < 2 ^ f.width := Nat.mod_lt _ (Nat.two_pow_pos _)
  have h1 := Nat.mod_add_div v.toNat (2 ^ f.lo)
  have h2 := Nat.mod_add_div (v.toNat / 2 ^ f.lo) (2 ^ f.width)
  have hlow : v.toNat % 2 ^ f.lo < 2 ^ f.lo := Nat.mod_lt _ (Nat.two_pow_pos _)
  have hF : v.toNat / 2 ^ f.lo % 2 ^ f.width < 2 ^ f.width := Nat.mod_lt _ (Nat.two_pow_pos _)
  have key : ∀ m, m < 2 ^ f.width →
      (v.toNat % 2 ^ f.lo + 2 ^ f.lo * (m + 2 ^ f.width * (v.toNat / 2 ^ f.lo / 2 ^ f.width))) / 2 ^ g.lo % 2 ^ g.width =
        (v.toNat % 2 ^ f.lo + 2 ^ f.lo * (2 ^ f.width * (v.toNat / 2 ^ f.lo / 2 ^ f.width))) / 2 ^ g.lo % 2 ^ g.width := by
    intro m hm
    simp only [Fld.apart, Bool.or_eq_true, decide_eq_true_eq] at hg
    generalize v.toNat / 2 ^ f.lo / 2 ^ f.width = H
    generalize hL : v.toNat % 2 ^ f.lo = L at *
    rcases hg with hg | hg
    · -- g lies above f
      have hs : (2 : Nat) ^ g.lo = 2 ^ f.lo * (2 ^ f.width * 2 ^ (g.lo - f.lo - f.width)) := by
        rw [← Nat.pow_add, ← Nat.pow_add]; congr 1; omega
      rw [hs, ← Nat.div_div_eq_div_mul, ← Nat.div_div_eq_div_mul, ← Nat.div_div_eq_div_mul, ← Nat.div_div_eq_div_mul,
        Nat.add_mul_div_left _ _ (Nat.two_pow_pos _), Nat.add_mul_div_left _ _ (Nat.two_pow_pos _), Nat.div_eq_of_lt hlow,
        Nat.zero_add, Nat.zero_add, Nat.add_mul_div_left _ _ (Nat.two_pow_pos _), Nat.div_eq_of_lt hm, Nat.zero_add,
        Nat.mul_div_cancel_left _ (Nat.two_pow_pos _)]
    · -- g lies below f
      have hs : (2 : Nat) ^ f.lo = 2 ^ g.lo * (2 ^ g.width * 2 ^ (f.lo - g.lo - g.width)) := by
        rw [← Nat.pow_add, ← Nat.pow_add]; congr 1; omega
      rw [hs]
      simp only [Nat.mul_assoc, Nat.add_mul_div_left _ _ (Nat.two_pow_pos _), Nat.add_mul_mod_self_left]
  have a1 := key (n % 2 ^ f.width) hn
  have a2 := key (v.toNat / 2 ^ f.lo % 2 ^ f.width) hF
  have e2 : (setFld v f n).toNat =
      v.toNat % 2 ^ f.lo + 2 ^ f.lo * (n % 2 ^ f.width + 2 ^ f.width * (v.toNat / 2 ^ f.lo / 2 ^ f.width)) := by
    rw [e]
    have hv : v.toNat = v.toNat % 2 ^ f.lo + 2 ^ f.lo * fld v f + 2 ^ f.lo * (2 ^ f.width * (v.toNat / 2 ^ f.lo / 2 ^ f.width)) := by
      unfold fld
      rw [Nat.add_assoc, ← Nat.mul_add, h2, h1]
    have c1 : fld v f * 2 ^ f.lo = 2 ^ f.lo * fld v f := Nat.mul_comm _ _
    have c2 : n % 2 ^ f.width * 2 ^ f.lo = 2 ^ f.lo * (n % 2 ^ f.width) := Nat.mul_comm _ _
    rw [Nat.mul_add, c1, c2]
    omega
  unfold fld
  rw [e2, a1, ← a2, h2, h1]

theorem gf_sf_apart (s : State) (p : Nat) (f g : Fld) (n : Nat) (h : f.fits = true) (hg : f.apart g = true) :
    gf (sf p f n s) p g = gf s p g := by
  unfold gf sf
  rw [rd_wr]
  split
  · rename_i e
    have : f.off = g.off := by omega
    rw [fld_setFld_apart _ _ _ _ h hg, this]
  · rfl

/-! ### Counting and raising -/

theorem booked_refl (ps : List Nat) (s : State) : Booked ps s s := ⟨rfl, fun _ _ => rfl, fun _ _ => ⟨rfl, rfl⟩, fun _ => ⟨rfl, rfl, rfl⟩⟩

/-- Page bases. -/
def pagesOk (ps : List Nat) : Bool := ps.all fun p => p % 0x1000 == 0

theorem booked_ctrl {ps : List Nat} {s u : State} (hb : pagesOk ps = true) (h : Booked ps s u) :
    gf u (pgQ 2) Q_CTRL_EN = gf s (pgQ 2) Q_CTRL_EN := by
  apply gf_congr
  apply h.2.1
  simp only [bookReg, Bool.or_eq_false_iff, List.any_eq_false, beq_iff_eq, beq_eq_false_iff_ne]
  refine ⟨⟨⟨by decide, by decide⟩, by decide⟩, ?_⟩
  intro p hp e
  simp only [pagesOk, List.all_eq_true, beq_iff_eq] at hb
  have hm := hb p hp
  have : pgQ 2 + Q_CTRL_EN.off = p + EVT_STAT_V.off := e
  have e1 : pgQ 2 + Q_CTRL_EN.off = 0x4022104 := by decide
  have e2 : EVT_STAT_V.off = 0x18 := rfl
  omega

theorem booked_trans {ps : List Nat} (hb : pagesOk ps = true) {s u w : State} (h : Booked ps s u) (k : Booked ps u w) :
    Booked ps s w := by
  refine ⟨?_, fun a ha => (k.2.1 a ha).trans (h.2.1 a ha), fun a ha => ?_, fun he => ?_⟩
  · have e := k.1
    rw [h.1] at e
    exact e
  · exact ⟨(k.2.2.1 a ha).1.trans (h.2.2.1 a ha).1, (k.2.2.1 a ha).2.trans (h.2.2.1 a ha).2⟩
  · have h4 := h.2.2.2 he
    have k4 := k.2.2.2 ((booked_ctrl hb h).trans he)
    exact ⟨k4.1.trans h4.1, k4.2.1.trans h4.2.1, k4.2.2.trans h4.2.2⟩

theorem booked_mono {ps qs : List Nat} (hs : ∀ p ∈ ps, p ∈ pgQ 2 :: qs) {s u : State} (h : Booked ps s u) : Booked qs s u := by
  refine ⟨h.1, fun a ha => h.2.1 a ?_, fun a ha => h.2.2.1 a ?_, h.2.2.2⟩
  · simp only [bookReg, Bool.or_eq_false_iff, List.any_eq_false, beq_iff_eq, beq_eq_false_iff_ne] at ha ⊢
    refine ⟨ha.1, fun p hp e => ?_⟩
    have hm := hs p hp
    simp only [List.mem_cons] at hm
    rcases hm with hm | hm
    · subst hm; exact ha.1.2 e
    · exact ha.2 p hm e
  · intro p hp
    simp only [List.mem_cons] at hp
    rcases hp with hp | hp
    · exact ha p (by simp [hp])
    · exact ha p (hs p hp)

/-- What counting and raising leave as it was. -/
theorem Booked.same {ps : List Nat} {s u : State} (h : Booked ps s u) :
    u.pending = s.pending ∧ u.time = s.time ∧ u.sel = s.sel ∧ u.hiLatch = s.hiLatch ∧ u.loShadow = s.loShadow ∧ u.snap = s.snap ∧
      u.mem = s.mem ∧ u.errs = s.errs ∧ u.dies = s.dies ∧ u.ports = s.ports ∧ u.master = s.master ∧ u.done = s.done ∧
      u.stw = s.stw ∧ u.fresh = s.fresh := by
  have e := h.1
  generalize u.regs = a1 at e
  generalize u.tally = a2 at e
  generalize u.rem = a3 at e
  generalize u.hostMem = a4 at e
  generalize u.queues = a5 at e
  generalize u.out = a6 at e
  subst e
  exact ⟨rfl, rfl, rfl, rfl, rfl, rfl, rfl, rfl, rfl, rfl, rfl, rfl, rfl, rfl⟩

theorem Booked.dies {ps : List Nat} {s u : State} (h : Booked ps s u) : u.dies = s.dies := h.same.2.2.2.2.2.2.2.2.1
theorem Booked.stw {ps : List Nat} {s u : State} (h : Booked ps s u) : u.stw = s.stw := h.same.2.2.2.2.2.2.2.2.2.2.2.2.1
theorem Booked.mem {ps : List Nat} {s u : State} (h : Booked ps s u) : u.mem = s.mem := h.same.2.2.2.2.2.2.1

/-- A register outside the booked ones reads as before. -/
theorem Booked.rd {ps : List Nat} {s u : State} (h : Booked ps s u) {a : Nat} (ha : bookReg ps a = false) : rd u a = rd s a :=
  h.2.1 a ha
theorem Booked.gf {ps : List Nat} {s u : State} (h : Booked ps s u) {p : Nat} {f : Fld} (ha : bookReg ps (p + f.off) = false) :
    gf u p f = gf s p f := gf_congr (h.2.1 _ ha)

/-- A change of the dies goes through counting. -/
theorem booked_onDie {ps : List Nat} {s u : State} (h : Booked ps s u) (d : DieId) (f : Die → Die) :
    Booked ps (onDie d f s) (onDie d f u) := by
  have hd := h.dies
  refine ⟨?_, h.2.1, h.2.2.1, h.2.2.2⟩
  have e := h.1
  generalize hA : u.regs = a1 at e
  generalize hB : u.tally = a2 at e
  generalize hC : u.rem = a3 at e
  generalize hD : u.hostMem = a4 at e
  generalize hE : u.queues = a5 at e
  generalize hF : u.out = a6 at e
  subst e
  rfl

theorem booked_evtRaw (p b : Nat) {ps : List Nat} (hp : p ∈ pgQ 2 :: ps) (s : State) : Booked ps s (evtRaw p b s) := by
  refine ⟨rfl, fun a ha => ?_, fun _ _ => ⟨rfl, rfl⟩, fun _ => ⟨rfl, rfl, rfl⟩⟩
  apply rd_wr_other
  intro e
  simp only [bookReg, Bool.or_eq_false_iff, List.any_eq_false, beq_iff_eq, beq_eq_false_iff_ne] at ha
  simp only [List.mem_cons] at hp
  rcases hp with hp | hp
  · subst hp; exact ha.1.2 e
  · exact ha.2 p hp e

theorem booked_tallyPut (p i n : Nat) {ps : List Nat} (hp : p ∈ pgQ 2 :: ps) (hi : i < 256) (s : State) :
    Booked ps s (tallyPut p i n s).1 := by
  unfold tallyPut
  dsimp only
  split <;>
  · refine ⟨rfl, fun _ _ => rfl, fun k hk => ⟨?_, rfl⟩, fun _ => ⟨rfl, rfl, rfl⟩⟩
    have := hk p hp
    have hk' : k ≠ p + i := by omega
    dsimp only
    rw [sget_sset, if_neg hk']

/-- A host-memory change, a drop count or an output of an enabled event queue. -/
theorem booked_of_host {s u : State} (ps : List Nat) (he : gf s (pgQ 2) Q_CTRL_EN ≠ 0)
    (h1 : u = { s with regs := u.regs, tally := u.tally, rem := u.rem, hostMem := u.hostMem, queues := u.queues, out := u.out })
    (h2 : ∀ a, bookReg ps a = false → rd u a = rd s a)
    (h3 : u.tally = s.tally) (h4 : u.rem = s.rem) : Booked ps s u :=
  ⟨h1, h2, fun _ _ => by rw [h3, h4]; exact ⟨rfl, rfl⟩, fun h => absurd h he⟩

theorem booked_onQueue (f : QueueSt → QueueSt) (ps : List Nat) {s : State} (he : gf s (pgQ 2) Q_CTRL_EN ≠ 0) :
    Booked ps s (onQueue 2 f s) := booked_of_host ps he rfl (fun _ _ => rfl) rfl rfl

theorem booked_ringPut (bs : List Byte) (ps : List Nat) {s : State} (he : gf s (pgQ 2) Q_CTRL_EN ≠ 0) :
    Booked ps s (ringPut 2 bs s) := by
  have key : ∀ (a : Nat) (v : Nat) (s : State), bookReg ps a = false → rd (wr64 (pgQ 2 + Q_PROD_LO_V.off) v s) a = rd s a := by
    intro a v s ha
    simp only [bookReg, Bool.or_eq_false_iff, beq_eq_false_iff_ne] at ha
    exact rd_wr64_other s v ha.1.1.1 ha.1.1.2
  unfold ringPut
  dsimp only
  split
  · exact booked_of_host ps he rfl (fun a ha => (key a _ _ ha).trans rfl) rfl rfl
  · exact booked_of_host ps he rfl (fun a ha => (key a _ _ ha).trans rfl) rfl rfl

theorem booked_qIrq (ps : List Nat) {s : State} (he : gf s (pgQ 2) Q_CTRL_EN ≠ 0) : Booked ps s (qIrq 2 s) := by
  unfold qIrq
  split
  · exact booked_of_host ps he rfl (fun _ _ => rfl) rfl rfl
  · exact booked_refl _ _

/-- An item placed in the event queue under R420. -/
theorem booked_qPush2 {ps : List Nat} (hb : pagesOk ps = true) (ev tl : Nat → State → State) (hev : ∀ s, Booked ps s (ev 0 s))
    (htl : ∀ i s, i < 256 → Booked ps s (tl i s)) (x : List Byte) (s : State) : Booked ps s (qPushWith ev tl 2 x s).1 := by
  unfold qPushWith
  split
  · exact booked_refl _ _
  · rename_i he
    have h1 : ∀ {u : State}, Booked ps s u → gf u (pgQ 2) Q_CTRL_EN ≠ 0 := fun h => by rw [booked_ctrl hb h]; exact he
    extract_lets s1
    have hs1 : Booked ps s s1 := by
      dsimp only [s1]
      split
      · have h2 := booked_ringPut (entry 0xFF 0 0 (min (qDrops s 2) (2 ^ 32 - 1)) (timeStamp s 4)) ps he
        have h3 := booked_trans hb h2 (booked_onQueue (fun k => { k with drops := 0 }) ps (h1 h2))
        have h4 := booked_trans hb h3 (htl 0 _ (by decide))
        exact booked_trans hb (booked_trans hb h4 (htl 2 _ (by decide))) (hev _)
      · exact booked_refl _ _
    clear_value s1
    split
    · have h2 := booked_trans hb hs1 (booked_ringPut x ps (h1 hs1))
      have h3 := booked_trans hb h2 (htl 0 _ (by decide))
      exact booked_trans hb h3 (booked_qIrq ps (h1 h3))
    · have h2 := booked_trans hb hs1 (booked_onQueue (fun k => { k with drops := min (k.drops + 1) (2 ^ 32 - 1) }) ps (h1 hs1))
      exact booked_trans hb h2 (htl 1 _ (by decide))

/-- An entry of the event queue. -/
theorem booked_postEntry (x : List Byte) (s : State) {ps : List Nat} (hb : pagesOk ps = true) : Booked ps s (postEntry x s) := by
  refine booked_qPush2 hb _ _ (fun s => booked_evtRaw _ _ (by simp) _) (fun i s hi => ?_) x s
  split
  · exact booked_refl _ _
  · have h := booked_tallyPut (ps := ps) (pgQ 2) i 1 (by simp) hi s
    split
    · rename_i s' e
      rw [e] at h
      exact booked_trans hb h (booked_evtRaw _ _ (by simp) _)
    · rename_i s' e
      rw [e] at h
      exact h

/-- All that raising an event may change (R47). -/
theorem booked_raiseAs (forced : Bool) (p b : Nat) {ps : List Nat} (hp : p ∈ pgQ 2 :: ps) (hb : pagesOk ps = true) (s : State) :
    Booked ps s (raiseAs forced p b s) := by
  unfold raiseAs
  split
  · exact booked_refl _ _
  · dsimp only
    split
    · exact booked_trans hb (booked_evtRaw p b hp s) (booked_postEntry _ _ hb)
    · exact booked_evtRaw p b hp s

theorem booked_raise (p b : Nat) {ps : List Nat} (hp : p ∈ pgQ 2 :: ps) (hb : pagesOk ps = true) (s : State) :
    Booked ps s (raise p b s) := booked_raiseAs false p b hp hb s

/-- All that counting a tally may change (R53, R54). -/
theorem booked_tallyAdd (p i n : Nat) {ps : List Nat} (hp : p ∈ pgQ 2 :: ps) (hb : pagesOk ps = true) (hi : i < 256) (s : State) :
    Booked ps s (tallyAdd p i n s) := by
  unfold tallyAdd
  split
  · exact booked_refl _ _
  · have h := booked_tallyPut (ps := ps) p i n hp hi s
    split
    · rename_i s' e
      rw [e] at h
      exact booked_trans hb h (booked_raise p 31 hp hb _)
    · rename_i s' e
      rw [e] at h
      exact h

/-- All that counting a quantity may change (R173). -/
theorem booked_tallyQty (p i unit n : Nat) {ps : List Nat} (hp : p ∈ pgQ 2 :: ps) (hb : pagesOk ps = true) (hi : i < 256)
    (s : State) : Booked ps s (tallyQty p i unit n s) := by
  unfold tallyQty
  split
  · exact booked_refl _ _
  · dsimp only
    have h : Booked ps s { s with rem := sset zn s.rem (p + i) ((sget zn s.rem (p + i) + n) % unit) } := by
      refine ⟨rfl, fun _ _ => rfl, fun k hk => ⟨rfl, ?_⟩, fun _ => ⟨rfl, rfl, rfl⟩⟩
      have := hk p hp
      exact sget_sset_other zn s.rem _ (by omega)
    exact booked_trans hb h (booked_tallyAdd p i _ hp hb hi _)

/-- An event that is raised reads 1 in EVT_STAT afterwards (R47). -/
theorem rd_evtRaw (p b : Nat) (s : State) : rd (evtRaw p b s) (p + EVT_STAT_V.off) =
    rd s (p + EVT_STAT_V.off) ||| BitVec.ofNat 32 (2 ^ b) := rd_wr_same _ _ _

end Sys2Proof.Machine
end

