-- ==== Sys2Proof/Laws/Vector.lean ====
section
/-!
SUPPORT. Laws/Vector.lean: lanes and mask bits after an update of a vector engine, and what executing an instruction of it does.
-/
namespace Sys2Proof.Machine

/-! ### Lists read from a map -/

theorem getD_sgetList {α : Type} (z : Nat → α) (m : SMap α) (k n j : Nat) (e : α) (h : j < n) :
    (sgetList z m k n).getD j e = sget z m (k + j) := by
  induction n generalizing k j with
  | zero => omega
  | succ n ih =>
    cases j with
    | zero => rfl
    | succ j =>
      have := ih (k + 1) j (by omega)
      simp only [sgetList, List.getD_cons_succ]
      rw [this]
      congr 1
      omega

/-- Reading a key after a run of keys is set. -/
theorem sget_ssetList_getD {α : Type} [DecidableEq α] (z : Nat → α) (m : SMap α) (k : Nat) (xs : List α) (j : Nat) (e : α) :
    sget z (ssetList z m k xs) j = if k ≤ j ∧ j < k + xs.length then xs.getD (j - k) e else sget z m j := by
  rw [sget_ssetList]
  by_cases h : k ≤ j ∧ j < k + xs.length
  · have h' : k ≤ j ∧ j - k < xs.length := by omega
    rw [dif_pos h', if_pos h, List.getD_eq_getElem?_getD, List.getElem?_eq_getElem h'.2]
    rfl
  · have h' : ¬ (k ≤ j ∧ j - k < xs.length) := by omega
    rw [dif_neg h', if_neg h]

/-! ### Lanes and mask bits -/

@[simp] theorem length_vget (k : Vx) (r : Nat) : (vget k r).length = 1024 := length_sgetList _ _ _ _
@[simp] theorem length_mget (k : Vx) (r : Nat) : (mget k r).length = 1024 := length_sgetList _ _ _ _

theorem getD_vget (k : Vx) (r j : Nat) (e : W) (h : j < 1024) : (vget k r).getD j e = vlane k r j := getD_sgetList _ _ _ _ _ _ h
theorem getD_mget (k : Vx) (r j : Nat) (e : Bool) (h : j < 1024) : (mget k r).getD j e = mbit k r j := getD_sgetList _ _ _ _ _ _ h

@[simp] theorem length_active (k : Vx) (w : VIn) : (active k w).length = 1024 := by
  unfold active
  split
  · exact length_mget _ _
  · exact List.length_replicate

theorem getD_active (k : Vx) (w : VIn) (j : Nat) (h : j < 1024) : (active k w).getD j false = activeAt k w j := by
  unfold active activeAt
  by_cases hm : w.me = true
  · rw [if_pos hm, getD_mget _ _ _ _ h]; simp [hm]
  · rw [if_neg hm, List.getD_eq_getElem?_getD, List.getElem?_replicate, if_pos h]; simp [hm]

/-- Every lane after one V register is set. -/
theorem vlane_vset (k : Vx) (r q j : Nat) (xs : List W) (hx : xs.length = 1024) (hj : j < 1024) :
    vlane (vset r xs k) q j = if q = r then xs.getD j 0 else vlane k q j := by
  unfold vlane vset
  rw [sget_ssetList_getD _ _ _ _ _ 0, hx]
  by_cases h : q = r
  · subst h
    rw [if_pos (by omega), if_pos rfl]
    congr 1
    omega
  · rw [if_neg (by omega), if_neg h]

/-- Every mask bit after one M register is set. -/
theorem mbit_mset (k : Vx) (r q j : Nat) (bs : List Bool) (hx : bs.length = 1024) (hj : j < 1024) :
    mbit (mset r bs k) q j = if q % 16 = r % 16 then bs.getD j false else mbit k q j := by
  unfold mbit mset
  rw [sget_ssetList_getD _ _ _ _ _ false, hx]
  by_cases h : q % 16 = r % 16
  · rw [if_pos (by omega), if_pos h]
    congr 1
    omega
  · rw [if_neg (by omega), if_neg h]

theorem getD_map {α β : Type} (f : α → β) (xs : List α) (j : Nat) (a : α) (b : β) (h : j < xs.length) :
    (xs.map f).getD j b = f (xs.getD j a) := by
  simp [List.getD_eq_getElem?_getD, h]

theorem getD_zip {α β : Type} (xs : List α) (ys : List β) (j : Nat) (a : α) (b : β) (hx : j < xs.length) (hy : j < ys.length) :
    (xs.zip ys).getD j (a, b) = (xs.getD j a, ys.getD j b) := by
  rw [List.getD_eq_getElem?_getD, List.getElem?_eq_getElem (by simp; omega)]
  simp [List.getD_eq_getElem?_getD, hx, hy]

@[simp] theorem length_maskLanes (w : VIn) (act : List Bool) (new old : List W) :
    (maskLanes w act new old).length = min act.length (min new.length old.length) := by
  simp [maskLanes]

/-- Every lane after the result lanes of an instruction are written under its mask (R179, R184). -/
theorem vlane_vput (k : Vx) (w : VIn) (xs : List W) (q j : Nat) (hx : xs.length = 1024) (hj : j < 1024) :
    vlane (vput w xs k) q j =
      if q = w.vd then (if activeAt k w j then xs.getD j 0 else if w.mz then 0 else vlane k w.vd j) else vlane k q j := by
  unfold vput
  rw [vlane_vset _ _ _ _ _ (by simp [hx]) hj]
  congr 1
  unfold maskLanes
  rw [getD_map _ _ _ (false, 0, 0) 0 (by simp [hx, hj]), getD_zip _ _ _ _ _ (by simp [hj]) (by simp [hx, hj]),
    getD_zip _ _ _ _ _ (by simp [hx, hj]) (by simp [hj]), getD_active _ _ _ hj, getD_vget _ _ _ _ hj]

/-- The three sources of a lane. -/
theorem getD_zip3 (f : W → W → W → W) (w : VIn) (k : Vx) (j : Nat) (hj : j < 1024) :
    (zip3 f w k).getD j 0 = f (vlane k w.va j) (vlane k w.vb j) (vlane k w.vc j) := by
  unfold zip3
  rw [getD_map _ _ _ (0, 0, 0) 0 (by simp [hj]), getD_zip _ _ _ _ _ (by simp [hj]) (by simp [hj]),
    getD_zip _ _ _ _ _ (by simp [hj]) (by simp [hj]), getD_vget _ _ _ _ hj, getD_vget _ _ _ _ hj, getD_vget _ _ _ _ hj]

@[simp] theorem length_zip3 (f : W → W → W → W) (w : VIn) (k : Vx) : (zip3 f w k).length = 1024 := by simp [zip3]

/-! ### Executing an instruction -/

theorem prog_onVx (d e : DieId) (x : Fin 2) (f : Vx → Vx) (s : State) : (onVx d x f s).dies[e].prog = s.dies[e].prog := by
  unfold onVx onDie
  simp only [Fin.getElem_fin, Vector.getElem_set]
  split
  · rename_i h; simp [h]
  · rfl

theorem vx_onVx_same (d : DieId) (x : Fin 2) (f : Vx → Vx) (s : State) : (onVx d x f s).dies[d].vx[x] = f s.dies[d].vx[x] := by
  simp [onVx, onDie]

theorem onVx_onVx (d : DieId) (x : Fin 2) (f g : Vx → Vx) (s : State) :
    onVx d x g (onVx d x f s) = onVx d x (fun k => g (f k)) s := by
  simp [onVx, onDie]

theorem onVx_const (d : DieId) (x : Fin 2) (f : Vx → Vx) (s : State) : onVx d x f s = onVx d x (fun _ => f s.dies[d].vx[x]) s := rfl

theorem pagesOk_vx (d : DieId) (x : Fin 2) : pagesOk [pgVXof d x.val] = true := by
  simp only [pagesOk, List.all_cons, List.all_nil, Bool.and_true, beq_iff_eq, pgVXof, pgVX]
  omega

/-- An instruction whose body answers that the next one follows, where there is a next one: the engine goes on, and nothing else
changes but the count of instructions. -/
theorem vxRun_next {s s1 : State} {d : DieId} {x : Fin 2} {op t pc : Nat} {w : VIn} {body : Nat → VIn → State → State × VGo}
    (h : vxAt s d x op t pc w) (hb : body t w s = (s1, .next)) (hp : s1.dies[d].prog.length = s.dies[d].prog.length) :
    Booked [pgVXof d x.val] (onVx d x (fun k => { k with pc := pc + 1 }) s1) (vxRun d x op body s) := by
  obtain ⟨-, -, hn, ho, hl, ht⟩ := h
  have hq := booked_tallyQty (pgVXof d x.val) 1 4096 1 (ps := [pgVXof d x.val]) (by simp) (pagesOk_vx d x) (by decide) s1
  unfold vxRun
  simp only [hn, ho, if_true, ht, ne_eq, not_true_eq_false, if_false, hb]
  unfold vxGoto
  rw [if_pos (by rw [hq.dies, hp]; exact hl)]
  exact booked_onDie hq d _

/-- The same for a jump to an index inside the program. -/
theorem vxRun_jump {s s1 : State} {d : DieId} {x : Fin 2} {op t pc q : Nat} {w : VIn} {body : Nat → VIn → State → State × VGo}
    (h : vxAt s d x op t pc w) (hb : body t w s = (s1, .jump q)) (hp : q < s1.dies[d].prog.length) :
    Booked [pgVXof d x.val] (onVx d x (fun k => { k with pc := q }) s1) (vxRun d x op body s) := by
  obtain ⟨-, -, hn, ho, hl, ht⟩ := h
  have hq := booked_tallyQty (pgVXof d x.val) 1 4096 1 (ps := [pgVXof d x.val]) (by simp) (pagesOk_vx d x) (by decide) s1
  unfold vxRun
  simp only [hn, ho, if_true, ht, ne_eq, not_true_eq_false, if_false, hb]
  unfold vxGoto
  rw [if_pos (by rw [hq.dies]; exact hp)]
  exact booked_onDie hq d _

/-- A step of the hardware of a die that is powered and clocked. -/
theorem dieStep_on {h : DieId} {f : State → State} {s : State} (h1 : s.stw.halt = .none) (h2 : dieUp s h = true) :
    dieStep h f s = f s := if_pos ⟨h1, h2⟩

/-- An instruction that only changes its engine. -/
theorem vxRun_body {s : State} {d : DieId} {x : Fin 2} {op t pc : Nat} {w : VIn} {f : VIn → Vx → Vx} (h : vxAt s d x op t pc w) :
    Booked [pgVXof d x.val] (onVx d x (fun k => { f w k with pc := pc + 1 }) s) (vxRun d x op (vxBody d x f) s) := by
  have e := vxRun_next (body := vxBody d x f) h rfl (by rw [prog_onVx])
  rwa [onVx_onVx] at e

/-- Result lanes written under the mask, as the statements say it. -/
theorem lanes_vput (k : Vx) (w : VIn) (xs : List W) (new : Nat → W) (hx : xs.length = 1024) (hn : ∀ j, j < 1024 → xs.getD j 0 = new j) :
    lanesBecome k (vput w xs k) w new := by
  refine ⟨rfl, fun r j hj => ?_⟩
  rw [vlane_vput _ _ _ _ _ hx hj, hn j hj]

/-- Mask bits written, as the statements say it. -/
theorem bits_mset (k : Vx) (w : VIn) (bs : List Bool) (new : Nat → Bool) (hx : bs.length = 1024)
    (hn : ∀ j, j < 1024 → bs.getD j false = new j) : bitsBecome k (mset w.vd bs k) w new := by
  refine ⟨rfl, fun r j hj => ?_⟩
  rw [mbit_mset _ _ _ _ _ hx hj, hn j hj]

/-- A command that is an instruction whose body only changes its engine. -/
theorem vxDoes_body {i : Instr} {s : State} {d : DieId} {x : Fin 2} {op t pc : Nat} {w : VIn} {f : VIn → Vx → Vx}
    (h : vxAt s d x op t pc w) (hi : exec i s = .next (dieStep d (vxRun d x op (vxBody d x f)) s)) :
    vxDoes i s d x (pc + 1) (f w s.dies[d].vx[x]) := by
  refine ⟨_, hi, ?_⟩
  rw [dieStep_on h.1 h.2.1]
  exact vxRun_body h

/-- A command that is an instruction whose body only computes lanes of VD. -/
theorem vxDoes_lane {i : Instr} {s : State} {d : DieId} {x : Fin 2} {op t pc : Nat} {w : VIn} {f : VIn → Vx → List W}
    (h : vxAt s d x op t pc w) (hi : exec i s = .next (dieStep d (vxRun d x op (laneBody d x f)) s)) :
    vxDoes i s d x (pc + 1) (vput w (f w s.dies[d].vx[x]) s.dies[d].vx[x]) :=
  vxDoes_body (f := fun w k => vput w (f w k) k) h hi

/-- A command that is an instruction whose body answers that the next one follows. -/
theorem vxDoes_next {i : Instr} {s : State} {d : DieId} {x : Fin 2} {op t pc : Nat} {w : VIn} {k : Vx}
    {body : Nat → VIn → State → State × VGo} (h : vxAt s d x op t pc w) (hi : exec i s = .next (dieStep d (vxRun d x op body) s))
    (hb : body t w s = (onVx d x (fun _ => k) s, .next)) : vxDoes i s d x (pc + 1) k := by
  refine ⟨_, hi, ?_⟩
  rw [dieStep_on h.1 h.2.1]
  have e := vxRun_next h hb (by rw [prog_onVx])
  rwa [onVx_onVx] at e

theorem getD_range {α : Type} (f : Nat → α) (n j : Nat) (e : α) (hj : j < n) : ((List.range n).map f).getD j e = f j := by
  simp [List.getD_eq_getElem?_getD, hj]

theorem getD_replicate {α : Type} (a : α) (n j : Nat) (e : α) (hj : j < n) : (List.replicate n a).getD j e = a := by
  rw [List.getD_eq_getElem?_getD, List.getElem?_replicate, if_pos hj]; rfl

/-- The active lanes below a lane, counted. -/
theorem take_filter (k : Vx) (w : VIn) (j : Nat) (hj : j < 1024) :
    (((active k w).take j).filter id).length = ((List.range j).filter (activeAt k w)).length := by
  induction j with
  | zero => rfl
  | succ j ih =>
    have e : (active k w)[j]? = some (activeAt k w j) := by
      have := getD_active k w j (by omega)
      rw [List.getD_eq_getElem?_getD] at this
      rw [List.getElem?_eq_getElem (by simp; omega)] at this ⊢
      simpa using this
    rw [List.take_add_one, e, List.range_succ, List.filter_append, List.filter_append, List.length_append, List.length_append, ih (by omega)]
    congr 1
    cases h : activeAt k w j <;> simp [h]

/-- Every address register after one is set. -/
theorem aget_aset (k : Vx) (q r : Nat) (v : W) (hr : r < 8) : aget (aset q v k) r = if r = q % 8 then v else aget k r := by
  have h8 : r % 8 = r := Nat.mod_eq_of_lt hr
  have hq : q % 8 < 8 := Nat.mod_lt _ (by decide)
  simp only [aget, aset, h8, List.getD_eq_getElem?_getD, Vector.getElem?_toList, Vector.getElem?_setIfInBounds]
  by_cases e : q % 8 = r
  · simp [e, hr]
  · simp [e, Ne.symm e, hr]

/-- The bits set in an M register, counted. -/
theorem filter_mget (k : Vx) (r : Nat) : ((mget k r).filter id).length = ((List.range 1024).filter (mbit k r)).length := by
  have e : mget k r = (List.range 1024).map (mbit k r) := by
    apply List.ext_getElem (by simp)
    intro j h1 h2
    have hj : j < 1024 := by simpa using h1
    have := getD_mget k r j false hj
    rw [List.getD_eq_getElem?_getD, List.getElem?_eq_getElem h1] at this
    simpa using this
  rw [e, List.filter_map, List.length_map]
  rfl

/-- The active lanes as a function of the lane. -/
theorem act_eq (k : Vx) (w : VIn) : active k w = (List.range 1024).map (activeAt k w) := by
  apply List.ext_getElem (by simp)
  intro j h1 h2
  have hj : j < 1024 := by simpa using h1
  have := getD_active k w j hj
  rw [List.getD_eq_getElem?_getD, List.getElem?_eq_getElem h1] at this
  simpa using this

/-- The lanes of a V register as a function of the lane. -/
theorem vget_eq (k : Vx) (r : Nat) : vget k r = (List.range 1024).map (vlane k r) := by
  apply List.ext_getElem (by simp)
  intro j h1 h2
  have hj : j < 1024 := by simpa using h1
  have := getD_vget k r j 0 hj
  rw [List.getD_eq_getElem?_getD, List.getElem?_eq_getElem h1] at this
  simpa using this

/-- A list formed of the active flags and the lanes. -/
theorem zip_act {α : Type} (k : Vx) (w : VIn) (r : Nat) (f : Bool × W → α) :
    ((active k w).zip (vget k r)).map f = (List.range 1024).map fun i => f (activeAt k w i, vlane k r i) := by
  rw [act_eq, vget_eq, List.zip_map', List.map_map]
  rfl

/-- A first element and then one value. -/
theorem getD_cons_rep (a b : W) (n j : Nat) (hj : j < n + 1) : (a :: List.replicate n b).getD j b = if j = 0 then a else b := by
  cases j with
  | zero => rfl
  | succ j =>
    rw [List.getD_cons_succ, if_neg (by omega)]
    exact getD_replicate _ _ _ _ (by omega)

/-- Active lanes are lanes. -/
theorem act_lt (k : Vx) (w : VIn) (j i : Nat) (h : (activeLanes (active k w))[j]? = some i) : i < 1024 := by
  have := List.mem_of_getElem? h
  simp only [activeLanes, List.mem_filter, List.mem_range] at this
  exact this.1

theorem vset_frame (r : Nat) (xs : List W) (k : Vx) : vset r xs k = { k with v := (vset r xs k).v } := rfl

theorem av_frame (q r : Nat) (v : W) (xs : List W) (k : Vx) : aset q v (vset r xs k) = { k with v := (aset q v (vset r xs k)).v, a := (aset q v (vset r xs k)).a } := rfl

theorem vlane_aset (q : Nat) (v : W) (k : Vx) (r j : Nat) : vlane (aset q v k) r j = vlane k r j := rfl

theorem aget_vset (q : Nat) (xs : List W) (k : Vx) (r : Nat) : aget (vset q xs k) r = aget k r := rfl

theorem aset_frame (k : Vx) (q : Nat) (v : W) : aset q v k = { k with a := (aset q v k).a } := rfl

/-- An engine set to itself. -/
theorem onVx_self (d : DieId) (x : Fin 2) (s : State) : onVx d x (fun _ => s.dies[d].vx[x]) s = s := by
  have e1 : s.dies[d].vx.set x s.dies[d].vx[x] = s.dies[d].vx := Vector.set_getElem_self _
  unfold onVx onDie
  dsimp only
  rw [e1]
  have e2 : s.dies.set d s.dies[d] = s.dies := Vector.set_getElem_self _
  show { s with dies := s.dies.set d s.dies[d] } = s
  rw [e2]

/-- A command that is an instruction whose body answers that the next one follows goes on over the state the body leaves. -/
theorem vx_goesOn {i : Instr} {s s1 : State} {d : DieId} {x : Fin 2} {op t pc : Nat} {w : VIn} 
    {body : Nat → VIn → State → State × VGo} (h : vxAt s d x op t pc w) (hi : exec i s = .next (dieStep d (vxRun d x op body) s))
    (hb : body t w s = (s1, .next)) (hp : pc + 1 < s1.dies[d].prog.length) :
    ∃ u, exec i s = .next u ∧ Booked [pgVXof d x.val] (onVx d x (fun k => { k with pc := pc + 1 }) s1) u := by
  refine ⟨_, hi, ?_⟩
  rw [dieStep_on h.1 h.2.1]
  obtain ⟨-, -, hn, ho, hl, ht⟩ := h
  have hq := booked_tallyQty (pgVXof d x.val) 1 4096 1 (ps := [pgVXof d x.val]) (by simp) (pagesOk_vx d x) (by decide) s1
  unfold vxRun
  simp only [hn, ho, if_true, ht, ne_eq, not_true_eq_false, if_false, hb]
  unfold vxGoto
  rw [if_pos (by rw [hq.dies]; exact hp)]
  exact booked_onDie hq d _

end Sys2Proof.Machine
end

