-- ==== Sys2Proof/Laws/WfOps.lean ====
section
/-!
SUPPORT. Laws/WfOps.lean: what Machine/Ops.lean changes of the sparse maps of the package keeps their canonical form.
-/
namespace Sys2Proof.Machine

theorem wf_sf (p : Nat) (f : Fld) (n : Nat) {s : State} (hs : s.wf = true) :
    State.wf (sf p f n s) = true := by
  unfold sf
  repeat' first
    | intro _ | with_reducible assumption | with_reducible apply wf_wr | dsimp only

theorem wf_wr64 (a : Nat) (v : Nat) {s : State} (hs : s.wf = true) :
    State.wf (wr64 a v s) = true := by
  unfold wr64
  repeat' first
    | intro _ | with_reducible assumption | with_reducible apply wf_wr | dsimp only

theorem wf_onDie (d : DieId) (f : Die → Die) {s : State} (hs : s.wf = true) :
    State.wf (onDie d f s) = true := by
  unfold onDie
  repeat' first
    | intro _ | with_reducible assumption | dsimp only | simp only [wf_mk]

theorem wf_onPort (p : PortId) (f : Port → Port) {s : State} (hs : s.wf = true) :
    State.wf (onPort p f s) = true := by
  unfold onPort
  repeat' first
    | intro _ | with_reducible assumption | dsimp only | simp only [wf_mk]

theorem wf_emit (o : Out) {s : State} (hs : s.wf = true) :
    State.wf (emit o s) = true := by
  unfold emit
  repeat' first
    | intro _ | with_reducible assumption | dsimp only | simp only [wf_mk]

theorem wf_emits (os : List Out) {s : State} (hs : s.wf = true) :
    State.wf (emits os s) = true := by
  unfold emits
  repeat' first
    | intro _ | with_reducible assumption | dsimp only | simp only [wf_mk]

theorem wf_drawFresh {s : State} (hs : s.wf = true) :
    State.wf (drawFresh s).2 = true := by
  unfold drawFresh
  repeat' first
    | intro _ | with_reducible assumption | dsimp only | simp only [wf_mk]

theorem wf_clocked (f : State → State) {s : State} (hf : ∀ (u1 : State), u1.wf = true → State.wf (f u1) = true) (hs : s.wf = true) :
    State.wf (clocked f s) = true := by
  unfold clocked
  repeat' first
    | intro _ | with_reducible assumption | with_reducible apply hf | with_reducible apply wf_ite
    | with_reducible apply wf_ite_fst | dsimp only | split

theorem wf_onPower (f : State → State) {s : State} (hf : ∀ (u1 : State), u1.wf = true → State.wf (f u1) = true) (hs : s.wf = true) :
    State.wf (onPower f s) = true := by
  unfold onPower
  repeat' first
    | intro _ | with_reducible assumption | with_reducible apply hf | with_reducible apply wf_ite
    | with_reducible apply wf_ite_fst | dsimp only | split

theorem wf_dieStep (h : DieId) (f : State → State) {s : State} (hf : ∀ (u1 : State), u1.wf = true → State.wf (f u1) = true) (hs : s.wf = true) :
    State.wf (dieStep h f s) = true := by
  unfold dieStep
  repeat' first
    | intro _ | with_reducible assumption | with_reducible apply hf | with_reducible apply wf_ite
    | with_reducible apply wf_ite_fst | dsimp only | split

end Sys2Proof.Machine
end

