-- ==== Sys2Proof/Laws/WfFlags.lean ====
section
/-!
SUPPORT. Laws/WfFlags.lean: what Machine/Flags.lean changes of the sparse maps of the package keeps their canonical form.
-/
namespace Sys2Proof.Machine

theorem wf_evtRaw (p b : Nat) {s : State} (hs : s.wf = true) :
    State.wf (evtRaw p b s) = true := by
  unfold evtRaw
  repeat' first
    | intro _ | with_reducible assumption | with_reducible apply wf_wr | dsimp only

theorem wf_tallyPut (p i n : Nat) {s : State} (hs : s.wf = true) :
    State.wf (tallyPut p i n s).1 = true := by
  unfold tallyPut
  repeat' first
    | intro _ | with_reducible assumption | with_reducible apply wf_ite | with_reducible apply wf_ite_fst
    | with_reducible apply wf_tallySet | dsimp only | simp only [wf_mk] | split

theorem wf_onQueue (q : Nat) (f : QueueSt → QueueSt) {s : State} (hs : s.wf = true) :
    State.wf (onQueue q f s) = true := by
  unfold onQueue
  repeat' first
    | intro _ | with_reducible assumption | with_reducible apply wf_ite | with_reducible apply wf_ite_fst | dsimp only
    | simp only [wf_mk] | split

theorem wf_qIrq (q : Nat) {s : State} (hs : s.wf = true) :
    State.wf (qIrq q s) = true := by
  unfold qIrq
  repeat' first
    | intro _ | with_reducible assumption | with_reducible apply wf_emit | with_reducible apply wf_onQueue
    | with_reducible apply wf_ite | with_reducible apply wf_ite_fst | dsimp only | simp only [wf_mk] | split

theorem wf_ringPut (q : Nat) (bs : List Byte) {s : State} (hs : s.wf = true) :
    State.wf (ringPut q bs s) = true := by
  unfold ringPut
  repeat' first
    | intro _ | with_reducible assumption | with_reducible apply wf_hostPoke | with_reducible apply wf_wr64
    | with_reducible apply wf_ite | with_reducible apply wf_ite_fst | dsimp only | split

theorem wf_qPushWith (ev : Nat → State → State) (tl : Nat → State → State) (q : Nat) (x : List Byte) {s : State} (hev : ∀ (u1 : Nat) (u2 : State), u2.wf = true → State.wf (ev u1 u2) = true) (htl : ∀ (u1 : Nat) (u2 : State), u2.wf = true → State.wf (tl u1 u2) = true) (hs : s.wf = true) :
    State.wf (qPushWith ev tl q x s).1 = true := by
  unfold qPushWith
  repeat' first
    | intro _ | with_reducible assumption | with_reducible apply wf_onQueue | with_reducible apply wf_ringPut
    | with_reducible apply wf_qIrq | with_reducible apply hev | with_reducible apply htl | with_reducible apply wf_ite
    | with_reducible apply wf_ite_fst | dsimp only | simp only [wf_mk] | split

theorem wf_postEntry (x : List Byte) {s : State} (hs : s.wf = true) :
    State.wf (postEntry x s) = true := by
  unfold postEntry
  repeat' first
    | intro _ | with_reducible assumption | with_reducible apply wf_tallyPut | with_reducible apply wf_evtRaw
    | with_reducible apply wf_qPushWith | with_reducible apply wf_ite | with_reducible apply wf_ite_fst
    | (refine wf_of_eq (by assumption) ?_) | dsimp only | simp only [wf_mk] | split

theorem wf_raiseAs (forced : Bool) (p b : Nat) {s : State} (hs : s.wf = true) :
    State.wf (raiseAs forced p b s) = true := by
  unfold raiseAs
  repeat' first
    | intro _ | with_reducible assumption | with_reducible apply wf_evtRaw | with_reducible apply wf_postEntry
    | with_reducible apply wf_ite | with_reducible apply wf_ite_fst | dsimp only | split

theorem wf_raise (p b : Nat) {s : State} (hs : s.wf = true) :
    State.wf (raise p b s) = true := by
  unfold raise
  repeat' first
    | intro _ | with_reducible assumption | with_reducible apply wf_raiseAs | dsimp only

theorem wf_tallyAdd (p i n : Nat) {s : State} (hs : s.wf = true) :
    State.wf (tallyAdd p i n s) = true := by
  unfold tallyAdd
  repeat' first
    | intro _ | with_reducible assumption | with_reducible apply wf_tallyPut | with_reducible apply wf_raise
    | with_reducible apply wf_ite | with_reducible apply wf_ite_fst | (refine wf_of_eq (by assumption) ?_)
    | dsimp only | split

theorem wf_tallyQty (p i unit n : Nat) {s : State} (hs : s.wf = true) :
    State.wf (tallyQty p i unit n s) = true := by
  unfold tallyQty
  repeat' first
    | intro _ | with_reducible assumption | with_reducible apply wf_tallyAdd | with_reducible apply wf_ite
    | with_reducible apply wf_ite_fst | with_reducible apply wf_remSet | dsimp only | simp only [wf_mk] | split

theorem wf_setFenced (p v : Nat) {s : State} (hs : s.wf = true) :
    State.wf (setFenced p v s) = true := by
  unfold setFenced
  repeat' first
    | intro _ | with_reducible assumption | with_reducible apply wf_tallyAdd | with_reducible apply wf_sf
    | with_reducible apply wf_ite | with_reducible apply wf_ite_fst | dsimp only | split

theorem wf_recErr (p code off src : Nat) {s : State} (hs : s.wf = true) :
    State.wf (recErr p code off src s) = true := by
  unfold recErr
  repeat' first
    | intro _ | with_reducible assumption | with_reducible apply wf_raise | with_reducible apply wf_wr | dsimp only

theorem wf_blockErr (p code : Nat) {s : State} (hs : s.wf = true) :
    State.wf (blockErr p code s) = true := by
  unfold blockErr
  repeat' first
    | intro _ | with_reducible assumption | with_reducible apply wf_recErr | dsimp only

theorem wf_qPush (q : Nat) (x : List Byte) {s : State} (hs : s.wf = true) :
    State.wf (qPush q x s).1 = true := by
  unfold qPush
  repeat' first
    | intro _ | with_reducible assumption | with_reducible apply wf_qPushWith | with_reducible apply wf_raise
    | with_reducible apply wf_tallyAdd | dsimp only

theorem wf_qGapOnRelease (q : Nat) {s : State} (hs : s.wf = true) :
    State.wf (qGapOnRelease q s) = true := by
  unfold qGapOnRelease
  repeat' first
    | intro _ | with_reducible assumption | with_reducible apply wf_raise | with_reducible apply wf_tallyAdd
    | with_reducible apply wf_onQueue | with_reducible apply wf_ringPut | with_reducible apply wf_ite
    | with_reducible apply wf_ite_fst | dsimp only | simp only [wf_mk] | split

end Sys2Proof.Machine
end

