-- ==== Sys2Proof/Laws/WfFabric.lean ====
section
/-!
SUPPORT. Laws/WfFabric.lean: what Machine/Fabric.lean changes of the sparse maps of the package keeps their canonical form.
-/
namespace Sys2Proof.Machine

theorem wf_onSide (d : DieId) (e : SideId) (f : Side → Side) {s : State} (hs : s.wf = true) :
    State.wf (onSide d e f s) = true := by
  unfold onSide
  repeat' first
    | intro _ | with_reducible assumption | with_reducible apply wf_onDie | dsimp only | simp only [wf_mk]

theorem wf_swSendOne (d : DieId) (e : SideId) (c : Nat) {s : State} (hs : s.wf = true) :
    State.wf (swSendOne d e c s) = true := by
  unfold swSendOne
  repeat' first
    | intro _ | with_reducible assumption | with_reducible apply wf_tallyQty | with_reducible apply wf_emit
    | with_reducible apply wf_onSide | with_reducible apply wf_ite | with_reducible apply wf_ite_fst
    | (refine wf_of_eq (by assumption) ?_) | dsimp only | simp only [wf_mk] | split

theorem wf_swPumpN (d : DieId) (e : SideId) (n : Nat) {s : State} (hs : s.wf = true) :
    State.wf (swPumpN d e n s) = true := by
  induction n generalizing s hs with
  | zero => exact hs
  | succ n ih =>
    unfold swPumpN
    repeat' first
      | intro _ | with_reducible assumption | with_reducible apply ih | with_reducible apply wf_swSendOne | split

theorem wf_swPump (d : DieId) (e : SideId) {s : State} (hs : s.wf = true) :
    State.wf (swPump d e s) = true := by
  unfold swPump
  repeat' first
    | intro _ | with_reducible assumption | with_reducible apply wf_swPumpN | with_reducible apply wf_foldl
    | with_reducible apply wf_ite | with_reducible apply wf_ite_fst | dsimp only | split

theorem wf_swQueue (d : DieId) (e : SideId) (us : List SwItem) {s : State} (hs : s.wf = true) :
    State.wf (swQueue d e us s) = true := by
  unfold swQueue
  repeat' first
    | intro _ | with_reducible assumption | with_reducible apply wf_onSide | dsimp only | simp only [wf_mk]

theorem wf_swPost (a : DieId) (h : DieId) (kind : Nat) (cls : Nat) (addr : Nat) (data : List Byte) {s : State}
    (hs : s.wf = true) :
    State.wf (swPost a h kind cls addr data s) = true := by
  unfold swPost
  repeat' first
    | intro _ | with_reducible assumption | with_reducible apply wf_swPump | with_reducible apply wf_swQueue
    | with_reducible apply wf_ite | with_reducible apply wf_ite_fst | (refine wf_of_eq (by assumption) ?_) | dsimp only
    | simp only [wf_mk] | split

theorem wf_swAck (d : DieId) (e : SideId) (f : Fin 16) (seq : Nat) {s : State} (hs : s.wf = true) :
    State.wf (swAck d e f seq s) = true := by
  unfold swAck
  repeat' first
    | intro _ | with_reducible assumption | with_reducible apply wf_onSide | with_reducible apply wf_ite
    | with_reducible apply wf_ite_fst | dsimp only | simp only [wf_mk] | split

theorem wf_swResendOne (d : DieId) (e : SideId) (f : Fin 16) (h : SwHeld) {s : State} (hs : s.wf = true) :
    State.wf (swResendOne d e f h s) = true := by
  unfold swResendOne
  repeat' first
    | intro _ | with_reducible assumption | with_reducible apply wf_tallyAdd | with_reducible apply wf_emit | dsimp only

theorem wf_swResend (d : DieId) (e : SideId) (f : Fin 16) (seq : Nat) {s : State} (hs : s.wf = true) :
    State.wf (swResend d e f seq s) = true := by
  unfold swResend
  repeat' first
    | intro _ | with_reducible assumption | with_reducible apply wf_forEach | with_reducible apply wf_swResendOne
    | dsimp only

theorem wf_swRestart (d : DieId) (e : SideId) {s : State} (hs : s.wf = true) :
    State.wf (swRestart d e s) = true := by
  unfold swRestart
  repeat' first
    | intro _ | with_reducible assumption | with_reducible apply wf_onSide | with_reducible apply wf_swPump
    | with_reducible apply wf_forEach | with_reducible apply wf_swResendOne | with_reducible apply wf_ite
    | with_reducible apply wf_ite_fst | dsimp only | split

theorem wf_swClear (d : DieId) (e : SideId) {s : State} (hs : s.wf = true) :
    State.wf (swClear d e s) = true := by
  unfold swClear
  repeat' first
    | intro _ | with_reducible assumption | with_reducible apply wf_onSide | dsimp only | simp only [wf_mk]

theorem wf_swHandOver (d : DieId) (e : SideId) {s : State} (hs : s.wf = true) :
    State.wf (swHandOver d e s) = true := by
  unfold swHandOver
  repeat' first
    | intro _ | with_reducible assumption | with_reducible apply wf_swPump | with_reducible apply wf_swQueue
    | with_reducible apply wf_swClear | dsimp only

end Sys2Proof.Machine
end

