-- ==== Sys2Proof/Laws/WfMemory.lean ====
section
/-!
SUPPORT. Laws/WfMemory.lean: what Machine/Memory.lean changes of the sparse maps of the package keeps their canonical form.
-/
namespace Sys2Proof.Machine

theorem wf_tallyBytes (w : MemReq) (write : Bool) (a n : Nat) {s : State} (hs : s.wf = true) :
    State.wf (tallyBytes w write a n s) = true := by
  unfold tallyBytes
  repeat' first
    | intro _ | with_reducible assumption | with_reducible apply wf_tallyQty | with_reducible apply wf_forEach
    | with_reducible apply wf_ite | with_reducible apply wf_ite_fst | (refine wf_of_eq (by assumption) ?_)
    | dsimp only | simp only [wf_mk] | split

theorem wf_recordCorrection (scrub : Bool) (pos : List Nat) (a : Nat) {s : State} (hs : s.wf = true) :
    State.wf (recordCorrection scrub pos a s) = true := by
  unfold recordCorrection
  repeat' first
    | intro _ | with_reducible assumption | with_reducible apply wf_wr64 | with_reducible apply wf_wr
    | with_reducible apply wf_onDie | with_reducible apply wf_tallyAdd | with_reducible apply wf_raise
    | with_reducible apply wf_ite | with_reducible apply wf_ite_fst | with_reducible apply wf_errSet | dsimp only
    | simp only [wf_mk] | split

theorem wf_recordUncorrectable (w : MemReq) (partialWr : Bool) (a : Nat) {s : State} (hs : s.wf = true) :
    State.wf (recordUncorrectable w partialWr a s) = true := by
  unfold recordUncorrectable
  repeat' first
    | intro _ | with_reducible assumption | with_reducible apply wf_wr64 | with_reducible apply wf_wr
    | with_reducible apply wf_blockErr | with_reducible apply wf_raise | with_reducible apply wf_tallyAdd
    | with_reducible apply wf_ite | with_reducible apply wf_ite_fst | dsimp only | split

theorem wf_readWord (w : MemReq) (partialWr : Bool) (a : Nat) {s : State} (hs : s.wf = true) :
    State.wf (readWord w partialWr a s).1 = true := by
  unfold readWord
  repeat' first
    | intro _ | with_reducible assumption | with_reducible apply wf_recordCorrection
    | with_reducible apply wf_recordUncorrectable | (refine wf_of_eq (by assumption) ?_) | dsimp only | simp only [wf_mk]
    | split

theorem wf_inject (a : Nat) {s : State} (hs : s.wf = true) :
    State.wf (inject a s) = true := by
  unfold inject
  repeat' first
    | intro _ | with_reducible assumption | with_reducible apply wf_tallyAdd | with_reducible apply wf_sf
    | with_reducible apply wf_ite | with_reducible apply wf_ite_fst | with_reducible apply wf_errSet | dsimp only
    | simp only [wf_mk] | split

theorem wf_writeWord (w : MemReq) (a : Nat) (bs : List Byte) {s : State} (hs : s.wf = true) :
    State.wf (writeWord w a bs s).1 = true := by
  unfold writeWord
  dsimp only
  split
  · apply wf_inject
    have h := wf_poke a bs hs
    exact wf_errSet (a / 64) 0 h
  · split
    · rename_i s1 e
      have h := wf_of_eq e (wf_readWord w true a hs)
      apply wf_poke
      apply wf_ite
      · exact wf_tallyAdd _ _ _ h
      · exact wf_tallyAdd _ _ _ h
    · rename_i e; exact wf_of_eq e (wf_readWord w true a hs)

theorem wf_trunkWriteWord (d : DieId) (t : TrunkWord) {s : State} (hs : s.wf = true) :
    State.wf (trunkWriteWord d t s).1 = true := by
  unfold trunkWriteWord
  repeat' first
    | intro _ | with_reducible assumption | with_reducible apply wf_onDie | with_reducible apply wf_wr
    | with_reducible apply wf_writeWord | with_reducible apply wf_tallyBytes | with_reducible apply wf_tallyAdd
    | with_reducible apply wf_readWord | with_reducible apply wf_poke | with_reducible apply wf_ite
    | with_reducible apply wf_ite_fst | (refine wf_of_eq (by assumption) ?_) | dsimp only | simp only [wf_mk] | split

theorem wf_trunkFault (d : DieId) (t : TrunkWord) (c : Nat) {s : State} (hs : s.wf = true) :
    State.wf (trunkFault d t c s) = true := by
  unfold trunkFault
  repeat' first
    | intro _ | with_reducible assumption | with_reducible apply wf_onDie | with_reducible apply wf_ite
    | with_reducible apply wf_ite_fst | dsimp only | simp only [wf_mk] | split

theorem wf_trunkTouch (a : Nat) (n : Nat) {s : State} (hs : s.wf = true) :
    State.wf (trunkTouch a n s) = true := by
  unfold trunkTouch
  repeat' first
    | intro _ | with_reducible assumption | with_reducible apply wf_forEach | with_reducible apply wf_trunkWriteWord
    | with_reducible apply wf_tallyAdd | with_reducible apply wf_trunkFault | (refine wf_of_eq (by assumption) ?_)
    | dsimp only | simp only [wf_mk] | split

theorem wf_readRange (w : MemReq) (a n : Nat) {s : State} (hs : s.wf = true) :
    State.wf (readRange w a n s).1 = true := by
  unfold readRange
  repeat' first
    | intro _ | with_reducible assumption | with_reducible apply wf_trunkTouch | with_reducible apply wf_forUntil
    | with_reducible apply wf_readWord | with_reducible apply wf_tallyBytes | with_reducible apply wf_ite
    | with_reducible apply wf_ite_fst | (refine wf_of_eq (by assumption) ?_) | dsimp only | simp only [wf_mk] | split

theorem wf_memRead (w : MemReq) (a n : Nat) {s : State} (hs : s.wf = true) :
    State.wf (memRead w a n s).1 = true := by
  unfold memRead
  repeat' first
    | intro _ | with_reducible assumption | with_reducible apply wf_readRange | with_reducible apply wf_ite
    | with_reducible apply wf_ite_fst | (refine wf_of_eq (by assumption) ?_) | dsimp only | split

theorem wf_writePieces (w : MemReq) (base : Nat) (bs : List Byte) (ps : List (Nat × Nat)) {s : State} (hs : s.wf = true) :
    State.wf (writePieces w base bs ps s).1 = true := by
  unfold writePieces
  repeat' first
    | intro _ | with_reducible assumption | with_reducible apply wf_forUntil | with_reducible apply wf_writeWord
    | dsimp only

theorem wf_loftDrop (d : DieId) (p : Nat → LoftLine → Bool) (q : LineReq → Bool) {s : State} (hs : s.wf = true) :
    State.wf (loftDrop d p q s) = true := by
  unfold loftDrop
  repeat' first
    | intro _ | with_reducible assumption | with_reducible apply wf_onDie | with_reducible apply wf_ite
    | with_reducible apply wf_ite_fst | (refine wf_of_eq (by assumption) ?_) | dsimp only | simp only [wf_mk] | split

theorem wf_memWrite (w : MemReq) (a : Nat) (bs : List Byte) {s : State} (hs : s.wf = true) :
    State.wf (memWrite w a bs s).1 = true := by
  unfold memWrite
  repeat' first
    | intro _ | with_reducible assumption | with_reducible apply wf_trunkTouch | with_reducible apply wf_tallyAdd
    | with_reducible apply wf_loftDrop | with_reducible apply wf_writePieces | with_reducible apply wf_tallyBytes
    | with_reducible apply wf_ite | with_reducible apply wf_ite_fst | (refine wf_of_eq (by assumption) ?_)
    | dsimp only | simp only [wf_mk] | split

theorem wf_loftFill (d : DieId) (line : Nat) (stable : Bool) (data : List Byte) {s : State} (hs : s.wf = true) :
    State.wf (loftFill d line stable data s) = true := by
  unfold loftFill
  repeat' first
    | intro _ | with_reducible assumption | with_reducible apply wf_onDie | with_reducible apply wf_tallyAdd
    | (refine wf_of_eq (by assumption) ?_) | dsimp only | simp only [wf_mk] | split

theorem wf_loftFetch (d : DieId) (stable : Bool) (a : Nat) (n : Nat) {s : State} (hs : s.wf = true) :
    State.wf (loftFetch d stable a n s).1 = true := by
  unfold loftFetch
  repeat' first
    | intro _ | with_reducible assumption | with_reducible apply wf_readRange | with_reducible apply wf_loftFill
    | (refine wf_of_eq (by assumption) ?_) | dsimp only | simp only [wf_mk] | split

theorem wf_loftRead (d : DieId) (stable : Bool) (a : Nat) (n : Nat) {s : State} (hs : s.wf = true) :
    State.wf (loftRead d stable a n s).1 = true := by
  unfold loftRead
  repeat' first
    | intro _ | with_reducible assumption | with_reducible apply wf_loftFetch | with_reducible apply wf_tallyAdd
    | with_reducible apply wf_loftDrop | with_reducible apply wf_onDie | with_reducible apply wf_ite
    | with_reducible apply wf_ite_fst | (refine wf_of_eq (by assumption) ?_) | with_reducible apply wf_readRange
    | with_reducible apply wf_loftFill | dsimp only | simp only [wf_mk] | split

theorem wf_moverRead (d : DieId) (uncached stable : Bool) (a n : Nat) {s : State} (hs : s.wf = true) :
    State.wf (moverRead d uncached stable a n s).1 = true := by
  unfold moverRead
  repeat' first
    | intro _ | with_reducible assumption | with_reducible apply wf_readRange | with_reducible apply wf_tallyAdd
    | with_reducible apply wf_loftRead | with_reducible apply wf_ite | with_reducible apply wf_ite_fst
    | with_reducible apply wf_foldl | (refine wf_of_eq (by assumption) ?_) | dsimp only | simp only [wf_mk] | split

end Sys2Proof.Machine
end

