-- ==== Sys2Proof/Laws/WfOperands.lean ====
section
/-!
SUPPORT. Laws/WfOperands.lean: what Machine/Operands.lean changes of the sparse maps of the package keeps their canonical form.
-/
namespace Sys2Proof.Machine

theorem wf_setWatchFld (d : DieId) (e : Nat) (f : Fld) (n : Nat) {s : State} (hs : s.wf = true) :
    State.wf (setWatchFld d e f n s) = true := by
  unfold setWatchFld
  repeat' first
    | intro _ | with_reducible assumption | with_reducible apply wf_onDie | dsimp only | simp only [wf_mk]

theorem wf_readCodes (rdr : Reader) (v : View) (row i n : Nat) {s : State} (hrdr : ∀ (u1 : Nat) (u2 : Nat) (u3 : State), u3.wf = true → State.wf (rdr u1 u2 u3).1 = true) (hs : s.wf = true) :
    State.wf (readCodes rdr v row i n s).1 = true := by
  unfold readCodes
  repeat' first
    | intro _ | with_reducible assumption | with_reducible apply hrdr | with_reducible apply wf_ite
    | with_reducible apply wf_ite_fst | dsimp only | split

theorem wf_readScales (rdr : Reader) (v : View) (row i n : Nat) {s : State} (hrdr : ∀ (u1 : Nat) (u2 : Nat) (u3 : State), u3.wf = true → State.wf (rdr u1 u2 u3).1 = true) (hs : s.wf = true) :
    State.wf (readScales rdr v row i n s).1 = true := by
  unfold readScales
  repeat' first
    | intro _ | with_reducible assumption | with_reducible apply hrdr | with_reducible apply wf_ite
    | with_reducible apply wf_ite_fst | (refine wf_of_eq (by assumption) ?_) | dsimp only | simp only [wf_mk] | split

theorem wf_readVals (rdr : Reader) (v : View) (row i n : Nat) {s : State} (hrdr : ∀ (u1 : Nat) (u2 : Nat) (u3 : State), u3.wf = true → State.wf (rdr u1 u2 u3).1 = true) (hs : s.wf = true) :
    State.wf (readVals rdr v row i n s).1 = true := by
  unfold readVals
  repeat' first
    | intro _ | with_reducible assumption | with_reducible apply wf_readCodes | with_reducible apply wf_readScales
    | with_reducible apply hrdr | with_reducible apply wf_ite | with_reducible apply wf_ite_fst
    | (refine wf_of_eq (by assumption) ?_) | dsimp only | split

theorem wf_readX32 (rdr : Reader) (hrdr : ∀ (u1 : Nat) (u2 : Nat) (u3 : State), u3.wf = true → State.wf
    (rdr u1 u2 u3).1 = true) (v : View) (row : Nat) (i : Nat) (n : Nat) {s : State} (hs : s.wf = true) :
    State.wf (readX32 rdr v row i n s).1 = true := by
  unfold readX32
  repeat' first
    | intro _ | with_reducible assumption | with_reducible apply hrdr | with_reducible apply wf_readVals | dsimp only

theorem wf_writeCodes (w : Writer) (v : View) (row i : Nat) (codes : List Nat) {s : State} (hw : ∀ (u1 : Nat) (u2 : List Byte) (u3 : State), u3.wf = true → State.wf (w u1 u2 u3).1 = true) (hs : s.wf = true) :
    State.wf (writeCodes w v row i codes s).1 = true := by
  unfold writeCodes
  repeat' first
    | intro _ | with_reducible assumption | with_reducible apply hw | with_reducible apply wf_ite
    | with_reducible apply wf_ite_fst | dsimp only | split

theorem wf_writeScale (w : Writer) (v : View) (gi scale zp : Nat) {s : State} (hw : ∀ (u1 : Nat) (u2 : List Byte) (u3 : State), u3.wf = true → State.wf (w u1 u2 u3).1 = true) (hs : s.wf = true) :
    State.wf (writeScale w v gi scale zp s).1 = true := by
  unfold writeScale
  repeat' first
    | intro _ | with_reducible assumption | with_reducible apply hw | with_reducible apply wf_ite
    | with_reducible apply wf_ite_fst | (refine wf_of_eq (by assumption) ?_) | dsimp only | simp only [wf_mk] | split

theorem wf_writeGroups (w : Writer) (v : View) (row i : Nat) (gs : List EncGroup) {s : State} (hw : ∀ (u1 : Nat) (u2 : List Byte) (u3 : State), u3.wf = true → State.wf (w u1 u2 u3).1 = true) (hs : s.wf = true) :
    State.wf (writeGroups w v row i gs s).1 = true := by
  unfold writeGroups
  repeat' first
    | intro _ | with_reducible assumption | with_reducible apply wf_writeCodes | with_reducible apply wf_forUntil
    | with_reducible apply wf_writeScale | with_reducible apply hw | (refine wf_of_eq (by assumption) ?_) | dsimp only
    | split

theorem wf_writeX32 (w : Writer) (v : View) (row i : Nat) (xs : List W) {s : State} (hw : ∀ (u1 : Nat) (u2 : List Byte) (u3 : State), u3.wf = true → State.wf (w u1 u2 u3).1 = true) (hs : s.wf = true) :
    State.wf (writeX32 w v row i xs s).1 = true := by
  unfold writeX32
  repeat' first
    | intro _ | with_reducible assumption | with_reducible apply wf_writeGroups | with_reducible apply wf_writeCodes
    | with_reducible apply hw | with_reducible apply wf_ite | with_reducible apply wf_ite_fst
    | with_reducible apply wf_foldl | dsimp only | split

end Sys2Proof.Machine
end

