-- ==== Sys2Proof/Laws/WfWatch.lean ====
section
/-!
SUPPORT. Laws/WfWatch.lean: what Machine/Watch.lean changes of the sparse maps of the package keeps their canonical form.
-/
namespace Sys2Proof.Machine

theorem wf_accAdd (d : DieId) (e k n : Nat) {s : State} (hs : s.wf = true) :
    State.wf (accAdd d e k n s) = true := by
  unfold accAdd
  repeat' first
    | intro _ | with_reducible assumption | with_reducible apply wf_onDie | dsimp only | simp only [wf_mk]

theorem wf_lateAdd (d : DieId) (e : Nat) (k : Nat) (n : Nat) {s : State} (hs : s.wf = true) :
    State.wf (lateAdd d e k n s) = true := by
  unfold lateAdd
  repeat' first
    | intro _ | with_reducible assumption | with_reducible apply wf_onDie | dsimp only | simp only [wf_mk]

theorem wf_watchClear (d : DieId) {s : State} (hs : s.wf = true) :
    State.wf (watchClear d s) = true := by
  unfold watchClear
  repeat' first
    | intro _ | with_reducible assumption | with_reducible apply wf_foldl | with_reducible apply wf_onDie
    | with_reducible apply wf_tallyQty | dsimp only | simp only [wf_mk]

theorem wf_tensorSentinels (d : DieId) (e : Nat) {s : State} (hs : s.wf = true) :
    State.wf (tensorSentinels d e s) = true := by
  unfold tensorSentinels
  repeat' first
    | intro _ | with_reducible assumption | with_reducible apply wf_forEach | with_reducible apply wf_raise
    | with_reducible apply wf_onDie | with_reducible apply wf_ite | with_reducible apply wf_ite_fst | dsimp only
    | simp only [wf_mk] | split

theorem wf_watchWrite (d : DieId) (f : Nat) (e : Nat) (c : Cnt) {s : State} (hs : s.wf = true) :
    State.wf (watchWrite d f e c s) = true := by
  unfold watchWrite
  repeat' first
    | intro _ | with_reducible assumption | with_reducible apply wf_tallyQty | with_reducible apply wf_tensorSentinels
    | with_reducible apply wf_accAdd | with_reducible apply wf_lateAdd | with_reducible apply wf_ite
    | with_reducible apply wf_ite_fst | (refine wf_of_eq (by assumption) ?_) | dsimp only | simp only [wf_mk] | split

theorem wf_shadowCompare (d : DieId) (sh : Shadow) {s : State} (hs : s.wf = true) :
    State.wf (shadowCompare d sh s) = true := by
  unfold shadowCompare
  repeat' first
    | intro _ | with_reducible assumption | with_reducible apply wf_tallyAdd | with_reducible apply wf_tallyQty
    | with_reducible apply wf_accAdd | with_reducible apply wf_foldl | dsimp only

theorem wf_onJrnl (d : DieId) (f : Jrnl → Jrnl) {s : State} (hs : s.wf = true) :
    State.wf (onJrnl d f s) = true := by
  unfold onJrnl
  repeat' first
    | intro _ | with_reducible assumption | with_reducible apply wf_onDie | dsimp only | simp only [wf_mk]

theorem wf_onRec (d : DieId) (f : JRec → JRec) {s : State} (hs : s.wf = true) :
    State.wf (onRec d f s) = true := by
  unfold onRec
  repeat' first
    | intro _ | with_reducible assumption | with_reducible apply wf_onJrnl | dsimp only | simp only [wf_mk]

theorem wf_addItem (d : DieId) (it : List Byte) {s : State} (hs : s.wf = true) :
    State.wf (addItem d it s) = true := by
  unfold addItem
  repeat' first
    | intro _ | with_reducible assumption | with_reducible apply wf_onRec | with_reducible apply wf_tallyAdd
    | with_reducible apply wf_ite | with_reducible apply wf_ite_fst | with_reducible apply wf_foldl | dsimp only
    | simp only [wf_mk] | split

theorem wf_ladderApply (d : DieId) (r : SideRec) (e : Nat) {s : State} (hs : s.wf = true) :
    State.wf (ladderApply d r e s) = true := by
  unfold ladderApply
  repeat' first
    | intro _ | with_reducible assumption | with_reducible apply wf_setWatchFld | with_reducible apply wf_onRec
    | with_reducible apply wf_raise | with_reducible apply wf_tallyAdd | with_reducible apply wf_addItem
    | with_reducible apply wf_ite | with_reducible apply wf_ite_fst | (refine wf_of_eq (by assumption) ?_)
    | dsimp only | simp only [wf_mk] | split

theorem wf_dormantApply (d : DieId) (held : Bool) (r : SideRec) (e : Nat) {s : State} (hs : s.wf = true) :
    State.wf (dormantApply d held r e s) = true := by
  unfold dormantApply
  repeat' first
    | intro _ | with_reducible assumption | with_reducible apply wf_setWatchFld | with_reducible apply wf_addItem
    | with_reducible apply wf_raise | with_reducible apply wf_wr | with_reducible apply wf_ite
    | with_reducible apply wf_ite_fst | with_reducible apply wf_onRec | with_reducible apply wf_tallyAdd | dsimp only | split

theorem wf_sentEval (d : DieId) (n : Nat) {s : State} (hs : s.wf = true) :
    State.wf (sentEval d n s) = true := by
  unfold sentEval
  repeat' first
    | intro _ | with_reducible assumption | with_reducible apply wf_sf | with_reducible apply wf_onDie
    | with_reducible apply wf_wr | with_reducible apply wf_raise | with_reducible apply wf_ite
    | with_reducible apply wf_ite_fst | (refine wf_of_eq (by assumption) ?_) | dsimp only | simp only [wf_mk] | split

theorem wf_sentCommit (d : DieId) (n : Nat) {s : State} (hs : s.wf = true) :
    State.wf (sentCommit d n s) = true := by
  unfold sentCommit
  repeat' first
    | intro _ | with_reducible assumption | with_reducible apply wf_sf | with_reducible apply wf_wr
    | with_reducible apply wf_ite | with_reducible apply wf_ite_fst | (refine wf_of_eq (by assumption) ?_)
    | dsimp only | simp only [wf_mk] | split

theorem wf_ladderReset (d : DieId) {s : State} (hs : s.wf = true) :
    State.wf (ladderReset d s) = true := by
  unfold ladderReset
  repeat' first
    | intro _ | with_reducible assumption | with_reducible apply wf_forEach | with_reducible apply wf_onDie
    | with_reducible apply wf_sf | with_reducible apply wf_wr | with_reducible apply wf_raise
    | with_reducible apply wf_tallyAdd | with_reducible apply wf_onJrnl | dsimp only | simp only [wf_mk]

end Sys2Proof.Machine
end

