-- ==== Sys2Proof/Laws/WfGraph.lean ====
section
/-!
SUPPORT. Laws/WfGraph.lean: what Machine/Graph.lean changes of the sparse maps of the package keeps their canonical form.
-/
namespace Sys2Proof.Machine

theorem wf_onDisp (d : DieId) (f : Disp → Disp) {s : State} (hs : s.wf = true) :
    State.wf (onDisp d f s) = true := by
  unfold onDisp
  repeat' first
    | intro _ | with_reducible assumption | with_reducible apply wf_onDie | dsimp only | simp only [wf_mk]

theorem wf_setTask (d : DieId) (t : Nat) (x : TaskSt) {s : State} (hs : s.wf = true) :
    State.wf (setTask d t x s) = true := by
  unfold setTask
  repeat' first
    | intro _ | with_reducible assumption | with_reducible apply wf_onDisp | dsimp only | simp only [wf_mk]

theorem wf_cqTask (d : DieId) (i : Img) (t code : Nat) {s : State} (hs : s.wf = true) :
    State.wf (cqTask d i t code s) = true := by
  unfold cqTask
  repeat' first
    | intro _ | with_reducible assumption | with_reducible apply wf_qPush | with_reducible apply wf_ite
    | with_reducible apply wf_ite_fst | dsimp only | split

theorem wf_endFailed (d : DieId) (i : Img) (t : Nat) {s : State} (hs : s.wf = true) :
    State.wf (endFailed d i t s) = true := by
  unfold endFailed
  repeat' first
    | intro _ | with_reducible assumption | with_reducible apply wf_cqTask | with_reducible apply wf_tallyAdd
    | with_reducible apply wf_setTask | dsimp only

theorem wf_doom (set : List (DieId × Nat)) {s : State} (hs : s.wf = true) :
    State.wf (doom set s) = true := by
  unfold doom
  repeat' first
    | intro _ | with_reducible assumption | with_reducible apply wf_forEach | with_reducible apply wf_onDisp
    | with_reducible apply wf_ite | with_reducible apply wf_ite_fst | dsimp only | simp only [wf_mk] | split

theorem wf_failFrame (d : DieId) (i : Img) (also : List Nat) {s : State} (hs : s.wf = true) :
    State.wf (failFrame d i also s) = true := by
  unfold failFrame
  repeat' first
    | intro _ | with_reducible assumption | with_reducible apply wf_sf | with_reducible apply wf_forEach
    | with_reducible apply wf_endFailed | with_reducible apply wf_doom | dsimp only

theorem wf_recordFault (d : DieId) (i : Img) (t code : Nat) {s : State} (hs : s.wf = true) :
    State.wf (recordFault d i t code s) = true := by
  unfold recordFault
  repeat' first
    | intro _ | with_reducible assumption | with_reducible apply wf_onDisp | with_reducible apply wf_wr
    | with_reducible apply wf_ite | with_reducible apply wf_ite_fst | dsimp only | simp only [wf_mk] | split

theorem wf_unitFaultCode (d : DieId) (tk : Task) (t : Nat) (code : Nat) (exec : Bool) {s : State} (hs : s.wf = true) :
    State.wf (unitFaultCode d tk t code exec s) = true := by
  unfold unitFaultCode
  repeat' first
    | intro _ | with_reducible assumption | with_reducible apply wf_blockErr | with_reducible apply wf_wr
    | with_reducible apply wf_ite | with_reducible apply wf_ite_fst | (refine wf_of_eq (by assumption) ?_) | dsimp only
    | simp only [wf_mk] | split

theorem wf_parityNote (d : DieId) (row : Nat) {s : State} (hs : s.wf = true) :
    State.wf (parityNote d row s) = true := by
  unfold parityNote
  repeat' first
    | intro _ | with_reducible assumption | with_reducible apply wf_raise | with_reducible apply wf_tallyAdd
    | with_reducible apply wf_wr | dsimp only

theorem wf_parityOf (d : DieId) (i : Img) (tk : Task) (code : Nat) {s : State} (hs : s.wf = true) :
    State.wf (parityOf d i tk code s) = true := by
  unfold parityOf
  repeat' first
    | intro _ | with_reducible assumption | with_reducible apply wf_parityNote | with_reducible apply wf_sf
    | with_reducible apply wf_ite | with_reducible apply wf_ite_fst | dsimp only | split

theorem wf_tellFail (d : DieId) {s : State} (hs : s.wf = true) :
    State.wf (tellFail d s) = true := by
  unfold tellFail
  repeat' first
    | intro _ | with_reducible assumption | with_reducible apply wf_forEach | with_reducible apply wf_swPost
    | with_reducible apply wf_emit | dsimp only

theorem wf_taskFault (d : DieId) (t : Nat) (code : Nat) {s : State} (hs : s.wf = true) :
    State.wf (taskFault d t code s) = true := by
  unfold taskFault
  repeat' first
    | intro _ | with_reducible assumption | with_reducible apply wf_tallyAdd | with_reducible apply wf_cqTask
    | with_reducible apply wf_setTask | with_reducible apply wf_tellFail | with_reducible apply wf_failFrame
    | with_reducible apply wf_raise | with_reducible apply wf_unitFaultCode | with_reducible apply wf_recordFault
    | with_reducible apply wf_ite | with_reducible apply wf_ite_fst | (refine wf_of_eq (by assumption) ?_)
    | with_reducible apply wf_emits | dsimp only | simp only [wf_mk] | split

theorem wf_failCause (d : DieId) (code : Nat) {s : State} (hs : s.wf = true) :
    State.wf (failCause d code s) = true := by
  unfold failCause
  repeat' first
    | intro _ | with_reducible assumption | with_reducible apply wf_onDisp | with_reducible apply wf_tellFail
    | with_reducible apply wf_failFrame | with_reducible apply wf_ite | with_reducible apply wf_ite_fst
    | (refine wf_of_eq (by assumption) ?_) | with_reducible apply wf_emits | dsimp only | simp only [wf_mk] | split

theorem wf_failOpen (d : DieId) (code : Nat) {s : State} (hs : s.wf = true) :
    State.wf (failOpen d code s) = true := by
  unfold failOpen
  repeat' first
    | intro _ | with_reducible assumption | with_reducible apply wf_failCause | with_reducible apply wf_tellFail
    | with_reducible apply wf_onDisp | (refine wf_of_eq (by assumption) ?_) | dsimp only | simp only [wf_mk] | split

theorem wf_beginTask (d : DieId) (i : Img) (tk : Task) (t : Nat) {s : State} (hs : s.wf = true) :
    State.wf (beginTask d i tk t s) = true := by
  unfold beginTask
  repeat' first
    | intro _ | with_reducible assumption | with_reducible apply wf_tallyAdd | with_reducible apply wf_setTask
    | with_reducible apply wf_forEach | with_reducible apply wf_onDie | dsimp only | simp only [wf_mk]

theorem wf_issueEvent (d : DieId) (code : Nat) {s : State} (hs : s.wf = true) :
    State.wf (issueEvent d code s) = true := by
  unfold issueEvent
  repeat' first
    | intro _ | with_reducible assumption | with_reducible apply wf_raise | with_reducible apply wf_ite
    | with_reducible apply wf_ite_fst | dsimp only | split

theorem wf_issueWith (d : DieId) (t depth : Nat) (ok : Task → Bool) (x : State → Img → Task → IssueExtra) (body : Img → Task → State → State × Nat) {s : State} (hbody : ∀ (u1 : Img) (u2 : Task) (u3 : State), u3.wf = true → State.wf (body u1 u2 u3).1 = true) (hs : s.wf = true) :
    State.wf (issueWith d t depth ok x body s) = true := by
  unfold issueWith
  repeat' first
    | intro _ | with_reducible assumption | with_reducible apply wf_beginTask | with_reducible apply wf_taskFault
    | with_reducible apply wf_issueEvent | with_reducible apply hbody | with_reducible apply wf_ite
    | with_reducible apply wf_ite_fst | (refine wf_of_eq (by assumption) ?_) | dsimp only | simp only [wf_mk] | split

theorem wf_setSout (d : DieId) (t : Nat) (v : D) {s : State} (hs : s.wf = true) :
    State.wf (setSout d t v s) = true := by
  unfold setSout
  repeat' first
    | intro _ | with_reducible assumption | with_reducible apply wf_onDisp | dsimp only | simp only [wf_mk]

theorem wf_crcFeed (d : DieId) (t : Nat) (v : View) (a n : Nat) {s : State} (hs : s.wf = true) :
    State.wf (crcFeed d t v a n s) = true := by
  unfold crcFeed
  repeat' first
    | intro _ | with_reducible assumption | with_reducible apply wf_onJrnl | with_reducible apply wf_ite
    | with_reducible apply wf_ite_fst | dsimp only | simp only [wf_mk] | split

theorem wf_storeCodes (d : DieId) (t : Nat) (w : Writer) (v : View) (row i : Nat) (codes : List Nat) {s : State} (hw : ∀ (u1 : Nat) (u2 : List Byte) (u3 : State), u3.wf = true → State.wf (w u1 u2 u3).1 = true) (hs : s.wf = true) :
    State.wf (storeCodes d t w v row i codes s).1 = true := by
  unfold storeCodes
  repeat' first
    | intro _ | with_reducible assumption | with_reducible apply wf_writeCodes | with_reducible apply wf_crcFeed
    | with_reducible apply hw | (refine wf_of_eq (by assumption) ?_) | dsimp only | simp only [wf_mk] | split

theorem wf_storeX32 (d : DieId) (t : Nat) (w : Writer) (v : View) (row i : Nat) (xs : List W) {s : State} (hw : ∀ (u1 : Nat) (u2 : List Byte) (u3 : State), u3.wf = true → State.wf (w u1 u2 u3).1 = true) (hs : s.wf = true) :
    State.wf (storeX32 d t w v row i xs s).1 = true := by
  unfold storeX32
  repeat' first
    | intro _ | with_reducible assumption | with_reducible apply wf_writeX32 | with_reducible apply wf_crcFeed
    | with_reducible apply hw | (refine wf_of_eq (by assumption) ?_) | dsimp only | simp only [wf_mk] | split

theorem wf_writeSout (d : DieId) (tk : Task) (t : Nat) {s : State} (hs : s.wf = true) :
    State.wf (writeSout d tk t s) = true := by
  unfold writeSout
  repeat' first
    | intro _ | with_reducible assumption | with_reducible apply wf_tallyAdd | with_reducible apply wf_wr64
    | with_reducible apply wf_ite | with_reducible apply wf_ite_fst | dsimp only | split

theorem wf_takeDecrement (d : DieId) (t : Nat) {s : State} (hs : s.wf = true) :
    State.wf (takeDecrement d t s) = true := by
  unfold takeDecrement
  repeat' first
    | intro _ | with_reducible assumption | with_reducible apply wf_onDisp | dsimp only | simp only [wf_mk]

theorem wf_sendDecrement (d : DieId) (t : Nat) (e : DieId × Nat) {s : State} (hs : s.wf = true) :
    State.wf (sendDecrement d t e s) = true := by
  unfold sendDecrement
  repeat' first
    | intro _ | with_reducible assumption | with_reducible apply wf_takeDecrement | with_reducible apply wf_tallyAdd
    | with_reducible apply wf_onDisp | with_reducible apply wf_swPost | with_reducible apply wf_emit
    | with_reducible apply wf_ite | with_reducible apply wf_ite_fst | dsimp only | simp only [wf_mk] | split

theorem wf_completeTask (d : DieId) (i : Img) (t : Nat) {s : State} (hs : s.wf = true) :
    State.wf (completeTask d i t s) = true := by
  unfold completeTask
  repeat' first
    | intro _ | with_reducible assumption | with_reducible apply wf_tallyAdd | with_reducible apply wf_writeSout
    | with_reducible apply wf_forEach | with_reducible apply wf_sendDecrement | with_reducible apply wf_setTask
    | with_reducible apply wf_cqTask | with_reducible apply wf_ite | with_reducible apply wf_ite_fst | dsimp only
    | split

theorem wf_ackDecrement (d : DieId) (t : Nat) {s : State} (hs : s.wf = true) :
    State.wf (ackDecrement d t s) = true := by
  unfold ackDecrement
  repeat' first
    | intro _ | with_reducible assumption | with_reducible apply wf_onDisp | with_reducible apply wf_setTask
    | with_reducible apply wf_cqTask | with_reducible apply wf_ite | with_reducible apply wf_ite_fst
    | (refine wf_of_eq (by assumption) ?_) | dsimp only | simp only [wf_mk] | split

theorem wf_doRemoteDecrement (d : DieId) (src : DieId) (srcTask : Nat) (task : Nat) (tag : Nat) {s : State} (hs : s.wf = true) :
    State.wf (doRemoteDecrement d src srcTask task tag s) = true := by
  unfold doRemoteDecrement
  repeat' first
    | intro _ | with_reducible assumption | with_reducible apply wf_tallyAdd | with_reducible apply wf_ackDecrement
    | with_reducible apply wf_swPost | with_reducible apply wf_emit | with_reducible apply wf_takeDecrement
    | with_reducible apply wf_ite | with_reducible apply wf_ite_fst | dsimp only | split

theorem wf_vxRelease (d : DieId) (t : Nat) {s : State} (hs : s.wf = true) :
    State.wf (vxRelease d t s) = true := by
  unfold vxRelease
  repeat' first
    | intro _ | with_reducible assumption | with_reducible apply wf_onDie | with_reducible apply wf_ite
    | with_reducible apply wf_ite_fst | dsimp only | simp only [wf_mk] | split

theorem wf_doTaskFault (d : DieId) (t : Nat) (code : Nat) {s : State} (hs : s.wf = true) :
    State.wf (doTaskFault d t code s) = true := by
  unfold doTaskFault
  repeat' first
    | intro _ | with_reducible assumption | with_reducible apply wf_vxRelease | with_reducible apply wf_taskFault
    | with_reducible apply wf_parityOf | with_reducible apply wf_ite | with_reducible apply wf_ite_fst
    | (refine wf_of_eq (by assumption) ?_) | dsimp only | simp only [wf_mk] | split

theorem wf_doFrameFailNotice (d : DieId) {s : State} (hs : s.wf = true) :
    State.wf (doFrameFailNotice d s) = true := by
  unfold doFrameFailNotice
  repeat' first
    | intro _ | with_reducible assumption | with_reducible apply wf_failFrame | with_reducible apply wf_onDisp
    | with_reducible apply wf_ite | with_reducible apply wf_ite_fst | (refine wf_of_eq (by assumption) ?_) | dsimp only
    | simp only [wf_mk] | split

theorem wf_cutTask (d : DieId) (i : Img) (t : Nat) {s : State} (hs : s.wf = true) :
    State.wf (cutTask d i t s) = true := by
  unfold cutTask
  repeat' first
    | intro _ | with_reducible assumption | with_reducible apply wf_cqTask | with_reducible apply wf_tallyAdd
    | with_reducible apply wf_setTask | (refine wf_of_eq (by assumption) ?_) | dsimp only | split

end Sys2Proof.Machine
end

