-- ==== Sys2Proof/Laws/WfMatrix.lean ====
section
/-!
SUPPORT. Laws/WfMatrix.lean: what Machine/Matrix.lean changes of the sparse maps of the package keeps their canonical form.
-/
namespace Sys2Proof.Machine

theorem wf_readRows (rdr : Reader) (v : View) (i n : Nat) (v1 : List Nat) {v2 : State} (hrdr : ∀ (u1 : Nat) (u2 : Nat) (u3 : State), u3.wf = true → State.wf (rdr u1 u2 u3).1 = true) (hv2 : v2.wf = true) :
    State.wf (readRows rdr v i n v1 v2).1 = true := by
  induction v1 generalizing v2 hv2 with
  | nil =>
    unfold readRows
    repeat' first
      | intro _ | with_reducible assumption | with_reducible apply wf_readVals | with_reducible apply hrdr
      | (refine wf_of_eq (by assumption) ?_) | dsimp only | simp only [wf_mk] | split
  | cons x xs ih =>
    unfold readRows
    repeat' first
      | intro _ | with_reducible assumption | with_reducible apply ih | with_reducible apply wf_readVals | with_reducible apply hrdr
      | (refine wf_of_eq (by assumption) ?_) | dsimp only | simp only [wf_mk] | split

theorem wf_readB (d : DieId) (crossed : Bool) (v : View) (p : MatP) {s : State} (hs : s.wf = true) :
    State.wf (readB d crossed v p s).1 = true := by
  unfold readB
  repeat' first
    | intro _ | with_reducible assumption | with_reducible apply wf_memRead | with_reducible apply wf_readRows
    | with_reducible apply wf_ite | with_reducible apply wf_ite_fst | (refine wf_of_eq (by assumption) ?_)
    | dsimp only | simp only [wf_mk] | split

theorem wf_writeBank (d : DieId) (m b : Nat) (rows : List (Nat × List W)) {s : State} (hs : s.wf = true) :
    State.wf (writeBank d m b rows s) = true := by
  unfold writeBank
  repeat' first
    | intro _ | with_reducible assumption | with_reducible apply wf_onDie | with_reducible apply wf_foldl | dsimp only
    | simp only [wf_mk]

theorem wf_watchCount (d : DieId) (f e : Nat) (c : Cnt) {s : State} (hs : s.wf = true) :
    State.wf (watchCount d f e c s) = true := by
  unfold watchCount
  repeat' first
    | intro _ | with_reducible assumption | with_reducible apply wf_accAdd | with_reducible apply wf_ite
    | with_reducible apply wf_ite_fst | (refine wf_of_eq (by assumption) ?_) | dsimp only | split

theorem wf_refRows {s : State} (d : DieId) (i : Img) (tk : Task) (k : Nat) (crossed : Bool) (org korg n len : Nat) (own : List (List FVal)) (hs : s.wf = true) :
    State.wf (refRows s d i tk k crossed org korg n len own).1 = true := by
  unfold refRows
  repeat' first
    | intro _ | with_reducible assumption | with_reducible apply wf_readRows | with_reducible apply wf_memRead
    | with_reducible apply wf_ite | with_reducible apply wf_ite_fst | (refine wf_of_eq (by assumption) ?_)
    | dsimp only | simp only [wf_mk] | split

theorem wf_takeSample (d : DieId) (i : Img) (tk : Task) (t : Nat) (m : Nat) (crossed : Bool) (p : MatP) (rows : List Nat)
    (a : List (List FVal)) (b : List (List FVal)) (start : Nat → List W) (new : Nat → List W) (copies : List (Nat × Bool)) {s : State} (hs : s.wf = true) :
    State.wf (takeSample d i tk t m crossed p rows a b start new copies s).1 = true := by
  unfold takeSample
  repeat' first
    | intro _ | with_reducible assumption | with_reducible apply wf_refRows | with_reducible apply wf_tallyAdd
    | with_reducible apply wf_onDie | (refine wf_of_eq (by assumption) ?_) | dsimp only | simp only [wf_mk] | split

theorem wf_countRegroup (d : DieId) (m f e : Nat) (r : Regroup) {s : State} (hs : s.wf = true) :
    State.wf (countRegroup d m f e r s) = true := by
  unfold countRegroup
  repeat' first
    | intro _ | with_reducible assumption | with_reducible apply wf_watchCount | with_reducible apply wf_tallyQty
    | with_reducible apply wf_ite | with_reducible apply wf_ite_fst | dsimp only | split

theorem wf_matmul (d : DieId) (t : Nat) (crossed : Bool) (i : Img) (tk : Task) {s : State} (hs : s.wf = true) :
    State.wf (matmul d t crossed i tk s).1 = true := by
  unfold matmul
  repeat' first
    | intro _ | with_reducible assumption | with_reducible apply wf_readRows | with_reducible apply wf_memRead
    | with_reducible apply wf_readB | with_reducible apply wf_watchCount | with_reducible apply wf_countRegroup
    | with_reducible apply wf_writeBank | with_reducible apply wf_takeSample | with_reducible apply wf_ite
    | with_reducible apply wf_ite_fst | (refine wf_of_eq (by assumption) ?_) | dsimp only | simp only [wf_mk] | split

theorem wf_orWait (d : DieId) (t : Nat) (work : State → State × Nat) {s : State} (hwork : ∀ (u1 : State), u1.wf = true → State.wf (work u1).1 = true) (hs : s.wf = true) :
    State.wf (orWait d t work s).1 = true := by
  unfold orWait
  repeat' first
    | intro _ | with_reducible assumption | with_reducible apply wf_onDisp | with_reducible apply hwork
    | with_reducible apply wf_ite | with_reducible apply wf_ite_fst | dsimp only | simp only [wf_mk] | split

theorem wf_matStart (d : DieId) (t : Nat) (crossed : Bool) (i : Img) (tk : Task) {s : State} (hs : s.wf = true) :
    State.wf (matStart d t crossed i tk s).1 = true := by
  unfold matStart
  repeat' first
    | intro _ | with_reducible assumption | with_reducible apply wf_orWait | with_reducible apply wf_matmul
    | dsimp only

theorem wf_doMm (d : DieId) (t : Nat) {s : State} (hs : s.wf = true) :
    State.wf (doMm d t s) = true := by
  unfold doMm
  repeat' first
    | intro _ | with_reducible assumption | with_reducible apply wf_issueWith | with_reducible apply wf_matStart
    | with_reducible apply wf_ite | with_reducible apply wf_ite_fst | dsimp only | split

theorem wf_doMmXb (d : DieId) (t : Nat) {s : State} (hs : s.wf = true) :
    State.wf (doMmXb d t s) = true := by
  unfold doMmXb
  repeat' first
    | intro _ | with_reducible assumption | with_reducible apply wf_issueWith | with_reducible apply wf_matStart
    | with_reducible apply wf_ite | with_reducible apply wf_ite_fst | dsimp only | split

theorem wf_matComplete (d : DieId) (i : Img) (tk : Task) {s : State} (hs : s.wf = true) :
    State.wf (matComplete d i tk s) = true := by
  unfold matComplete
  repeat' first
    | intro _ | with_reducible assumption | with_reducible apply wf_tallyQty | with_reducible apply wf_tallyAdd
    | (refine wf_of_eq (by assumption) ?_) | dsimp only | simp only [wf_mk] | split

theorem wf_doShadowSampleDone (d : DieId) {s : State} (hs : s.wf = true) :
    State.wf (doShadowSampleDone d s) = true := by
  unfold doShadowSampleDone
  repeat' first
    | intro _ | with_reducible assumption | with_reducible apply wf_shadowCompare | with_reducible apply wf_tallyAdd
    | with_reducible apply wf_onDie | with_reducible apply wf_ite | with_reducible apply wf_ite_fst
    | (refine wf_of_eq (by assumption) ?_) | dsimp only | simp only [wf_mk] | split

theorem wf_chargeShadow (d : DieId) {s : State} (hs : s.wf = true) :
    State.wf (chargeShadow d s) = true := by
  unfold chargeShadow
  repeat' first
    | intro _ | with_reducible assumption | with_reducible apply wf_forEach | with_reducible apply wf_tallyQty | dsimp only

theorem wf_setArray (d : DieId) (m st rank forMx : Nat) {s : State} (hs : s.wf = true) :
    State.wf (setArray d m st rank forMx s) = true := by
  unfold setArray
  repeat' first
    | intro _ | with_reducible assumption | with_reducible apply wf_onDie | with_reducible apply wf_sf | dsimp only
    | simp only [wf_mk]

theorem wf_standIn (d : DieId) (m r : Nat) {s : State} (hs : s.wf = true) :
    State.wf (standIn d m r s) = true := by
  unfold standIn
  repeat' first
    | intro _ | with_reducible assumption | with_reducible apply wf_setArray | with_reducible apply wf_wr
    | with_reducible apply wf_onDie | with_reducible apply wf_raise | (refine wf_of_eq (by assumption) ?_)
    | dsimp only | simp only [wf_mk] | split

theorem wf_sampleStatus (d : DieId) {s : State} (hs : s.wf = true) :
    State.wf (sampleStatus d s) = true := by
  unfold sampleStatus
  repeat' first
    | intro _ | with_reducible assumption | with_reducible apply wf_sf | with_reducible apply wf_raise
    | with_reducible apply wf_ite | with_reducible apply wf_ite_fst | dsimp only | split

theorem wf_arrayFails (d : DieId) (m : Nat) {s : State} (hs : s.wf = true) :
    State.wf (arrayFails d m s) = true := by
  unfold arrayFails
  repeat' first
    | intro _ | with_reducible assumption | with_reducible apply wf_raise | with_reducible apply wf_sf
    | with_reducible apply wf_setFenced | dsimp only

theorem wf_doArrayParityFault (d : DieId) (mx : Fin 7) {s : State} (hs : s.wf = true) :
    State.wf (doArrayParityFault d mx s) = true := by
  unfold doArrayParityFault
  repeat' first
    | intro _ | with_reducible assumption | with_reducible apply wf_arrayFails | with_reducible apply wf_taskFault
    | with_reducible apply wf_parityNote | with_reducible apply wf_vxRelease | with_reducible apply wf_blockErr
    | with_reducible apply wf_sampleStatus | with_reducible apply wf_failCause | with_reducible apply wf_onDie
    | with_reducible apply wf_ite | with_reducible apply wf_ite_fst | (refine wf_of_eq (by assumption) ?_) | dsimp only
    | simp only [wf_mk] | split

theorem wf_arrayReplace (d : DieId) (m : Nat) {s : State} (hs : s.wf = true) :
    State.wf (arrayReplace d m s) = true := by
  unfold arrayReplace
  repeat' first
    | intro _ | with_reducible assumption | with_reducible apply wf_setArray | with_reducible apply wf_standIn
    | with_reducible apply wf_ite | with_reducible apply wf_ite_fst | dsimp only | split

theorem wf_arrayFence (d : DieId) (m : Nat) {s : State} (hs : s.wf = true) :
    State.wf (arrayFence d m s) = true := by
  unfold arrayFence
  repeat' first
    | intro _ | with_reducible assumption | with_reducible apply wf_sf | with_reducible apply wf_standIn
    | with_reducible apply wf_setArray | with_reducible apply wf_setFenced | with_reducible apply wf_raise
    | with_reducible apply wf_onDie | with_reducible apply wf_wr | with_reducible apply wf_ite
    | with_reducible apply wf_ite_fst | (refine wf_of_eq (by assumption) ?_) | with_reducible apply wf_keep | dsimp only
    | simp only [wf_mk] | split

theorem wf_arrayTick (d : DieId) (stepStart : Bool) {s : State} (hs : s.wf = true) :
    State.wf (arrayTick d stepStart s) = true := by
  unfold arrayTick
  repeat' first
    | intro _ | with_reducible assumption | with_reducible apply wf_forEach | with_reducible apply wf_arrayReplace
    | with_reducible apply wf_stepStart | with_reducible apply wf_arrayFence | with_reducible apply wf_ite
    | with_reducible apply wf_ite_fst | with_reducible apply wf_setArray | with_reducible apply wf_standIn
    | with_reducible apply wf_sf | with_reducible apply wf_setFenced | with_reducible apply wf_raise
    | with_reducible apply wf_onDie | with_reducible apply wf_wr | dsimp only | split

end Sys2Proof.Machine
end

