-- ==== Sys2Proof/Laws/WfVector.lean ====
section
/-!
SUPPORT. Laws/WfVector.lean: what Machine/Vector.lean changes of the sparse maps of the package keeps their canonical form.
-/
namespace Sys2Proof.Machine

theorem wf_onVx (d : DieId) (x : Fin 2) (f : Vx → Vx) {s : State} (hs : s.wf = true) :
    State.wf (onVx d x f s) = true := by
  unfold onVx
  repeat' first
    | intro _ | with_reducible assumption | with_reducible apply wf_onDie | dsimp only | simp only [wf_mk]

theorem wf_vxFault (d : DieId) (x : Fin 2) (t pc code : Nat) (lane : Option Nat) {s : State} (hs : s.wf = true) :
    State.wf (vxFault d x t pc code lane s) = true := by
  unfold vxFault
  repeat' first
    | intro _ | with_reducible assumption | with_reducible apply wf_taskFault | with_reducible apply wf_onVx
    | with_reducible apply wf_wr | dsimp only | simp only [wf_mk]

theorem wf_vxGoto (d : DieId) (x : Fin 2) (t pc : Nat) {s : State} (hs : s.wf = true) :
    State.wf (vxGoto d x t pc s) = true := by
  unfold vxGoto
  repeat' first
    | intro _ | with_reducible assumption | with_reducible apply wf_onVx | with_reducible apply wf_vxFault
    | with_reducible apply wf_ite | with_reducible apply wf_ite_fst | dsimp only | simp only [wf_mk] | split

theorem wf_vxRun (d : DieId) (x : Fin 2) (op : Nat) (body : Nat → VIn → State → State × VGo) (hbody : ∀ (u1 : Nat) (u2 : VIn)
    (u3 : State), u3.wf = true → State.wf (body u1 u2 u3).1 = true) {s : State} (hs : s.wf = true) :
    State.wf (vxRun d x op body s) = true := by
  unfold vxRun
  repeat' first
    | intro _ | with_reducible assumption | with_reducible apply hbody | with_reducible apply wf_vxFault
    | with_reducible apply wf_vxGoto | with_reducible apply wf_tallyQty | with_reducible apply wf_ite
    | with_reducible apply wf_ite_fst | (refine wf_of_eq (by assumption) ?_) | dsimp only | simp only [wf_mk] | split

theorem wf_laneBody (d : DieId) (x : Fin 2) (f : VIn → Vx → List W) (_t : Nat) (w : VIn) {s : State} (hs : s.wf = true) :
    State.wf (laneBody d x f _t w s).1 = true := by
  unfold laneBody
  repeat' first
    | intro _ | with_reducible assumption | with_reducible apply wf_onVx | dsimp only

theorem wf_vxBody (d : DieId) (x : Fin 2) (f : VIn → Vx → Vx) (_t : Nat) (w : VIn) {s : State} (hs : s.wf = true) :
    State.wf (vxBody d x f _t w s).1 = true := by
  unfold vxBody
  repeat' first
    | intro _ | with_reducible assumption | with_reducible apply wf_onVx | dsimp only

theorem wf_arithBody (d : DieId) (x : Fin 2) (f : FVal → FVal → FVal → FVal) (v1 : Nat) (v2 : VIn) {v3 : State} (hv3 : v3.wf = true) :
    State.wf (arithBody d x f v1 v2 v3).1 = true := by
  induction v1 generalizing v2 v3 hv3 with
  | zero =>
    unfold arithBody
    repeat' first
      | intro _ | with_reducible assumption | with_reducible apply wf_laneBody | dsimp only
  | succ n ih =>
    unfold arithBody
    repeat' first
      | intro _ | with_reducible assumption | with_reducible apply ih | with_reducible apply wf_laneBody | dsimp only

theorem wf_intBody (d : DieId) (x : Fin 2) (f : W → W → W) (v1 : Nat) (v2 : VIn) {v3 : State} (hv3 : v3.wf = true) :
    State.wf (intBody d x f v1 v2 v3).1 = true := by
  induction v1 generalizing v2 v3 hv3 with
  | zero =>
    unfold intBody
    repeat' first
      | intro _ | with_reducible assumption | with_reducible apply wf_laneBody | dsimp only
  | succ n ih =>
    unfold intBody
    repeat' first
      | intro _ | with_reducible assumption | with_reducible apply ih | with_reducible apply wf_laneBody | dsimp only

theorem wf_cmpBody (d : DieId) (x : Fin 2) (f : FVal → FVal → Bool) (g : Int → Int → Bool) (v1 : Nat) (v2 : VIn) {v3 : State} (hv3 : v3.wf = true) :
    State.wf (cmpBody d x f g v1 v2 v3).1 = true := by
  induction v1 generalizing v2 v3 hv3 with
  | zero =>
    unfold cmpBody
    repeat' first
      | intro _ | with_reducible assumption | with_reducible apply wf_vxBody | with_reducible apply wf_ite
      | with_reducible apply wf_ite_fst | dsimp only | split
  | succ n ih =>
    unfold cmpBody
    repeat' first
      | intro _ | with_reducible assumption | with_reducible apply ih | with_reducible apply wf_vxBody | with_reducible apply wf_ite
      | with_reducible apply wf_ite_fst | dsimp only | split

theorem wf_maskBody (d : DieId) (x : Fin 2) (f : Bool → Bool → Bool) (v1 : Nat) (v2 : VIn) {v3 : State} (hv3 : v3.wf = true) :
    State.wf (maskBody d x f v1 v2 v3).1 = true := by
  induction v1 generalizing v2 v3 hv3 with
  | zero =>
    unfold maskBody
    repeat' first
      | intro _ | with_reducible assumption | with_reducible apply wf_vxBody | dsimp only
  | succ n ih =>
    unfold maskBody
    repeat' first
      | intro _ | with_reducible assumption | with_reducible apply ih | with_reducible apply wf_vxBody | dsimp only

theorem wf_startProgram (d : DieId) (t : Nat) (_i : Img) (tk : Task) {s : State} (hs : s.wf = true) :
    State.wf (startProgram d t _i tk s).1 = true := by
  unfold startProgram
  repeat' first
    | intro _ | with_reducible assumption | with_reducible apply wf_onVx | with_reducible apply wf_ite
    | with_reducible apply wf_ite_fst | dsimp only | split

theorem wf_doRunTask (d : DieId) (t : Nat) {s : State} (hs : s.wf = true) :
    State.wf (doRunTask d t s) = true := by
  unfold doRunTask
  repeat' first
    | intro _ | with_reducible assumption | with_reducible apply wf_issueWith | with_reducible apply wf_startProgram
    | with_reducible apply wf_orWait | dsimp only

theorem wf_countConv (d : DieId) (x : Fin 2) (c : Cnt) {s : State} (hs : s.wf = true) :
    State.wf (countConv d x c s) = true := by
  unfold countConv
  repeat' first
    | intro _ | with_reducible assumption | with_reducible apply wf_tallyQty | with_reducible apply wf_raise
    | with_reducible apply wf_ite | with_reducible apply wf_ite_fst | dsimp only | split

theorem wf_loadRun (d : DieId) (x : Fin 2) (v : View) (ty : Nat) (row : Nat) (i : Nat) (n : Nat) {s : State} (hs : s.wf = true) :
    State.wf (loadRun d x v ty row i n s).1 = true := by
  unfold loadRun
  repeat' first
    | intro _ | with_reducible assumption | with_reducible apply wf_memRead | with_reducible apply wf_readCodes
    | with_reducible apply wf_readScales | with_reducible apply wf_countConv | with_reducible apply wf_ite
    | with_reducible apply wf_ite_fst | (refine wf_of_eq (by assumption) ?_) | dsimp only | simp only [wf_mk] | split

theorem wf_loadRuns (d : DieId) (x : Fin 2) (v : View) (ty : Nat) (v1 : List (Nat × Nat × Nat × Nat)) {v2 : State} (hv2 : v2.wf = true) :
    State.wf (loadRuns d x v ty v1 v2).1 = true := by
  induction v1 generalizing v2 hv2 with
  | nil =>
    unfold loadRuns
    repeat' first
      | intro _ | with_reducible assumption | with_reducible apply wf_loadRun | (refine wf_of_eq (by assumption) ?_)
      | dsimp only | simp only [wf_mk] | split
  | cons y ys ih =>
    unfold loadRuns
    repeat' first
      | intro _ | with_reducible assumption | with_reducible apply ih | with_reducible apply wf_loadRun | (refine wf_of_eq (by assumption) ?_)
      | dsimp only | simp only [wf_mk] | split

theorem wf_countSuppressed (d : DieId) (x : Fin 2) (n : Nat) {s : State} (hs : s.wf = true) :
    State.wf (countSuppressed d x n s) = true := by
  unfold countSuppressed
  repeat' first
    | intro _ | with_reducible assumption | with_reducible apply wf_tallyAdd | dsimp only

theorem wf_vLoad (d : DieId) (x : Fin 2) (t : Nat) (w : VIn) (act : List Bool) (pos : List VPos) {s : State} (hs : s.wf = true) :
    State.wf (vLoad d x t w act pos s).1 = true := by
  unfold vLoad
  repeat' first
    | intro _ | with_reducible assumption | with_reducible apply wf_countSuppressed | with_reducible apply wf_loadRuns
    | with_reducible apply wf_ite | with_reducible apply wf_ite_fst | (refine wf_of_eq (by assumption) ?_) | dsimp only
    | simp only [wf_mk] | split

theorem wf_vPlace (d : DieId) (x : Fin 2) (w : VIn) (act : List Bool) (xs : List (Nat × W)) {s : State} (hs : s.wf = true) :
    State.wf (vPlace d x w act xs s) = true := by
  unfold vPlace
  repeat' first
    | intro _ | with_reducible assumption | with_reducible apply wf_onVx | dsimp only

theorem wf_countStore (d : DieId) (x : Fin 2) (t : Nat) (v : View) (conv : Bool) (c : Cnt) {s : State} (hs : s.wf = true) :
    State.wf (countStore d x t v conv c s) = true := by
  unfold countStore
  repeat' first
    | intro _ | with_reducible assumption | with_reducible apply wf_watchWrite | with_reducible apply wf_countConv
    | with_reducible apply wf_ite | with_reducible apply wf_ite_fst | (refine wf_of_eq (by assumption) ?_)
    | with_reducible apply wf_tallyQty | with_reducible apply wf_raise | dsimp only | simp only [wf_mk] | split

theorem wf_storeRun (d : DieId) (x : Fin 2) (t : Nat) (v : View) (ty row i : Nat) (xs : List W) {s : State} (hs : s.wf = true) :
    State.wf (storeRun d x t v ty row i xs s).1 = true := by
  unfold storeRun
  repeat' first
    | intro _ | with_reducible assumption | with_reducible apply wf_storeCodes | with_reducible apply wf_memWrite
    | with_reducible apply wf_countStore | with_reducible apply wf_storeX32 | with_reducible apply wf_ite
    | with_reducible apply wf_ite_fst | (refine wf_of_eq (by assumption) ?_) | dsimp only | simp only [wf_mk] | split

theorem wf_storeRuns (d : DieId) (x : Fin 2) (t : Nat) (v : View) (ty : Nat) (src : List W) (rs : List (Nat × Nat × Nat × Nat)) {s : State} (hs : s.wf = true) :
    State.wf (storeRuns d x t v ty src rs s).1 = true := by
  unfold storeRuns
  repeat' first
    | intro _ | with_reducible assumption | with_reducible apply wf_forUntil | with_reducible apply wf_storeRun
    | dsimp only

theorem wf_vStore (d : DieId) (x : Fin 2) (t : Nat) (w : VIn) (act : List Bool) (pos : List VPos) (src : List W) {s : State} (hs : s.wf = true) :
    State.wf (vStore d x t w act pos src s).1 = true := by
  unfold vStore
  repeat' first
    | intro _ | with_reducible assumption | with_reducible apply wf_countSuppressed
    | with_reducible apply wf_storeRuns | with_reducible apply wf_ite | with_reducible apply wf_ite_fst
    | (refine wf_of_eq (by assumption) ?_) | dsimp only | simp only [wf_mk] | split

theorem wf_loadBody (d : DieId) (x : Fin 2) (pos : Vx → VIn → List VPos) (t : Nat) (w : VIn) {s : State} (hs : s.wf = true) :
    State.wf (loadBody d x pos t w s).1 = true := by
  unfold loadBody
  repeat' first
    | intro _ | with_reducible assumption | with_reducible apply wf_vLoad | with_reducible apply wf_vPlace
    | (refine wf_of_eq (by assumption) ?_) | dsimp only | simp only [wf_mk] | split

theorem wf_storeBody (d : DieId) (x : Fin 2) (pos : Vx → VIn → List VPos) (t : Nat) (w : VIn) {s : State} (hs : s.wf = true) :
    State.wf (storeBody d x pos t w s).1 = true := by
  unfold storeBody
  repeat' first
    | intro _ | with_reducible assumption | with_reducible apply wf_vStore | dsimp only

theorem wf_bumpPair (d : DieId) (x : Fin 2) (w : VIn) (c : Nat) {s : State} (hs : s.wf = true) :
    State.wf (bumpPair d x w c s) = true := by
  unfold bumpPair
  repeat' first
    | intro _ | with_reducible assumption | with_reducible apply wf_onVx | dsimp only

theorem wf_groupStore (d : DieId) (x : Fin 2) (t : Nat) (v : View) (rs : List (Int × Int × Nat × List W)) {s : State} (hs : s.wf = true) :
    State.wf (groupStore d x t v rs s).1 = true := by
  unfold groupStore
  repeat' first
    | intro _ | with_reducible assumption | with_reducible apply wf_forUntil | with_reducible apply wf_storeX32
    | with_reducible apply wf_memWrite | with_reducible apply wf_countStore | with_reducible apply wf_ite
    | with_reducible apply wf_ite_fst | (refine wf_of_eq (by assumption) ?_) | dsimp only | simp only [wf_mk] | split

theorem wf_vstgBody (d : DieId) (x : Fin 2) (t : Nat) (w : VIn) {s : State} (hs : s.wf = true) :
    State.wf (vstgBody d x t w s).1 = true := by
  unfold vstgBody
  repeat' first
    | intro _ | with_reducible assumption | with_reducible apply wf_groupStore | with_reducible apply wf_ite
    | with_reducible apply wf_ite_fst | (refine wf_of_eq (by assumption) ?_) | dsimp only | simp only [wf_mk] | split

theorem wf_vstgxBody (d : DieId) (x : Fin 2) (t : Nat) (w : VIn) {s : State} (hs : s.wf = true) :
    State.wf (vstgxBody d x t w s).1 = true := by
  unfold vstgxBody
  repeat' first
    | intro _ | with_reducible assumption | with_reducible apply wf_groupStore | with_reducible apply wf_ite
    | with_reducible apply wf_ite_fst | (refine wf_of_eq (by assumption) ?_) | dsimp only | simp only [wf_mk] | split

theorem wf_vldaccBody (d : DieId) (x : Fin 2) (t : Nat) (w : VIn) {s : State} (hs : s.wf = true) :
    State.wf (vldaccBody d x t w s).1 = true := by
  unfold vldaccBody
  repeat' first
    | intro _ | with_reducible assumption | with_reducible apply wf_onVx | with_reducible apply wf_ite
    | with_reducible apply wf_ite_fst | (refine wf_of_eq (by assumption) ?_) | dsimp only | simp only [wf_mk] | split

theorem wf_maskRuns (d : DieId) (v : View) (rs : List (Nat × Nat × Nat × Nat)) {s : State} (hs : s.wf = true) :
    State.wf (maskRuns d v rs s).1 = true := by
  induction rs generalizing s hs with
  | nil => exact hs
  | cons r rs ih =>
    unfold maskRuns
    repeat' first
      | intro _ | with_reducible assumption | with_reducible apply ih | with_reducible apply wf_readCodes
      | with_reducible apply wf_memRead | (refine wf_of_eq (by assumption) ?_) | dsimp only | split

theorem wf_mldBody (d : DieId) (x : Fin 2) (t : Nat) (w : VIn) {s : State} (hs : s.wf = true) :
    State.wf (mldBody d x t w s).1 = true := by
  unfold mldBody
  repeat' first
    | with_reducible assumption | with_reducible apply wf_onVx
    | with_reducible refine wf_of_eq (by assumption) (wf_maskRuns _ _ _ ?_) | with_reducible apply wf_countSuppressed | dsimp only | split

theorem wf_trunkRoom (d : DieId) {s : State} (hs : s.wf = true) :
    State.wf (trunkRoom d s).1 = true := by
  unfold trunkRoom
  repeat' first
    | intro _ | with_reducible assumption | with_reducible apply wf_trunkWriteWord | with_reducible apply wf_tallyAdd
    | with_reducible apply wf_trunkFault | with_reducible apply wf_ite | with_reducible apply wf_ite_fst
    | (refine wf_of_eq (by assumption) ?_) | dsimp only | simp only [wf_mk] | split

theorem wf_trunkPut (d : DieId) (x : Fin 2) (base : Nat) (bs : List (Option Byte)) {s : State} (hs : s.wf = true) :
    State.wf (trunkPut d x base bs s).1 = true := by
  unfold trunkPut
  repeat' first
    | intro _ | with_reducible assumption | with_reducible apply wf_trunkWriteWord | with_reducible apply wf_trunkRoom
    | with_reducible apply wf_onDie | with_reducible apply wf_wr | with_reducible apply wf_ite
    | with_reducible apply wf_ite_fst | (refine wf_of_eq (by assumption) ?_) | dsimp only | simp only [wf_mk] | split

theorem wf_mstBody (d : DieId) (x : Fin 2) (t : Nat) (w : VIn) {s : State} (hs : s.wf = true) :
    State.wf (mstBody d x t w s).1 = true := by
  unfold mstBody
  repeat' first
    | intro _ | with_reducible assumption | with_reducible apply wf_tallyQty | with_reducible apply wf_countStore
    | with_reducible refine wf_of_eq (by assumption) (wf_forUntil ?_ _ ?_) | with_reducible apply wf_trunkPut
    | with_reducible apply wf_countSuppressed | dsimp only | split

theorem wf_doVNop (d : DieId) (x : Fin 2) {s : State} (hs : s.wf = true) :
    State.wf (doVNop d x s) = true := by
  unfold doVNop
  repeat' first
    | intro _ | with_reducible assumption | with_reducible apply wf_vxRun | dsimp only

theorem wf_doVEnd (d : DieId) (x : Fin 2) {s : State} (hs : s.wf = true) :
    State.wf (doVEnd d x s) = true := by
  unfold doVEnd
  repeat' first
    | intro _ | with_reducible assumption | with_reducible apply wf_vxFault | with_reducible apply wf_forUntil
    | with_reducible apply wf_trunkWriteWord | with_reducible apply wf_tallyQty | with_reducible apply wf_setSout
    | with_reducible apply wf_onVx | with_reducible apply wf_ite | with_reducible apply wf_ite_fst
    | (refine wf_of_eq (by assumption) ?_) | dsimp only | simp only [wf_mk] | split

theorem wf_doVLoop (d : DieId) (x : Fin 2) {s : State} (hs : s.wf = true) :
    State.wf (doVLoop d x s) = true := by
  unfold doVLoop
  repeat' first
    | intro _ | with_reducible assumption | with_reducible apply wf_vxRun | with_reducible apply wf_onVx
    | with_reducible apply wf_ite | with_reducible apply wf_ite_fst | (refine wf_of_eq (by assumption) ?_)
    | dsimp only | simp only [wf_mk] | split

theorem wf_doVEndl (d : DieId) (x : Fin 2) {s : State} (hs : s.wf = true) :
    State.wf (doVEndl d x s) = true := by
  unfold doVEndl
  repeat' first
    | intro _ | with_reducible assumption | with_reducible apply wf_vxRun | with_reducible apply wf_onVx
    | with_reducible apply wf_ite | with_reducible apply wf_ite_fst | (refine wf_of_eq (by assumption) ?_)
    | dsimp only | simp only [wf_mk] | split

theorem wf_doAmovi (d : DieId) (x : Fin 2) {s : State} (hs : s.wf = true) :
    State.wf (doAmovi d x s) = true := by
  unfold doAmovi
  repeat' first
    | intro _ | with_reducible assumption | with_reducible apply wf_vxRun | with_reducible apply wf_vxBody
    | dsimp only

theorem wf_doAaddi (d : DieId) (x : Fin 2) {s : State} (hs : s.wf = true) :
    State.wf (doAaddi d x s) = true := by
  unfold doAaddi
  repeat' first
    | intro _ | with_reducible assumption | with_reducible apply wf_vxRun | with_reducible apply wf_vxBody
    | dsimp only

theorem wf_doAadd (d : DieId) (x : Fin 2) {s : State} (hs : s.wf = true) :
    State.wf (doAadd d x s) = true := by
  unfold doAadd
  repeat' first
    | intro _ | with_reducible assumption | with_reducible apply wf_vxRun | with_reducible apply wf_vxBody
    | dsimp only

theorem wf_withScalar (d : DieId) (x : Fin 2) (f : VIn → D → Vx → Vx) (_t : Nat) (w : VIn) {s : State} (hs : s.wf = true) :
    State.wf (withScalar d x f _t w s).1 = true := by
  unfold withScalar
  repeat' first
    | intro _ | with_reducible assumption | with_reducible apply wf_onVx | (refine wf_of_eq (by assumption) ?_)
    | dsimp only | split

theorem wf_doAmovs (d : DieId) (x : Fin 2) {s : State} (hs : s.wf = true) :
    State.wf (doAmovs d x s) = true := by
  unfold doAmovs
  repeat' first
    | intro _ | with_reducible assumption | with_reducible apply wf_vxRun | with_reducible apply wf_withScalar
    | dsimp only

theorem wf_doMpop (d : DieId) (x : Fin 2) {s : State} (hs : s.wf = true) :
    State.wf (doMpop d x s) = true := by
  unfold doMpop
  repeat' first
    | intro _ | with_reducible assumption | with_reducible apply wf_vxRun | with_reducible apply wf_vxBody
    | dsimp only

theorem wf_doSout (d : DieId) (x : Fin 2) {s : State} (hs : s.wf = true) :
    State.wf (doSout d x s) = true := by
  unfold doSout
  repeat' first
    | intro _ | with_reducible assumption | with_reducible apply wf_vxRun | with_reducible apply wf_vxBody
    | dsimp only | simp only [wf_mk]

theorem wf_doVbcast (d : DieId) (x : Fin 2) {s : State} (hs : s.wf = true) :
    State.wf (doVbcast d x s) = true := by
  unfold doVbcast
  repeat' first
    | intro _ | with_reducible assumption | with_reducible apply wf_vxRun | with_reducible apply wf_withScalar
    | with_reducible apply wf_ite | with_reducible apply wf_ite_fst | dsimp only | split

theorem wf_doVmovi (d : DieId) (x : Fin 2) {s : State} (hs : s.wf = true) :
    State.wf (doVmovi d x s) = true := by
  unfold doVmovi
  repeat' first
    | intro _ | with_reducible assumption | with_reducible apply wf_vxRun | with_reducible apply wf_laneBody
    | with_reducible apply wf_ite | with_reducible apply wf_ite_fst | dsimp only | split

theorem wf_doViota (d : DieId) (x : Fin 2) {s : State} (hs : s.wf = true) :
    State.wf (doViota d x s) = true := by
  unfold doViota
  repeat' first
    | intro _ | with_reducible assumption | with_reducible apply wf_vxRun | with_reducible apply wf_laneBody
    | dsimp only

theorem wf_doVsel (d : DieId) (x : Fin 2) {s : State} (hs : s.wf = true) :
    State.wf (doVsel d x s) = true := by
  unfold doVsel
  repeat' first
    | intro _ | with_reducible assumption | with_reducible apply wf_vxRun | with_reducible apply wf_vxBody
    | with_reducible apply wf_ite | with_reducible apply wf_ite_fst | dsimp only | split

theorem wf_doVmov (d : DieId) (x : Fin 2) {s : State} (hs : s.wf = true) :
    State.wf (doVmov d x s) = true := by
  unfold doVmov
  repeat' first
    | intro _ | with_reducible assumption | with_reducible apply wf_vxRun | with_reducible apply wf_laneBody
    | dsimp only

theorem wf_doVadd (d : DieId) (x : Fin 2) {s : State} (hs : s.wf = true) :
    State.wf (doVadd d x s) = true := by
  unfold doVadd
  repeat' first
    | intro _ | with_reducible assumption | with_reducible apply wf_vxRun | with_reducible apply wf_arithBody
    | dsimp only

theorem wf_doVsub (d : DieId) (x : Fin 2) {s : State} (hs : s.wf = true) :
    State.wf (doVsub d x s) = true := by
  unfold doVsub
  repeat' first
    | intro _ | with_reducible assumption | with_reducible apply wf_vxRun | with_reducible apply wf_arithBody
    | dsimp only

theorem wf_doVmul (d : DieId) (x : Fin 2) {s : State} (hs : s.wf = true) :
    State.wf (doVmul d x s) = true := by
  unfold doVmul
  repeat' first
    | intro _ | with_reducible assumption | with_reducible apply wf_vxRun | with_reducible apply wf_arithBody
    | dsimp only

theorem wf_doVfma (d : DieId) (x : Fin 2) {s : State} (hs : s.wf = true) :
    State.wf (doVfma d x s) = true := by
  unfold doVfma
  repeat' first
    | intro _ | with_reducible assumption | with_reducible apply wf_vxRun | with_reducible apply wf_arithBody
    | dsimp only

theorem wf_doVfnma (d : DieId) (x : Fin 2) {s : State} (hs : s.wf = true) :
    State.wf (doVfnma d x s) = true := by
  unfold doVfnma
  repeat' first
    | intro _ | with_reducible assumption | with_reducible apply wf_vxRun | with_reducible apply wf_arithBody
    | dsimp only

theorem wf_doVmin (d : DieId) (x : Fin 2) {s : State} (hs : s.wf = true) :
    State.wf (doVmin d x s) = true := by
  unfold doVmin
  repeat' first
    | intro _ | with_reducible assumption | with_reducible apply wf_vxRun | with_reducible apply wf_arithBody
    | dsimp only

theorem wf_doVmax (d : DieId) (x : Fin 2) {s : State} (hs : s.wf = true) :
    State.wf (doVmax d x s) = true := by
  unfold doVmax
  repeat' first
    | intro _ | with_reducible assumption | with_reducible apply wf_vxRun | with_reducible apply wf_arithBody
    | dsimp only

theorem wf_doVabs (d : DieId) (x : Fin 2) {s : State} (hs : s.wf = true) :
    State.wf (doVabs d x s) = true := by
  unfold doVabs
  repeat' first
    | intro _ | with_reducible assumption | with_reducible apply wf_vxRun | with_reducible apply wf_arithBody
    | dsimp only

theorem wf_doVneg (d : DieId) (x : Fin 2) {s : State} (hs : s.wf = true) :
    State.wf (doVneg d x s) = true := by
  unfold doVneg
  repeat' first
    | intro _ | with_reducible assumption | with_reducible apply wf_vxRun | with_reducible apply wf_arithBody
    | dsimp only

theorem wf_doVdiv (d : DieId) (x : Fin 2) {s : State} (hs : s.wf = true) :
    State.wf (doVdiv d x s) = true := by
  unfold doVdiv
  repeat' first
    | intro _ | with_reducible assumption | with_reducible apply wf_vxRun | with_reducible apply wf_arithBody
    | dsimp only

theorem wf_doVsqrt (d : DieId) (x : Fin 2) {s : State} (hs : s.wf = true) :
    State.wf (doVsqrt d x s) = true := by
  unfold doVsqrt
  repeat' first
    | intro _ | with_reducible assumption | with_reducible apply wf_vxRun | with_reducible apply wf_arithBody
    | dsimp only

theorem wf_doVrsqrt (d : DieId) (x : Fin 2) {s : State} (hs : s.wf = true) :
    State.wf (doVrsqrt d x s) = true := by
  unfold doVrsqrt
  repeat' first
    | intro _ | with_reducible assumption | with_reducible apply wf_vxRun | with_reducible apply wf_arithBody
    | dsimp only

theorem wf_doVrcp (d : DieId) (x : Fin 2) {s : State} (hs : s.wf = true) :
    State.wf (doVrcp d x s) = true := by
  unfold doVrcp
  repeat' first
    | intro _ | with_reducible assumption | with_reducible apply wf_vxRun | with_reducible apply wf_arithBody
    | dsimp only

theorem wf_doVexp (d : DieId) (x : Fin 2) {s : State} (hs : s.wf = true) :
    State.wf (doVexp d x s) = true := by
  unfold doVexp
  repeat' first
    | intro _ | with_reducible assumption | with_reducible apply wf_vxRun | with_reducible apply wf_arithBody
    | dsimp only

theorem wf_doVlog (d : DieId) (x : Fin 2) {s : State} (hs : s.wf = true) :
    State.wf (doVlog d x s) = true := by
  unfold doVlog
  repeat' first
    | intro _ | with_reducible assumption | with_reducible apply wf_vxRun | with_reducible apply wf_arithBody
    | dsimp only

theorem wf_doVtanh (d : DieId) (x : Fin 2) {s : State} (hs : s.wf = true) :
    State.wf (doVtanh d x s) = true := by
  unfold doVtanh
  repeat' first
    | intro _ | with_reducible assumption | with_reducible apply wf_vxRun | with_reducible apply wf_arithBody
    | dsimp only

theorem wf_doCvtfi (d : DieId) (x : Fin 2) {s : State} (hs : s.wf = true) :
    State.wf (doCvtfi d x s) = true := by
  unfold doCvtfi
  repeat' first
    | intro _ | with_reducible assumption | with_reducible apply wf_vxRun | with_reducible apply wf_foldl
    | with_reducible apply wf_countConv | with_reducible apply wf_onVx | with_reducible apply wf_ite
    | with_reducible apply wf_ite_fst | with_reducible apply wf_tallyQty | with_reducible apply wf_raise | dsimp only | split

theorem wf_doCvtif (d : DieId) (x : Fin 2) {s : State} (hs : s.wf = true) :
    State.wf (doCvtif d x s) = true := by
  unfold doCvtif
  repeat' first
    | intro _ | with_reducible assumption | with_reducible apply wf_vxRun | with_reducible apply wf_laneBody
    | dsimp only

theorem wf_doIadd (d : DieId) (x : Fin 2) {s : State} (hs : s.wf = true) :
    State.wf (doIadd d x s) = true := by
  unfold doIadd
  repeat' first
    | intro _ | with_reducible assumption | with_reducible apply wf_vxRun | with_reducible apply wf_intBody
    | dsimp only

theorem wf_doIsub (d : DieId) (x : Fin 2) {s : State} (hs : s.wf = true) :
    State.wf (doIsub d x s) = true := by
  unfold doIsub
  repeat' first
    | intro _ | with_reducible assumption | with_reducible apply wf_vxRun | with_reducible apply wf_intBody
    | dsimp only

theorem wf_doImul (d : DieId) (x : Fin 2) {s : State} (hs : s.wf = true) :
    State.wf (doImul d x s) = true := by
  unfold doImul
  repeat' first
    | intro _ | with_reducible assumption | with_reducible apply wf_vxRun | with_reducible apply wf_intBody
    | dsimp only

theorem wf_doIand (d : DieId) (x : Fin 2) {s : State} (hs : s.wf = true) :
    State.wf (doIand d x s) = true := by
  unfold doIand
  repeat' first
    | intro _ | with_reducible assumption | with_reducible apply wf_vxRun | with_reducible apply wf_intBody
    | dsimp only

theorem wf_doIor (d : DieId) (x : Fin 2) {s : State} (hs : s.wf = true) :
    State.wf (doIor d x s) = true := by
  unfold doIor
  repeat' first
    | intro _ | with_reducible assumption | with_reducible apply wf_vxRun | with_reducible apply wf_intBody
    | dsimp only

theorem wf_doIxor (d : DieId) (x : Fin 2) {s : State} (hs : s.wf = true) :
    State.wf (doIxor d x s) = true := by
  unfold doIxor
  repeat' first
    | intro _ | with_reducible assumption | with_reducible apply wf_vxRun | with_reducible apply wf_intBody
    | dsimp only

theorem wf_doIshl (d : DieId) (x : Fin 2) {s : State} (hs : s.wf = true) :
    State.wf (doIshl d x s) = true := by
  unfold doIshl
  repeat' first
    | intro _ | with_reducible assumption | with_reducible apply wf_vxRun | with_reducible apply wf_intBody
    | dsimp only

theorem wf_doIshr (d : DieId) (x : Fin 2) {s : State} (hs : s.wf = true) :
    State.wf (doIshr d x s) = true := by
  unfold doIshr
  repeat' first
    | intro _ | with_reducible assumption | with_reducible apply wf_vxRun | with_reducible apply wf_intBody
    | dsimp only

theorem wf_doCmpeq (d : DieId) (x : Fin 2) {s : State} (hs : s.wf = true) :
    State.wf (doCmpeq d x s) = true := by
  unfold doCmpeq
  repeat' first
    | intro _ | with_reducible assumption | with_reducible apply wf_vxRun | with_reducible apply wf_cmpBody
    | dsimp only

theorem wf_doCmpne (d : DieId) (x : Fin 2) {s : State} (hs : s.wf = true) :
    State.wf (doCmpne d x s) = true := by
  unfold doCmpne
  repeat' first
    | intro _ | with_reducible assumption | with_reducible apply wf_vxRun | with_reducible apply wf_cmpBody
    | dsimp only

theorem wf_doCmplt (d : DieId) (x : Fin 2) {s : State} (hs : s.wf = true) :
    State.wf (doCmplt d x s) = true := by
  unfold doCmplt
  repeat' first
    | intro _ | with_reducible assumption | with_reducible apply wf_vxRun | with_reducible apply wf_cmpBody
    | dsimp only

theorem wf_doCmple (d : DieId) (x : Fin 2) {s : State} (hs : s.wf = true) :
    State.wf (doCmple d x s) = true := by
  unfold doCmple
  repeat' first
    | intro _ | with_reducible assumption | with_reducible apply wf_vxRun | with_reducible apply wf_cmpBody
    | dsimp only

theorem wf_doMand (d : DieId) (x : Fin 2) {s : State} (hs : s.wf = true) :
    State.wf (doMand d x s) = true := by
  unfold doMand
  repeat' first
    | intro _ | with_reducible assumption | with_reducible apply wf_vxRun | with_reducible apply wf_maskBody
    | dsimp only

theorem wf_doMor (d : DieId) (x : Fin 2) {s : State} (hs : s.wf = true) :
    State.wf (doMor d x s) = true := by
  unfold doMor
  repeat' first
    | intro _ | with_reducible assumption | with_reducible apply wf_vxRun | with_reducible apply wf_maskBody
    | dsimp only

theorem wf_doMandn (d : DieId) (x : Fin 2) {s : State} (hs : s.wf = true) :
    State.wf (doMandn d x s) = true := by
  unfold doMandn
  repeat' first
    | intro _ | with_reducible assumption | with_reducible apply wf_vxRun | with_reducible apply wf_maskBody
    | dsimp only

theorem wf_doMnot (d : DieId) (x : Fin 2) {s : State} (hs : s.wf = true) :
    State.wf (doMnot d x s) = true := by
  unfold doMnot
  repeat' first
    | intro _ | with_reducible assumption | with_reducible apply wf_vxRun | with_reducible apply wf_maskBody
    | dsimp only

theorem wf_doMset (d : DieId) (x : Fin 2) {s : State} (hs : s.wf = true) :
    State.wf (doMset d x s) = true := by
  unfold doMset
  repeat' first
    | intro _ | with_reducible assumption | with_reducible apply wf_vxRun | with_reducible apply wf_maskBody
    | dsimp only

theorem wf_doVredsum (d : DieId) (x : Fin 2) {s : State} (hs : s.wf = true) :
    State.wf (doVredsum d x s) = true := by
  unfold doVredsum
  repeat' first
    | intro _ | with_reducible assumption | with_reducible apply wf_vxRun | with_reducible apply wf_vxBody
    | with_reducible apply wf_ite | with_reducible apply wf_ite_fst | dsimp only | split

theorem wf_doVredmax (d : DieId) (x : Fin 2) {s : State} (hs : s.wf = true) :
    State.wf (doVredmax d x s) = true := by
  unfold doVredmax
  repeat' first
    | intro _ | with_reducible assumption | with_reducible apply wf_vxRun | with_reducible apply wf_vxBody
    | with_reducible apply wf_ite | with_reducible apply wf_ite_fst | dsimp only | split

theorem wf_doCompress (d : DieId) (x : Fin 2) {s : State} (hs : s.wf = true) :
    State.wf (doCompress d x s) = true := by
  unfold doCompress
  repeat' first
    | intro _ | with_reducible assumption | with_reducible apply wf_vxRun | with_reducible apply wf_vxBody
    | dsimp only

theorem wf_doExpand (d : DieId) (x : Fin 2) {s : State} (hs : s.wf = true) :
    State.wf (doExpand d x s) = true := by
  unfold doExpand
  repeat' first
    | intro _ | with_reducible assumption | with_reducible apply wf_vxRun | with_reducible apply wf_laneBody
    | dsimp only

theorem wf_doVld (d : DieId) (x : Fin 2) {s : State} (hs : s.wf = true) :
    State.wf (doVld d x s) = true := by
  unfold doVld
  repeat' first
    | intro _ | with_reducible assumption | with_reducible apply wf_vxRun | with_reducible apply wf_loadBody
    | dsimp only

theorem wf_doVst (d : DieId) (x : Fin 2) {s : State} (hs : s.wf = true) :
    State.wf (doVst d x s) = true := by
  unfold doVst
  repeat' first
    | intro _ | with_reducible assumption | with_reducible apply wf_vxRun | with_reducible apply wf_storeBody
    | dsimp only

theorem wf_doVstg (d : DieId) (x : Fin 2) {s : State} (hs : s.wf = true) :
    State.wf (doVstg d x s) = true := by
  unfold doVstg
  repeat' first
    | intro _ | with_reducible assumption | with_reducible apply wf_vxRun | with_reducible apply wf_vstgBody
    | dsimp only

theorem wf_doVstgx (d : DieId) (x : Fin 2) {s : State} (hs : s.wf = true) :
    State.wf (doVstgx d x s) = true := by
  unfold doVstgx
  repeat' first
    | intro _ | with_reducible assumption | with_reducible apply wf_vxRun | with_reducible apply wf_vstgxBody
    | dsimp only

theorem wf_doVldx (d : DieId) (x : Fin 2) {s : State} (hs : s.wf = true) :
    State.wf (doVldx d x s) = true := by
  unfold doVldx
  repeat' first
    | intro _ | with_reducible assumption | with_reducible apply wf_vxRun | with_reducible apply wf_loadBody
    | dsimp only

theorem wf_doVstx (d : DieId) (x : Fin 2) {s : State} (hs : s.wf = true) :
    State.wf (doVstx d x s) = true := by
  unfold doVstx
  repeat' first
    | intro _ | with_reducible assumption | with_reducible apply wf_vxRun | with_reducible apply wf_storeBody
    | dsimp only

theorem wf_doVstc (d : DieId) (x : Fin 2) {s : State} (hs : s.wf = true) : State.wf (doVstc d x s) = true := by
  unfold doVstc
  refine wf_vxRun _ _ _ _ ?_ hs
  intro t w s hs
  dsimp only
  split
  · exact hs
  · split
    · exact hs
    · split
      · exact hs
      · split
        · rename_i e; exact wf_bumpPair _ _ _ _ (wf_of_eq e (wf_storeRun _ _ _ _ _ _ _ _ hs))
        · rename_i e; exact wf_of_eq e (wf_storeRun _ _ _ _ _ _ _ _ hs)

theorem wf_doVlde (d : DieId) (x : Fin 2) {s : State} (hs : s.wf = true) :
    State.wf (doVlde d x s) = true := by
  unfold doVlde
  repeat' first
    | intro _ | with_reducible assumption | with_reducible apply wf_vxRun | with_reducible apply wf_vLoad
    | with_reducible apply wf_bumpPair | with_reducible apply wf_vPlace | (refine wf_of_eq (by assumption) ?_)
    | dsimp only | simp only [wf_mk] | split

theorem wf_doVldacc (d : DieId) (x : Fin 2) {s : State} (hs : s.wf = true) :
    State.wf (doVldacc d x s) = true := by
  unfold doVldacc
  repeat' first
    | intro _ | with_reducible assumption | with_reducible apply wf_vxRun | with_reducible apply wf_vldaccBody
    | dsimp only

theorem wf_doMld (d : DieId) (x : Fin 2) {s : State} (hs : s.wf = true) :
    State.wf (doMld d x s) = true := by
  unfold doMld
  repeat' first
    | intro _ | with_reducible assumption | with_reducible apply wf_vxRun | with_reducible apply wf_mldBody
    | dsimp only

theorem wf_doMst (d : DieId) (x : Fin 2) {s : State} (hs : s.wf = true) :
    State.wf (doMst d x s) = true := by
  unfold doMst
  repeat' first
    | intro _ | with_reducible assumption | with_reducible apply wf_vxRun | with_reducible apply wf_mstBody
    | dsimp only

theorem wf_doVrand (d : DieId) (x : Fin 2) {s : State} (hs : s.wf = true) :
    State.wf (doVrand d x s) = true := by
  unfold doVrand
  repeat' first
    | intro _ | with_reducible assumption | with_reducible apply wf_vxRun | with_reducible apply wf_onVx
    | with_reducible apply wf_ite | with_reducible apply wf_ite_fst | (refine wf_of_eq (by assumption) ?_)
    | dsimp only | simp only [wf_mk] | split

theorem wf_vxComplete (d : DieId) (tk : Task) {s : State} (hs : s.wf = true) :
    State.wf (vxComplete d tk s) = true := by
  unfold vxComplete
  repeat' first
    | intro _ | with_reducible assumption | with_reducible apply wf_tallyAdd | dsimp only

end Sys2Proof.Machine
end

