-- ==== Sys2Proof/Laws/WfRow.lean ====
section
/-!
SUPPORT. Laws/WfRow.lean: what Machine/Row.lean changes of the sparse maps of the package keeps their canonical form.
-/
namespace Sys2Proof.Machine

theorem wf_statsWrite (d : DieId) (i : Img) (t : Tensor) (row : Nat) (w0 w1 : W) {s : State} (hs : s.wf = true) :
    State.wf (statsWrite d i t row w0 w1 s).1 = true := by
  unfold statsWrite
  repeat' first
    | intro _ | with_reducible assumption | with_reducible apply wf_tallyAdd | with_reducible apply wf_onDie
    | with_reducible apply wf_memWrite | with_reducible apply wf_raise | with_reducible apply wf_ite
    | with_reducible apply wf_ite_fst | (refine wf_of_eq (by assumption) ?_) | dsimp only | simp only [wf_mk] | split

theorem wf_statsRead (d : DieId) (i : Img) (t : Tensor) (row : Nat) {s : State} (hs : s.wf = true) :
    State.wf (statsRead d i t row s).1 = true := by
  unfold statsRead
  repeat' first
    | intro _ | with_reducible assumption | with_reducible apply wf_tallyAdd | with_reducible apply wf_memRead
    | with_reducible apply wf_raise | with_reducible apply wf_ite | with_reducible apply wf_ite_fst
    | (refine wf_of_eq (by assumption) ?_) | dsimp only | simp only [wf_mk] | split

theorem wf_rowIn (c : RowCtx) (k : Nat) (row : Nat) (n : Nat) {s : State} (hs : s.wf = true) :
    State.wf (rowIn c k row n s).1 = true := by
  unfold rowIn
  repeat' first
    | intro _ | with_reducible assumption | with_reducible apply wf_readVals | with_reducible apply wf_memRead
    | with_reducible apply wf_tallyQty | with_reducible apply wf_raise | with_reducible apply wf_ite
    | with_reducible apply wf_ite_fst | (refine wf_of_eq (by assumption) ?_) | dsimp only | simp only [wf_mk] | split

theorem wf_rowOpt (c : RowCtx) (k : Nat) (z : W) {s : State} (hs : s.wf = true) :
    State.wf (rowOpt c k z s).1 = true := by
  unfold rowOpt
  repeat' first
    | intro _ | with_reducible assumption | with_reducible apply wf_rowIn | with_reducible apply wf_ite
    | with_reducible apply wf_ite_fst | dsimp only | split

theorem wf_rowOut (c : RowCtx) (k : Nat) (row : Nat) (xs : List W) {s : State} (hs : s.wf = true) :
    State.wf (rowOut c k row xs s).1 = true := by
  unfold rowOut
  repeat' first
    | intro _ | with_reducible assumption | with_reducible apply wf_storeX32 | with_reducible apply wf_memWrite
    | with_reducible apply wf_watchWrite | with_reducible apply wf_tallyQty | with_reducible apply wf_ite
    | with_reducible apply wf_ite_fst | (refine wf_of_eq (by assumption) ?_) | dsimp only | simp only [wf_mk] | split

theorem wf_rowDone (d : DieId) {s : State} (hs : s.wf = true) :
    State.wf (rowDone d s) = true := by
  unfold rowDone
  repeat' first
    | intro _ | with_reducible assumption | with_reducible apply wf_tallyAdd | with_reducible apply wf_sf | dsimp only

theorem wf_rowLoop {α : Type} (c : RowCtx) (f : Nat → α → State → State × Nat × α) (v1 : List Nat) (v2 : α) {v3 : State} (hf : ∀ (u1 : Nat) (u2 : α) (u3 : State), u3.wf = true → State.wf (f u1 u2 u3).1 = true) (hv3 : v3.wf = true) :
    State.wf (rowLoop c f v1 v2 v3).1 = true := by
  induction v1 generalizing v2 v3 hv3 with
  | nil =>
    unfold rowLoop
    repeat' first
      | intro _ | with_reducible assumption | with_reducible apply wf_rowDone | with_reducible apply hf
      | (refine wf_of_eq (by assumption) ?_) | dsimp only | split
  | cons x xs ih =>
    unfold rowLoop
    repeat' first
      | intro _ | with_reducible assumption | with_reducible apply ih | with_reducible apply wf_rowDone | with_reducible apply hf
      | (refine wf_of_eq (by assumption) ?_) | dsimp only | split

theorem wf_andThen {α β : Type} (x : State × Nat × α) (z : β) (f : α → State → State × Nat × β)
    (hf : ∀ (u1 : α) (u2 : State), u2.wf = true → State.wf (f u1 u2).1 = true) (hx : x.1.wf = true) :
    State.wf (andThen x z f).1 = true := by
  unfold andThen
  split
  · exact hf _ _ hx
  · exact hx

theorem wf_andDo {β : Type} (x : State × Nat) (z : β) (f : State → State × Nat × β)
    (hf : ∀ (u1 : State), u1.wf = true → State.wf (f u1).1 = true) (hx : x.1.wf = true) :
    State.wf (andDo x z f).1 = true := by
  unfold andDo
  split
  · exact hf _ hx
  · exact hx

theorem wf_accOut (c : RowCtx) (k : Nat) (xs : List W) {s : State} (hs : s.wf = true) :
    State.wf (accOut c k xs s).1 = true := by
  unfold accOut
  repeat' first
    | intro _ | with_reducible assumption | with_reducible apply wf_rowOut | with_reducible apply wf_ite
    | with_reducible apply wf_ite_fst | dsimp only | split

theorem wf_lnFwd (c : RowCtx) {s : State} (hs : s.wf = true) :
    State.wf (lnFwd c s).1 = true := by
  unfold lnFwd
  repeat' first
    | intro _ | with_reducible assumption | with_reducible apply wf_andThen | with_reducible apply wf_rowOpt
    | with_reducible apply wf_rowLoop | with_reducible apply wf_rowIn | with_reducible apply wf_andDo
    | with_reducible apply wf_rowOut | with_reducible apply wf_statsWrite | dsimp only

theorem wf_lnBwd (c : RowCtx) {s : State} (hs : s.wf = true) :
    State.wf (lnBwd c s).1 = true := by
  unfold lnBwd
  repeat' first
    | intro _ | with_reducible assumption | with_reducible apply wf_andThen | with_reducible apply wf_rowOpt
    | with_reducible apply wf_rowLoop | with_reducible apply wf_rowIn | with_reducible apply wf_statsRead
    | with_reducible apply wf_andDo | with_reducible apply wf_rowOut | with_reducible apply wf_accOut | dsimp only

theorem wf_rmsFwd (c : RowCtx) {s : State} (hs : s.wf = true) :
    State.wf (rmsFwd c s).1 = true := by
  unfold rmsFwd
  repeat' first
    | intro _ | with_reducible assumption | with_reducible apply wf_andThen | with_reducible apply wf_rowOpt
    | with_reducible apply wf_rowLoop | with_reducible apply wf_rowIn | with_reducible apply wf_andDo
    | with_reducible apply wf_rowOut | with_reducible apply wf_statsWrite | dsimp only

theorem wf_rmsBwd (c : RowCtx) {s : State} (hs : s.wf = true) :
    State.wf (rmsBwd c s).1 = true := by
  unfold rmsBwd
  repeat' first
    | intro _ | with_reducible assumption | with_reducible apply wf_andThen | with_reducible apply wf_rowOpt
    | with_reducible apply wf_rowLoop | with_reducible apply wf_rowIn | with_reducible apply wf_statsRead
    | with_reducible apply wf_andDo | with_reducible apply wf_rowOut | with_reducible apply wf_accOut | dsimp only

theorem wf_smaxFwd (c : RowCtx) {s : State} (hs : s.wf = true) :
    State.wf (smaxFwd c s).1 = true := by
  unfold smaxFwd
  repeat' first
    | intro _ | with_reducible assumption | with_reducible apply wf_rowLoop | with_reducible apply wf_andThen
    | with_reducible apply wf_rowIn | with_reducible apply wf_andDo | with_reducible apply wf_rowOut
    | with_reducible apply wf_statsWrite | dsimp only

theorem wf_smaxBwd (c : RowCtx) {s : State} (hs : s.wf = true) :
    State.wf (smaxBwd c s).1 = true := by
  unfold smaxBwd
  repeat' first
    | intro _ | with_reducible assumption | with_reducible apply wf_rowLoop | with_reducible apply wf_andThen
    | with_reducible apply wf_rowIn | with_reducible apply wf_statsRead | with_reducible apply wf_andDo
    | with_reducible apply wf_rowOut | dsimp only

theorem wf_loss (c : RowCtx) {s : State} (hs : s.wf = true) :
    State.wf (loss c s).1 = true := by
  unfold loss
  repeat' first
    | intro _ | with_reducible assumption | with_reducible apply wf_rowLoop | with_reducible apply wf_andThen
    | with_reducible apply wf_rowIn | with_reducible apply wf_andDo | with_reducible apply wf_statsWrite
    | with_reducible apply wf_rowOut | with_reducible apply wf_tallyAdd | with_reducible apply wf_setSout
    | with_reducible apply wf_ite | with_reducible apply wf_ite_fst | (refine wf_of_eq (by assumption) ?_)
    | dsimp only | simp only [wf_mk] | split

theorem wf_rowIssue (d : DieId) (t opcode : Nat) (f : RowCtx → State → State × Nat) {s : State} (hf : ∀ (u1 : RowCtx) (u2 : State), u2.wf = true → State.wf (f u1 u2).1 = true) (hs : s.wf = true) :
    State.wf (rowIssue d t opcode f s) = true := by
  unfold rowIssue
  repeat' first
    | intro _ | with_reducible assumption | with_reducible apply wf_issueWith | with_reducible apply wf_wr
    | with_reducible apply hf | dsimp only

theorem wf_doLnFwd (d : DieId) (t : Nat) {s : State} (hs : s.wf = true) :
    State.wf (doLnFwd d t s) = true := by
  unfold doLnFwd
  repeat' first
    | intro _ | with_reducible assumption | with_reducible apply wf_rowIssue | with_reducible apply wf_lnFwd
    | dsimp only

theorem wf_doLnBwd (d : DieId) (t : Nat) {s : State} (hs : s.wf = true) :
    State.wf (doLnBwd d t s) = true := by
  unfold doLnBwd
  repeat' first
    | intro _ | with_reducible assumption | with_reducible apply wf_rowIssue | with_reducible apply wf_lnBwd
    | dsimp only

theorem wf_doRmsFwd (d : DieId) (t : Nat) {s : State} (hs : s.wf = true) :
    State.wf (doRmsFwd d t s) = true := by
  unfold doRmsFwd
  repeat' first
    | intro _ | with_reducible assumption | with_reducible apply wf_rowIssue | with_reducible apply wf_rmsFwd
    | dsimp only

theorem wf_doRmsBwd (d : DieId) (t : Nat) {s : State} (hs : s.wf = true) :
    State.wf (doRmsBwd d t s) = true := by
  unfold doRmsBwd
  repeat' first
    | intro _ | with_reducible assumption | with_reducible apply wf_rowIssue | with_reducible apply wf_rmsBwd
    | dsimp only

theorem wf_doSmaxFwd (d : DieId) (t : Nat) {s : State} (hs : s.wf = true) :
    State.wf (doSmaxFwd d t s) = true := by
  unfold doSmaxFwd
  repeat' first
    | intro _ | with_reducible assumption | with_reducible apply wf_rowIssue | with_reducible apply wf_smaxFwd
    | dsimp only

theorem wf_doSmaxBwd (d : DieId) (t : Nat) {s : State} (hs : s.wf = true) :
    State.wf (doSmaxBwd d t s) = true := by
  unfold doSmaxBwd
  repeat' first
    | intro _ | with_reducible assumption | with_reducible apply wf_rowIssue | with_reducible apply wf_smaxBwd
    | dsimp only

theorem wf_doLoss (d : DieId) (t : Nat) {s : State} (hs : s.wf = true) :
    State.wf (doLoss d t s) = true := by
  unfold doLoss
  repeat' first
    | intro _ | with_reducible assumption | with_reducible apply wf_rowIssue | with_reducible apply wf_loss
    | dsimp only

theorem wf_shelfActivate (d : DieId) (i : Img) {s : State} (hs : s.wf = true) :
    State.wf (shelfActivate d i s) = true := by
  unfold shelfActivate
  repeat' first
    | intro _ | with_reducible assumption | with_reducible apply wf_wr | with_reducible apply wf_foldl | dsimp only

end Sys2Proof.Machine
end

