-- ==== Sys2Proof/Laws/WfMover.lean ====
section
/-!
SUPPORT. Laws/WfMover.lean: what Machine/Mover.lean changes of the sparse maps of the package keeps their canonical form.
-/
namespace Sys2Proof.Machine

theorem wf_mvFaultAddr (p a : Nat) {s : State} (hs : s.wf = true) :
    State.wf (mvFaultAddr p a s) = true := by
  unfold mvFaultAddr
  repeat' first
    | intro _ | with_reducible assumption | with_reducible apply wf_wr64 | dsimp only

theorem wf_mvReader (d : DieId) (p : Nat) (t : Tensor) (v1 : Nat) (v2 : Nat) {v3 : State} (hv3 : v3.wf = true) :
    State.wf (mvReader d p t v1 v2 v3).1 = true := by
  induction v1 generalizing v2 v3 hv3 with
  | zero =>
    unfold mvReader
    repeat' first
      | intro _ | with_reducible assumption | with_reducible apply wf_moverRead | with_reducible apply wf_tallyQty
      | with_reducible apply wf_mvFaultAddr | (refine wf_of_eq (by assumption) ?_) | dsimp only | split
  | succ n ih =>
    unfold mvReader
    repeat' first
      | intro _ | with_reducible assumption | with_reducible apply ih | with_reducible apply wf_moverRead | with_reducible apply wf_tallyQty
      | with_reducible apply wf_mvFaultAddr | (refine wf_of_eq (by assumption) ?_) | dsimp only | split

theorem wf_mvWriter (d : DieId) (p : Nat) (v1 : Nat) (v2 : List Byte) {v3 : State} (hv3 : v3.wf = true) :
    State.wf (mvWriter d p v1 v2 v3).1 = true := by
  induction v1 generalizing v2 v3 hv3 with
  | zero =>
    unfold mvWriter
    repeat' first
      | intro _ | with_reducible assumption | with_reducible apply wf_memWrite | with_reducible apply wf_tallyQty
      | with_reducible apply wf_mvFaultAddr | (refine wf_of_eq (by assumption) ?_) | dsimp only | split
  | succ n ih =>
    unfold mvWriter
    repeat' first
      | intro _ | with_reducible assumption | with_reducible apply ih | with_reducible apply wf_memWrite | with_reducible apply wf_tallyQty
      | with_reducible apply wf_mvFaultAddr | (refine wf_of_eq (by assumption) ?_) | dsimp only | split

theorem wf_mvCount (c : MvCtx) (conv : Bool) (n : Cnt) {s : State} (hs : s.wf = true) :
    State.wf (mvCount c conv n s) = true := by
  unfold mvCount
  repeat' first
    | intro _ | with_reducible assumption | with_reducible apply wf_watchWrite | with_reducible apply wf_tallyQty
    | with_reducible apply wf_raise | with_reducible apply wf_ite | with_reducible apply wf_ite_fst | dsimp only
    | split

theorem wf_mvRaw (c : MvCtx) (sr dr : Nat) {s : State} (hs : s.wf = true) :
    State.wf (mvRaw c sr dr s).1 = true := by
  unfold mvRaw
  repeat' first
    | intro _ | with_reducible assumption | with_reducible apply wf_readCodes | with_reducible apply wf_mvReader
    | with_reducible apply wf_storeCodes | with_reducible apply wf_mvWriter | with_reducible apply wf_mvCount
    | (refine wf_of_eq (by assumption) ?_) | dsimp only | split

theorem wf_mvGroups (c : MvCtx) (sr dr : Nat) {s : State} (hs : s.wf = true) :
    State.wf (mvGroups c sr dr s).1 = true := by
  unfold mvGroups
  repeat' first
    | intro _ | with_reducible assumption | with_reducible apply wf_mvReader | with_reducible apply wf_readCodes
    | with_reducible apply wf_readScales | with_reducible apply wf_storeCodes | with_reducible apply wf_mvWriter
    | with_reducible apply wf_forUntil | with_reducible apply wf_writeScale | with_reducible apply wf_mvCount
    | with_reducible apply wf_ite | with_reducible apply wf_ite_fst | (refine wf_of_eq (by assumption) ?_)
    | dsimp only | simp only [wf_mk] | split

theorem wf_mvConvert (c : MvCtx) (sr : Nat) (dr : Nat) {s : State} (hs : s.wf = true) :
    State.wf (mvConvert c sr dr s).1 = true := by
  unfold mvConvert
  repeat' first
    | intro _ | with_reducible assumption | with_reducible apply wf_readX32 | with_reducible apply wf_mvReader
    | with_reducible apply wf_storeX32 | with_reducible apply wf_mvWriter | with_reducible apply wf_mvCount
    | (refine wf_of_eq (by assumption) ?_) | dsimp only | simp only [wf_mk] | split

theorem wf_mvRow (c : MvCtx) (sr dr : Nat) {s : State} (hs : s.wf = true) :
    State.wf (mvRow c sr dr s).1 = true := by
  unfold mvRow
  repeat' first
    | intro _ | with_reducible assumption | with_reducible apply wf_mvRaw | with_reducible apply wf_mvGroups
    | with_reducible apply wf_mvConvert | with_reducible apply wf_ite | with_reducible apply wf_ite_fst | dsimp only
    | split

theorem wf_listEntry (c : MvCtx) (r : Nat) {s : State} (hs : s.wf = true) :
    State.wf (listEntry c r s).1 = true := by
  unfold listEntry
  repeat' first
    | intro _ | with_reducible assumption | with_reducible apply wf_mvReader | (refine wf_of_eq (by assumption) ?_)
    | dsimp only | simp only [wf_mk] | split

theorem wf_mvRowDone (p : Nat) {s : State} (hs : s.wf = true) :
    State.wf (mvRowDone p s) = true := by
  unfold mvRowDone
  repeat' first
    | intro _ | with_reducible assumption | with_reducible apply wf_sf | dsimp only

theorem wf_mvTaskRow (c : MvCtx) (op r : Nat) {s : State} (hs : s.wf = true) :
    State.wf (mvTaskRow c op r s).1 = true := by
  unfold mvTaskRow
  repeat' first
    | intro _ | with_reducible assumption | with_reducible apply wf_mvRow | with_reducible apply wf_mvRowDone
    | with_reducible apply wf_listEntry | with_reducible apply wf_tallyAdd | with_reducible apply wf_mvFaultAddr
    | with_reducible apply wf_ite | with_reducible apply wf_ite_fst | (refine wf_of_eq (by assumption) ?_)
    | dsimp only | simp only [wf_mk] | split

theorem wf_mvWork (d : DieId) (t op : Nat) (i : Img) (tk : Task) {s : State} (hs : s.wf = true) :
    State.wf (mvWork d t op i tk s).1 = true := by
  unfold mvWork
  repeat' first
    | intro _ | with_reducible assumption | with_reducible apply wf_forUntil | with_reducible apply wf_mvTaskRow
    | with_reducible apply wf_wr | with_reducible apply wf_ite | with_reducible apply wf_ite_fst | dsimp only | split

theorem wf_mvIssue (d : DieId) (t : Nat) (op : Nat) {s : State} (hs : s.wf = true) :
    State.wf (mvIssue d t op s) = true := by
  unfold mvIssue
  repeat' first
    | intro _ | with_reducible assumption | with_reducible apply wf_issueWith | with_reducible apply wf_mvWork
    | with_reducible apply wf_ite | with_reducible apply wf_ite_fst | (refine wf_of_eq (by assumption) ?_) | dsimp only
    | simp only [wf_mk] | split

theorem wf_doMvCopy (d : DieId) (t : Nat) {s : State} (hs : s.wf = true) :
    State.wf (doMvCopy d t s) = true := by
  unfold doMvCopy
  repeat' first
    | intro _ | with_reducible assumption | with_reducible apply wf_mvIssue | dsimp only

theorem wf_doMvGather (d : DieId) (t : Nat) {s : State} (hs : s.wf = true) :
    State.wf (doMvGather d t s) = true := by
  unfold doMvGather
  repeat' first
    | intro _ | with_reducible assumption | with_reducible apply wf_mvIssue | dsimp only

theorem wf_doScatter (d : DieId) (t : Nat) {s : State} (hs : s.wf = true) :
    State.wf (doScatter d t s) = true := by
  unfold doScatter
  repeat' first
    | intro _ | with_reducible assumption | with_reducible apply wf_mvIssue | dsimp only

theorem wf_doLineRequest (d : DieId) (src : DieId) (addr : Nat) (k : LineKind) {s : State} (hs : s.wf = true) :
    State.wf (doLineRequest d src addr k s) = true := by
  unfold doLineRequest
  repeat' first
    | intro _ | with_reducible assumption | with_reducible apply wf_ask | with_reducible apply wf_swPost
    | with_reducible apply wf_emit | with_reducible apply wf_readRange | with_reducible apply wf_onDie
    | with_reducible apply wf_emits | with_reducible apply wf_memWrite | with_reducible apply wf_ite
    | with_reducible apply wf_ite_fst | (refine wf_of_eq (by assumption) ?_) | dsimp only | simp only [wf_mk] | split

theorem wf_doLineResponse (d : DieId) (addr : Nat) (data : List Byte) {s : State} (hs : s.wf = true) :
    State.wf (doLineResponse d addr data s) = true := by
  unfold doLineResponse
  repeat' first
    | intro _ | with_reducible assumption | with_reducible apply wf_onDie | with_reducible apply wf_tallyAdd
    | with_reducible apply wf_loftFill | with_reducible apply wf_ite | with_reducible apply wf_ite_fst
    | (refine wf_of_eq (by assumption) ?_) | dsimp only | simp only [wf_mk] | split

theorem wf_loftFlushAll (d : DieId) {s : State} (hs : s.wf = true) :
    State.wf (loftFlushAll d s) = true := by
  unfold loftFlushAll
  repeat' first
    | intro _ | with_reducible assumption | with_reducible apply wf_loftDrop | dsimp only

theorem wf_loftTick (d : DieId) (all : Bool) {s : State} (hs : s.wf = true) :
    State.wf (loftTick d all s) = true := by
  unfold loftTick
  repeat' first
    | intro _ | with_reducible assumption | with_reducible apply wf_tallyQty | with_reducible apply wf_loftDrop
    | with_reducible apply wf_ite | with_reducible apply wf_ite_fst | dsimp only | split

theorem wf_loftDropHome (d h : DieId) {s : State} (hs : s.wf = true) :
    State.wf (loftDropHome d h s) = true := by
  unfold loftDropHome
  repeat' first
    | intro _ | with_reducible assumption | with_reducible apply wf_loftDrop | dsimp only

theorem wf_mvComplete (d : DieId) (tk : Task) {s : State} (hs : s.wf = true) :
    State.wf (mvComplete d tk s) = true := by
  unfold mvComplete
  repeat' first
    | intro _ | with_reducible assumption | with_reducible apply wf_tallyAdd | dsimp only

end Sys2Proof.Machine
end

