-- ==== Sys2Proof/Laws/WfUpdate.lean ====
section
/-!
SUPPORT. Laws/WfUpdate.lean: what Machine/Update.lean changes of the sparse maps of the package keeps their canonical form.
-/
namespace Sys2Proof.Machine

theorem wf_countSr (d : DieId) (rs : List (Nat × Cnt × Bool × Bool)) {s : State} (hs : s.wf = true) :
    State.wf (countSr d rs s) = true := by
  unfold countSr
  repeat' first
    | intro _ | with_reducible assumption | with_reducible apply wf_tallyQty | dsimp only

theorem wf_updRow (d : DieId) (x : Fin 2) (t : Nat) (i : Img) (tk : Task) (adam : Bool) (p : UpdP) (k : UpdK) (r : Nat)
    {s : State} (hs : s.wf = true) :
    State.wf (updRow d x t i tk adam p k r s).1 = true := by
  unfold updRow
  repeat' first
    | intro _ | with_reducible assumption | with_reducible apply wf_memRead | with_reducible apply wf_readX32
    | with_reducible apply wf_countConv | with_reducible apply wf_andThen | with_reducible apply wf_storeCodes
    | with_reducible apply wf_memWrite | with_reducible apply wf_countSr | with_reducible apply wf_countStore
    | with_reducible apply wf_foldl | with_reducible apply wf_storeX32 | with_reducible apply wf_andDo
    | with_reducible apply wf_forUntil | with_reducible apply wf_tallyQty | with_reducible apply wf_ite
    | with_reducible apply wf_ite_fst | (refine wf_of_eq (by assumption) ?_) | with_reducible apply wf_wr | dsimp only
    | simp only [wf_mk] | split

theorem wf_updWork (d : DieId) (t : Nat) (adam : Bool) (i : Img) (tk : Task) {s : State} (hs : s.wf = true) :
    State.wf (updWork d t adam i tk s).1 = true := by
  unfold updWork
  repeat' first
    | intro _ | with_reducible assumption | with_reducible apply wf_readX32 | with_reducible apply wf_memRead
    | with_reducible apply wf_forUntil | with_reducible apply wf_updRow | with_reducible apply wf_ite
    | with_reducible apply wf_ite_fst | (refine wf_of_eq (by assumption) ?_) | dsimp only | simp only [wf_mk] | split

theorem wf_updIssue (d : DieId) (t : Nat) (adam : Bool) {s : State} (hs : s.wf = true) :
    State.wf (updIssue d t adam s) = true := by
  unfold updIssue
  repeat' first
    | intro _ | with_reducible assumption | with_reducible apply wf_issueWith | with_reducible apply wf_updWork
    | with_reducible apply wf_ite | with_reducible apply wf_ite_fst | dsimp only | split

theorem wf_doMom (d : DieId) (t : Nat) {s : State} (hs : s.wf = true) :
    State.wf (doMom d t s) = true := by
  unfold doMom
  repeat' first
    | intro _ | with_reducible assumption | with_reducible apply wf_updIssue | dsimp only

theorem wf_doAdam (d : DieId) (t : Nat) {s : State} (hs : s.wf = true) :
    State.wf (doAdam d t s) = true := by
  unfold doAdam
  repeat' first
    | intro _ | with_reducible assumption | with_reducible apply wf_updIssue | dsimp only

theorem wf_mapEntries (d : DieId) (ids : List Nat) (f : VEntry → VEntry) {s : State} (hs : s.wf = true) :
    State.wf (mapEntries d ids f s) = true := by
  unfold mapEntries
  repeat' first
    | intro _ | with_reducible assumption | with_reducible apply wf_forEach | with_reducible apply wf_onDie
    | dsimp only | simp only [wf_mk]

theorem wf_flipEntries (d : DieId) (step : Nat) {s : State} (hs : s.wf = true) :
    State.wf (flipEntries d step s) = true := by
  unfold flipEntries
  repeat' first
    | intro _ | with_reducible assumption | with_reducible apply wf_onDie | with_reducible apply wf_sf
    | with_reducible apply wf_tallyAdd | with_reducible apply wf_ite | with_reducible apply wf_ite_fst
    | with_reducible apply wf_foldl | dsimp only | simp only [wf_mk] | split

theorem wf_dropPending (d : DieId) {s : State} (hs : s.wf = true) :
    State.wf (dropPending d s) = true := by
  unfold dropPending
  repeat' first
    | intro _ | with_reducible assumption | with_reducible apply wf_mapEntries | dsimp only | simp only [wf_mk]

theorem wf_takeOver (d : DieId) (old : Option Img) (new : Img) {s : State} (hs : s.wf = true) :
    State.wf (takeOver d old new s) = true := by
  unfold takeOver
  repeat' first
    | intro _ | with_reducible assumption | with_reducible apply wf_onDie | with_reducible apply wf_foldl
    | (refine wf_of_eq (by assumption) ?_) | dsimp only | simp only [wf_mk] | split

theorem wf_updSetValid (d : DieId) {s : State} (hs : s.wf = true) :
    State.wf (updSetValid d s) = true := by
  unfold updSetValid
  repeat' first
    | intro _ | with_reducible assumption | with_reducible apply wf_sf | dsimp only

theorem wf_updInitTable (d : DieId) {s : State} (hs : s.wf = true) :
    State.wf (updInitTable d s) = true := by
  unfold updInitTable
  repeat' first
    | intro _ | with_reducible assumption | with_reducible apply wf_updSetValid | with_reducible apply wf_onDie
    | dsimp only | simp only [wf_mk]

theorem wf_updForgetTable (d : DieId) {s : State} (hs : s.wf = true) :
    State.wf (updForgetTable d s) = true := by
  unfold updForgetTable
  repeat' first
    | intro _ | with_reducible assumption | with_reducible apply wf_sf | dsimp only

theorem wf_updComplete (d : DieId) (tk : Task) {s : State} (hs : s.wf = true) :
    State.wf (updComplete d tk s) = true := by
  unfold updComplete
  repeat' first
    | intro _ | with_reducible assumption | with_reducible apply wf_tallyAdd | with_reducible apply wf_vxComplete
    | dsimp only

end Sys2Proof.Machine
end

