-- ==== Sys2Proof/Laws/WfQueue.lean ====
section
/-!
SUPPORT. Laws/WfQueue.lean: what Machine/Queue.lean changes of the sparse maps of the package keeps their canonical form.
-/
namespace Sys2Proof.Machine

theorem wf_setProd (q v : Nat) {s : State} (hs : s.wf = true) :
    State.wf (setProd q v s) = true := by
  unfold setProd
  repeat' first
    | intro _ | with_reducible assumption | with_reducible apply wf_wr64 | dsimp only

theorem wf_setMark (q v : Nat) {s : State} (hs : s.wf = true) :
    State.wf (setMark q v s) = true := by
  unfold setMark
  repeat' first
    | intro _ | with_reducible assumption | with_reducible apply wf_wr64 | dsimp only

theorem wf_setRd (q v : Nat) {s : State} (hs : s.wf = true) :
    State.wf (setRd q v s) = true := by
  unfold setRd
  repeat' first
    | intro _ | with_reducible assumption | with_reducible apply wf_wr64 | with_reducible apply wf_onQueue
    | with_reducible apply wf_ite | with_reducible apply wf_ite_fst | dsimp only | simp only [wf_mk] | split

theorem wf_feedPut (q type tag dropped : Nat) (payload : List Byte) {s : State} (hs : s.wf = true) :
    State.wf (feedPut q type tag dropped payload s).1 = true := by
  unfold feedPut
  repeat' first
    | intro _ | with_reducible assumption | with_reducible apply wf_memWrite | with_reducible apply wf_tallyAdd
    | with_reducible apply wf_setProd | (refine wf_of_eq (by assumption) ?_) | dsimp only | simp only [wf_mk] | split

theorem wf_feedGap (q : Nat) {s : State} (hs : s.wf = true) :
    State.wf (feedGap q s) = true := by
  unfold feedGap
  repeat' first
    | intro _ | with_reducible assumption | with_reducible apply wf_feedPut | with_reducible apply wf_raise
    | with_reducible apply wf_tallyAdd | with_reducible apply wf_onQueue | (refine wf_of_eq (by assumption) ?_)
    | dsimp only | simp only [wf_mk] | split

theorem wf_feedItem (q tag : Nat) (payload : List Byte) {s : State} (hs : s.wf = true) :
    State.wf (feedItem q tag payload s).1 = true := by
  unfold feedItem
  repeat' first
    | intro _ | with_reducible assumption | with_reducible apply wf_feedGap | with_reducible apply wf_feedPut
    | with_reducible apply wf_tallyAdd | with_reducible apply wf_onQueue | with_reducible apply wf_ite
    | with_reducible apply wf_ite_fst | dsimp only | simp only [wf_mk] | split

theorem wf_gapOnRelease (q : Nat) {s : State} (hs : s.wf = true) :
    State.wf (gapOnRelease q s) = true := by
  unfold gapOnRelease
  repeat' first
    | intro _ | with_reducible assumption | with_reducible apply wf_feedGap | with_reducible apply wf_qGapOnRelease
    | with_reducible apply wf_ite | with_reducible apply wf_ite_fst | dsimp only | split

theorem wf_releaseTo (q v : Nat) {s : State} (hs : s.wf = true) :
    State.wf (releaseTo q v s) = true := by
  unfold releaseTo
  repeat' first
    | intro _ | with_reducible assumption | with_reducible apply wf_setMark | with_reducible apply wf_wr64
    | with_reducible apply wf_gapOnRelease | with_reducible apply wf_tallyAdd | with_reducible apply wf_ite
    | with_reducible apply wf_ite_fst | dsimp only | split

theorem wf_markQueue (q : Nat) {s : State} (hs : s.wf = true) :
    State.wf (markQueue q s) = true := by
  unfold markQueue
  repeat' first
    | intro _ | with_reducible assumption | with_reducible apply wf_setMark | dsimp only

theorem wf_rewindQueue (q : Nat) {s : State} (hs : s.wf = true) :
    State.wf (rewindQueue q s) = true := by
  unfold rewindQueue
  repeat' first
    | intro _ | with_reducible assumption | with_reducible apply wf_tallyAdd | with_reducible apply wf_setRd
    | dsimp only

theorem wf_truncateQueue (q : Nat) {s : State} (hs : s.wf = true) :
    State.wf (truncateQueue q s) = true := by
  unfold truncateQueue
  repeat' first
    | intro _ | with_reducible assumption | with_reducible apply wf_onQueue | with_reducible apply wf_setProd
    | dsimp only | simp only [wf_mk]

theorem wf_doorbellConsume (q n : Nat) {s : State} (hs : s.wf = true) :
    State.wf (doorbellConsume q n s) = true := by
  unfold doorbellConsume
  repeat' first
    | intro _ | with_reducible assumption | with_reducible apply wf_releaseTo | with_reducible apply wf_setRd
    | dsimp only

theorem wf_clearCounts (q : Nat) {s : State} (hs : s.wf = true) :
    State.wf (clearCounts q s) = true := by
  unfold clearCounts
  repeat' first
    | intro _ | with_reducible assumption | with_reducible apply wf_setProd | with_reducible apply wf_setMark
    | with_reducible apply wf_wr64 | with_reducible apply wf_setRd | dsimp only

theorem wf_feedRelease (d : DieId) {s : State} (hs : s.wf = true) :
    State.wf (feedRelease d s) = true := by
  unfold feedRelease
  repeat' first
    | intro _ | with_reducible assumption | with_reducible apply wf_forEach | with_reducible apply wf_releaseTo
    | dsimp only

theorem wf_feedMark (d : DieId) {s : State} (hs : s.wf = true) :
    State.wf (feedMark d s) = true := by
  unfold feedMark
  repeat' first
    | intro _ | with_reducible assumption | with_reducible apply wf_forEach | with_reducible apply wf_markQueue
    | dsimp only

theorem wf_feedRewind (d : DieId) {s : State} (hs : s.wf = true) :
    State.wf (feedRewind d s) = true := by
  unfold feedRewind
  repeat' first
    | intro _ | with_reducible assumption | with_reducible apply wf_forEach | with_reducible apply wf_rewindQueue
    | dsimp only

theorem wf_feedCopy (d : DieId) (t : Nat) (v : View) (q n a stride : Nat) {s : State} (hs : s.wf = true) :
    State.wf (feedCopy d t v q n a stride s).1 = true := by
  unfold feedCopy
  repeat' first
    | intro _ | with_reducible assumption | with_reducible apply wf_memRead | with_reducible apply wf_memWrite
    | with_reducible apply wf_crcFeed | with_reducible apply wf_ite | with_reducible apply wf_ite_fst
    | (refine wf_of_eq (by assumption) ?_) | dsimp only | simp only [wf_mk] | split

theorem wf_feedWork (d : DieId) (t : Nat) (i : Img) (tk : Task) {s : State} (hs : s.wf = true) :
    State.wf (feedWork d t i tk s).1 = true := by
  unfold feedWork
  repeat' first
    | intro _ | with_reducible assumption | with_reducible apply wf_setRd | with_reducible apply wf_feedCopy
    | with_reducible apply wf_setSout | with_reducible apply wf_ite | with_reducible apply wf_ite_fst
    | with_reducible apply wf_foldl | dsimp only | split

theorem wf_doFeed (d : DieId) (t : Nat) {s : State} (hs : s.wf = true) :
    State.wf (doFeed d t s) = true := by
  unfold doFeed
  repeat' first
    | intro _ | with_reducible assumption | with_reducible apply wf_issueWith | with_reducible apply wf_feedWork
    | dsimp only

end Sys2Proof.Machine
end

