-- ==== Sys2Proof/Laws/WfLink.lean ====
section
/-!
SUPPORT. Laws/WfLink.lean: what Machine/Link.lean changes of the sparse maps of the package keeps their canonical form.
-/
namespace Sys2Proof.Machine

theorem wf_sendOne (p : PortId) (c : Nat) {s : State} (hs : s.wf = true) :
    State.wf (sendOne p c s) = true := by
  unfold sendOne
  repeat' first
    | intro _ | with_reducible assumption | with_reducible apply wf_tallyQty | with_reducible apply wf_emit
    | with_reducible apply wf_onPort | with_reducible apply wf_ite | with_reducible apply wf_ite_fst
    | (refine wf_of_eq (by assumption) ?_) | dsimp only | simp only [wf_mk] | split

theorem wf_pumpN (p : PortId) (v1 : Nat) {v2 : State} (hv2 : v2.wf = true) :
    State.wf (pumpN p v1 v2) = true := by
  induction v1 generalizing v2 hv2 with
  | zero =>
    unfold pumpN
    repeat' first
      | intro _ | with_reducible assumption | with_reducible apply wf_sendOne | (refine wf_of_eq (by assumption) ?_)
      | dsimp only | split
  | succ n ih =>
    unfold pumpN
    repeat' first
      | intro _ | with_reducible assumption | with_reducible apply ih | with_reducible apply wf_sendOne | (refine wf_of_eq (by assumption) ?_)
      | dsimp only | split

theorem wf_pump (p : PortId) {s : State} (hs : s.wf = true) :
    State.wf (pump p s) = true := by
  unfold pump
  repeat' first
    | intro _ | with_reducible assumption | with_reducible apply wf_pumpN | with_reducible apply wf_ite
    | with_reducible apply wf_ite_fst | with_reducible apply wf_foldl | dsimp only | split

theorem wf_sendNull (p : PortId) (nak : Bool) {s : State} (hs : s.wf = true) :
    State.wf (sendNull p nak s) = true := by
  unfold sendNull
  repeat' first
    | intro _ | with_reducible assumption | with_reducible apply wf_emit | with_reducible apply wf_onPort | dsimp only

theorem wf_sendNak (p : PortId) {s : State} (hs : s.wf = true) :
    State.wf (sendNak p s) = true := by
  unfold sendNak
  repeat' first
    | intro _ | with_reducible assumption | with_reducible apply wf_sendNull | with_reducible apply wf_tallyAdd
    | with_reducible apply wf_onPort | dsimp only | simp only [wf_mk]

theorem wf_sendOn (p : PortId) (m : LinkMsg) {s : State} (hs : s.wf = true) :
    State.wf (sendOn p m s) = true := by
  unfold sendOn
  repeat' first
    | intro _ | with_reducible assumption | with_reducible apply wf_pump | with_reducible apply wf_emit
    | with_reducible apply wf_onPort | dsimp only | simp only [wf_mk]

theorem wf_originate (d : DieId) (cls : Nat) (kind : Nat) (dst : Nat) (flow : Nat) (epoch : Nat) (payload : List Byte)
    {s : State} (hs : s.wf = true) :
    State.wf (originate d cls kind dst flow epoch payload s).1 = true := by
  unfold originate
  repeat' first
    | intro _ | with_reducible assumption | with_reducible apply wf_sendOn | with_reducible apply wf_swPost
    | with_reducible apply wf_ite | with_reducible apply wf_ite_fst | (refine wf_of_eq (by assumption) ?_) | dsimp only
    | simp only [wf_mk] | split

theorem wf_lostExport (fs : List Flit) {s : State} (hs : s.wf = true) :
    State.wf (lostExport fs s) = true := by
  unfold lostExport
  repeat' first
    | intro _ | with_reducible assumption | with_reducible apply wf_forEach | with_reducible apply wf_failCause
    | with_reducible apply wf_ite | with_reducible apply wf_ite_fst | dsimp only | split

theorem wf_lostCe (fs : List Flit) {s : State} (hs : s.wf = true) :
    State.wf (lostCe fs s) = true := by
  unfold lostCe
  repeat' first
    | intro _ | with_reducible assumption | with_reducible apply wf_forEach | with_reducible apply wf_onDie
    | with_reducible apply wf_ite | with_reducible apply wf_ite_fst | dsimp only | simp only [wf_mk] | split

theorem wf_leaveActive (p : PortId) {s : State} (hs : s.wf = true) :
    State.wf (leaveActive p s) = true := by
  unfold leaveActive
  repeat' first
    | intro _ | with_reducible assumption | with_reducible apply wf_tallyAdd | with_reducible apply wf_sf
    | with_reducible apply wf_onPort | with_reducible apply wf_lostCe | with_reducible apply wf_lostExport
    | with_reducible apply wf_raise | with_reducible apply wf_pump | with_reducible apply wf_ite
    | with_reducible apply wf_ite_fst | (refine wf_of_eq (by assumption) ?_) | dsimp only | simp only [wf_mk] | split

theorem wf_setPortState (p : PortId) (st : Nat) {s : State} (hs : s.wf = true) :
    State.wf (setPortState p st s) = true := by
  unfold setPortState
  repeat' first
    | intro _ | with_reducible assumption | with_reducible apply wf_sf | dsimp only

theorem wf_setPortCause (p : PortId) (st cause : Nat) {s : State} (hs : s.wf = true) :
    State.wf (setPortCause p st cause s) = true := by
  unfold setPortCause
  repeat' first
    | intro _ | with_reducible assumption | with_reducible apply wf_setPortState | with_reducible apply wf_sf
    | dsimp only

theorem wf_failPort (p : PortId) (cause : Nat) {s : State} (hs : s.wf = true) :
    State.wf (failPort p cause s) = true := by
  unfold failPort
  repeat' first
    | intro _ | with_reducible assumption | with_reducible apply wf_raise | with_reducible apply wf_leaveActive
    | with_reducible apply wf_setPortCause | with_reducible apply wf_ite | with_reducible apply wf_ite_fst
    | dsimp only | split

theorem wf_stopPort (p : PortId) {s : State} (hs : s.wf = true) :
    State.wf (stopPort p s) = true := by
  unfold stopPort
  repeat' first
    | intro _ | with_reducible assumption | with_reducible apply wf_leaveActive | with_reducible apply wf_setPortCause
    | with_reducible apply wf_setPortState | (refine wf_of_eq (by assumption) ?_) | dsimp only | split

theorem wf_startPort (p : PortId) {s : State} (hs : s.wf = true) :
    State.wf (startPort p s) = true := by
  unfold startPort
  repeat' first
    | intro _ | with_reducible assumption | with_reducible apply wf_setPortState | with_reducible apply wf_tallyAdd
    | with_reducible apply wf_ite | with_reducible apply wf_ite_fst | dsimp only | split

theorem wf_doPmdTrained (p : PortId) {s : State} (hs : s.wf = true) :
    State.wf (doPmdTrained p s) = true := by
  unfold doPmdTrained
  repeat' first
    | intro _ | with_reducible assumption | with_reducible apply wf_setPortState | with_reducible apply wf_ite
    | with_reducible apply wf_ite_fst | dsimp only | split

theorem wf_doAmLock (p : PortId) {s : State} (hs : s.wf = true) :
    State.wf (doAmLock p s) = true := by
  unfold doAmLock
  repeat' first
    | intro _ | with_reducible assumption | with_reducible apply wf_emit | with_reducible apply wf_setPortState
    | with_reducible apply wf_ite | with_reducible apply wf_ite_fst | dsimp only | split

theorem wf_doTrainTimeout (p : PortId) {s : State} (hs : s.wf = true) :
    State.wf (doTrainTimeout p s) = true := by
  unfold doTrainTimeout
  repeat' first
    | intro _ | with_reducible assumption | with_reducible apply wf_setPortCause | with_reducible apply wf_ite
    | with_reducible apply wf_ite_fst | (refine wf_of_eq (by assumption) ?_) | dsimp only | split

theorem wf_doHelloSend (p : PortId) {s : State} (hs : s.wf = true) :
    State.wf (doHelloSend p s) = true := by
  unfold doHelloSend
  repeat' first
    | intro _ | with_reducible assumption | with_reducible apply wf_emit | with_reducible apply wf_ite
    | with_reducible apply wf_ite_fst | dsimp only | split

theorem wf_doHello (p : PortId) (h : Hello) {s : State} (hs : s.wf = true) :
    State.wf (doHello p h s) = true := by
  unfold doHello
  repeat' first
    | intro _ | with_reducible assumption | with_reducible apply wf_setPortCause | with_reducible apply wf_raise
    | with_reducible apply wf_blockErr | with_reducible apply wf_wr | with_reducible apply wf_sf
    | with_reducible apply wf_onPort | with_reducible apply wf_setPortState | with_reducible apply wf_emits
    | with_reducible apply wf_ite | with_reducible apply wf_ite_fst | dsimp only | simp only [wf_mk] | split

theorem wf_activatePort (p : PortId) (lat : Nat) {s : State} (hs : s.wf = true) :
    State.wf (activatePort p lat s) = true := by
  unfold activatePort
  repeat' first
    | intro _ | with_reducible assumption | with_reducible apply wf_onPort | with_reducible apply wf_sf
    | with_reducible apply wf_raise | with_reducible apply wf_setPortState | dsimp only | simp only [wf_mk]

theorem wf_doProbe (p : PortId) (pr : Probe) {s : State} (hs : s.wf = true) :
    State.wf (doProbe p pr s) = true := by
  unfold doProbe
  repeat' first
    | intro _ | with_reducible assumption | with_reducible apply wf_emit | with_reducible apply wf_onPort
    | with_reducible apply wf_activatePort | with_reducible apply wf_ite | with_reducible apply wf_ite_fst
    | (refine wf_of_eq (by assumption) ?_) | dsimp only | simp only [wf_mk] | split

theorem wf_doLossOfLock (p : PortId) {s : State} (hs : s.wf = true) :
    State.wf (doLossOfLock p s) = true := by
  unfold doLossOfLock
  repeat' first
    | intro _ | with_reducible assumption | with_reducible apply wf_failPort | dsimp only

theorem wf_doDead (p : PortId) {s : State} (hs : s.wf = true) :
    State.wf (doDead p s) = true := by
  unfold doDead
  repeat' first
    | intro _ | with_reducible assumption | with_reducible apply wf_failPort | dsimp only

theorem wf_doAutoRetrain (p : PortId) {s : State} (hs : s.wf = true) :
    State.wf (doAutoRetrain p s) = true := by
  unfold doAutoRetrain
  repeat' first
    | intro _ | with_reducible assumption | with_reducible apply wf_startPort | with_reducible apply wf_ite
    | with_reducible apply wf_ite_fst | dsimp only | split

theorem wf_lpCtrlAction (p : PortId) (retrain : Bool) {s : State} (hs : s.wf = true) :
    State.wf (lpCtrlAction p retrain s) = true := by
  unfold lpCtrlAction
  repeat' first
    | intro _ | with_reducible assumption | with_reducible apply wf_stopPort | with_reducible apply wf_startPort
    | with_reducible apply wf_ite | with_reducible apply wf_ite_fst | dsimp only | split

theorem wf_takeAck (p : PortId) (a : Nat) {s : State} (hs : s.wf = true) :
    State.wf (takeAck p a s) = true := by
  unfold takeAck
  repeat' first
    | intro _ | with_reducible assumption | with_reducible apply wf_onPort | with_reducible apply wf_ite
    | with_reducible apply wf_ite_fst | dsimp only | simp only [wf_mk] | split

theorem wf_takeCredits (p : PortId) (cs : List Nat) {s : State} (hs : s.wf = true) :
    State.wf (takeCredits p cs s) = true := by
  unfold takeCredits
  repeat' first
    | intro _ | with_reducible assumption | with_reducible apply wf_onPort | dsimp only | simp only [wf_mk]

theorem wf_doNak (p : PortId) (seq : Nat) {s : State} (hs : s.wf = true) :
    State.wf (doNak p seq s) = true := by
  unfold doNak
  repeat' first
    | intro _ | with_reducible assumption | with_reducible apply wf_takeAck | with_reducible apply wf_onPort
    | with_reducible apply wf_failPort | with_reducible apply wf_pump | with_reducible apply wf_tallyAdd
    | with_reducible apply wf_emits | with_reducible apply wf_ite | with_reducible apply wf_ite_fst | dsimp only
    | simp only [wf_mk] | split

theorem wf_freeCredits (p : PortId) (c n : Nat) {s : State} (hs : s.wf = true) :
    State.wf (freeCredits p c n s) = true := by
  unfold freeCredits
  repeat' first
    | intro _ | with_reducible assumption | with_reducible apply wf_onPort | dsimp only | simp only [wf_mk]

theorem wf_reassemble (p : PortId) (q : PortId) (f : Flit) {s : State} (hs : s.wf = true) :
    State.wf (reassemble p q f s) = true := by
  unfold reassemble
  repeat' first
    | intro _ | with_reducible assumption | with_reducible apply wf_freeCredits | with_reducible apply wf_onPort
    | with_reducible apply wf_ite | with_reducible apply wf_ite_fst | dsimp only | simp only [wf_mk] | split

theorem wf_failoverFlit (p : PortId) (f : Flit) {s : State} (hs : s.wf = true) :
    State.wf (failoverFlit p f s) = true := by
  unfold failoverFlit
  repeat' first
    | intro _ | with_reducible assumption | with_reducible apply wf_freeCredits | with_reducible apply wf_tallyAdd
    | with_reducible apply wf_onPort | with_reducible apply wf_reassemble | with_reducible apply wf_sf
    | with_reducible apply wf_ite | with_reducible apply wf_ite_fst | dsimp only | simp only [wf_mk] | split

theorem wf_acceptFlit (p : PortId) (f : Flit) {s : State} (hs : s.wf = true) :
    State.wf (acceptFlit p f s) = true := by
  unfold acceptFlit
  repeat' first
    | intro _ | with_reducible assumption | with_reducible apply wf_tallyQty | with_reducible apply wf_onPort
    | with_reducible apply wf_takeCredits | with_reducible apply wf_takeAck | with_reducible apply wf_failoverFlit
    | with_reducible apply wf_reassemble | with_reducible apply wf_ite | with_reducible apply wf_ite_fst | dsimp only
    | simp only [wf_mk] | split

theorem wf_fecCount (p : PortId) (fec : Fec) {s : State} (hs : s.wf = true) :
    State.wf (fecCount p fec s) = true := by
  unfold fecCount
  repeat' first
    | intro _ | with_reducible assumption | with_reducible apply wf_tallyQty | with_reducible apply wf_tallyAdd
    | with_reducible apply wf_onPort | with_reducible apply wf_failPort | with_reducible apply wf_ite
    | with_reducible apply wf_ite_fst | dsimp only | simp only [wf_mk] | split

theorem wf_takeFlit (p : PortId) (bytes : List Byte) (fec : Fec) {s0 : State} (hs0 : s0.wf = true) :
    State.wf (takeFlit p bytes fec s0) = true := by
  unfold takeFlit
  repeat' first
    | intro _ | with_reducible assumption | with_reducible apply wf_fecCount | with_reducible apply wf_tallyAdd
    | with_reducible apply wf_sendNak | with_reducible apply wf_takeCredits | with_reducible apply wf_takeAck
    | with_reducible apply wf_pump | with_reducible apply wf_doNak | with_reducible apply wf_acceptFlit
    | with_reducible apply wf_sendNull | with_reducible apply wf_ite | with_reducible apply wf_ite_fst | dsimp only | split

theorem wf_rtSwapArm (d : DieId) {s : State} (hs : s.wf = true) :
    State.wf (rtSwapArm d s) = true := by
  unfold rtSwapArm
  repeat' first
    | intro _ | with_reducible assumption | with_reducible apply wf_sf | dsimp only

theorem wf_rtCopyBank (d : DieId) {s : State} (hs : s.wf = true) :
    State.wf (rtCopyBank d s) = true := by
  unfold rtCopyBank
  repeat' first
    | intro _ | with_reducible assumption | with_reducible apply wf_onDie | dsimp only | simp only [wf_mk]

theorem wf_rtExchange (d : DieId) {s : State} (hs : s.wf = true) :
    State.wf (rtExchange d s) = true := by
  unfold rtExchange
  repeat' first
    | intro _ | with_reducible assumption | with_reducible apply wf_onDie | with_reducible apply wf_forEach
    | with_reducible apply wf_raise | with_reducible apply wf_sf | with_reducible apply wf_ite
    | with_reducible apply wf_ite_fst | dsimp only | simp only [wf_mk] | split

end Sys2Proof.Machine
end

