-- ==== Sys2Proof/Laws/WfCollective.lean ====
section
/-!
SUPPORT. Laws/WfCollective.lean: what Machine/Collective.lean changes of the sparse maps of the package keeps their canonical form.
-/
namespace Sys2Proof.Machine

theorem wf_onCe (d : DieId) (f : Ce → Ce) {s : State} (hs : s.wf = true) :
    State.wf (onCe d f s) = true := by
  unfold onCe
  repeat' first
    | intro _ | with_reducible assumption | with_reducible apply wf_onDie | dsimp only | simp only [wf_mk]

theorem wf_ceTransmit (d : DieId) (op : Nat) (dst : Nat) (m : CeMsg) {s : State} (hs : s.wf = true) :
    State.wf (ceTransmit d op dst m s).1 = true := by
  unfold ceTransmit
  repeat' first
    | intro _ | with_reducible assumption | with_reducible apply wf_emit | with_reducible apply wf_swPost
    | with_reducible apply wf_originate | with_reducible apply wf_ite | with_reducible apply wf_ite_fst | dsimp only | split

theorem wf_ceSend (d : DieId) (op : Nat) (t : Nat) (dst : Nat) (m : CeMsg) {s : State} (hs : s.wf = true) :
    State.wf (ceSend d op t dst m s).1 = true := by
  unfold ceSend
  repeat' first
    | intro _ | with_reducible assumption | with_reducible apply wf_keep | with_reducible apply wf_onCe
    | with_reducible apply wf_ceTransmit | with_reducible apply wf_tallyAdd | with_reducible apply wf_ite
    | with_reducible apply wf_ite_fst | (refine wf_of_eq (by assumption) ?_) | dsimp only | simp only [wf_mk] | split

theorem wf_ceAnswer (d : DieId) (op : Nat) (ansOp : Nat) (reason : Nat) (m : CeMsg) {s : State} (hs : s.wf = true) :
    State.wf (ceAnswer d op ansOp reason m s) = true := by
  unfold ceAnswer
  repeat' first
    | intro _ | with_reducible assumption | with_reducible apply wf_ceTransmit | dsimp only | simp only [wf_mk]

theorem wf_ceAck (d : DieId) (ansOp : Nat) (m : CeMsg) {s : State} (hs : s.wf = true) :
    State.wf (ceAck d ansOp m s) = true := by
  unfold ceAck
  repeat' first
    | intro _ | with_reducible assumption | with_reducible apply wf_ceAnswer | dsimp only

theorem wf_ceRefuse (d : DieId) (ansOp reason : Nat) (m : CeMsg) {s : State} (hs : s.wf = true) :
    State.wf (ceRefuse d ansOp reason m s) = true := by
  unfold ceRefuse
  repeat' first
    | intro _ | with_reducible assumption | with_reducible apply wf_ceAnswer | dsimp only

theorem wf_ceTake (d : DieId) (op : Nat) (m : CeMsg) (body : State → State) {s : State} (hbody : ∀ (u1 : State), u1.wf = true → State.wf (body u1) = true) (hs : s.wf = true) :
    State.wf (ceTake d op m body s) = true := by
  unfold ceTake
  repeat' first
    | intro _ | with_reducible assumption | with_reducible apply wf_tallyAdd | with_reducible apply wf_raise
    | with_reducible apply wf_ceAck | with_reducible apply hbody | with_reducible apply wf_ite
    | with_reducible apply wf_ite_fst | (refine wf_of_eq (by assumption) ?_) | dsimp only | simp only [wf_mk] | split

theorem wf_ceHold (d : DieId) (op : Nat) (m : CeMsg) {s : State} (hs : s.wf = true) :
    State.wf (ceHold d op m s) = true := by
  unfold ceHold
  repeat' first
    | intro _ | with_reducible assumption | with_reducible apply wf_onCe | dsimp only | simp only [wf_mk]

theorem wf_addPart (d : DieId) (op : Nat) (key : Nat) (m : CeMsg) (bytes : List Byte) (n : Nat) {s : State} (hs : s.wf = true) :
    State.wf (addPart d op key m bytes n s).1 = true := by
  unfold addPart
  repeat' first
    | intro _ | with_reducible assumption | with_reducible apply wf_onCe | dsimp only | simp only [wf_mk]

theorem wf_readWords (d : DieId) (a n : Nat) {s : State} (hs : s.wf = true) :
    State.wf (readWords d a n s).1 = true := by
  unfold readWords
  repeat' first
    | intro _ | with_reducible assumption | with_reducible apply wf_memRead | (refine wf_of_eq (by assumption) ?_)
    | dsimp only | split

theorem wf_writeWords (d : DieId) (a : Nat) (xs : List W) {s : State} (hs : s.wf = true) :
    State.wf (writeWords d a xs s).1 = true := by
  unfold writeWords
  repeat' first
    | intro _ | with_reducible assumption | with_reducible apply wf_memWrite | dsimp only

theorem wf_sendShard (d : DieId) (t : Nat) (i : Img) (tk : Task) (p : Nat) {s : State} (hs : s.wf = true) :
    State.wf (sendShard d t i tk p s).1 = true := by
  unfold sendShard
  repeat' first
    | intro _ | with_reducible assumption | with_reducible apply wf_readWords | with_reducible apply wf_watchWrite
    | with_reducible apply wf_forUntil | with_reducible apply wf_ceSend | with_reducible apply wf_ite
    | with_reducible apply wf_ite_fst | with_reducible apply wf_foldl | (refine wf_of_eq (by assumption) ?_)
    | dsimp only | simp only [wf_mk] | split

theorem wf_ceIssue (d : DieId) (t op : Nat) (ready : State → Img → Task → Bool) (bad : State → Img → Task → Bool) (body : Img → Task → State → State × Nat) {s : State} (hbody : ∀ (u1 : Img) (u2 : Task) (u3 : State), u3.wf = true → State.wf (body u1 u2 u3).1 = true) (hs : s.wf = true) :
    State.wf (ceIssue d t op ready bad body s) = true := by
  unfold ceIssue
  repeat' first
    | intro _ | with_reducible assumption | with_reducible apply wf_issueWith | with_reducible apply hbody
    | with_reducible apply wf_ite | with_reducible apply wf_ite_fst | (refine wf_of_eq (by assumption) ?_)
    | dsimp only | split

theorem wf_doReduce (d : DieId) (t : Nat) {s : State} (hs : s.wf = true) :
    State.wf (doReduce d t s) = true := by
  unfold doReduce
  repeat' first
    | intro _ | with_reducible assumption | with_reducible apply wf_ceIssue | with_reducible apply wf_forUntil
    | with_reducible apply wf_sendShard | dsimp only

theorem wf_foldInput (d : DieId) (i : Img) (rk : Task) (p : Nat) {s : State} (hs : s.wf = true) :
    State.wf (foldInput d i rk p s).1 = true := by
  unfold foldInput
  repeat' first
    | intro _ | with_reducible assumption | with_reducible apply wf_readWords | with_reducible apply wf_ite
    | with_reducible apply wf_ite_fst | dsimp only | split

theorem wf_foldInputs (d : DieId) (i : Img) (rk : Task) (v1 : List Nat) {v2 : State} (hv2 : v2.wf = true) :
    State.wf (foldInputs d i rk v1 v2).1 = true := by
  induction v1 generalizing v2 hv2 with
  | nil =>
    unfold foldInputs
    repeat' first
      | intro _ | with_reducible assumption | with_reducible apply wf_foldInput | (refine wf_of_eq (by assumption) ?_)
      | dsimp only | split
  | cons x xs ih =>
    unfold foldInputs
    repeat' first
      | intro _ | with_reducible assumption | with_reducible apply ih | with_reducible apply wf_foldInput | (refine wf_of_eq (by assumption) ?_)
      | dsimp only | split

theorem wf_dualCheck (d : DieId) (bucket : Nat) (sum : List W) (ins : List (Nat × List W)) (b : Nat) {s : State} (hs : s.wf = true) :
    State.wf (dualCheck d bucket sum ins b s).1 = true := by
  unfold dualCheck
  repeat' first
    | intro _ | with_reducible assumption | with_reducible apply wf_tallyAdd | with_reducible apply wf_raise
    | with_reducible apply wf_wr | (refine wf_of_eq (by assumption) ?_) | dsimp only | split

theorem wf_foldWork (d : DieId) (i : Img) (tk : Task) {s : State} (hs : s.wf = true) :
    State.wf (foldWork d i tk s).1 = true := by
  unfold foldWork
  repeat' first
    | intro _ | with_reducible assumption | with_reducible apply wf_foldInputs | with_reducible apply wf_writeWords
    | with_reducible apply wf_tallyQty | with_reducible apply wf_watchWrite | with_reducible apply wf_forUntil
    | with_reducible apply wf_dualCheck | (refine wf_of_eq (by assumption) ?_) | dsimp only | simp only [wf_mk]
    | split

theorem wf_doFold (d : DieId) (t : Nat) {s : State} (hs : s.wf = true) :
    State.wf (doFold d t s) = true := by
  unfold doFold
  repeat' first
    | intro _ | with_reducible assumption | with_reducible apply wf_ceIssue | with_reducible apply wf_foldWork
    | dsimp only

theorem wf_doContrib (d : DieId) (m : CeMsg) {s : State} (hs : s.wf = true) :
    State.wf (doContrib d m s) = true := by
  unfold doContrib
  repeat' first
    | intro _ | with_reducible assumption | with_reducible apply wf_ceTake | with_reducible apply wf_ceRefuse
    | with_reducible apply wf_writeWords | with_reducible apply wf_watchWrite | with_reducible apply wf_ceAck
    | with_reducible apply wf_tallyAdd | with_reducible apply wf_ceHold | with_reducible apply wf_ite
    | with_reducible apply wf_ite_fst | (refine wf_of_eq (by assumption) ?_) | dsimp only | simp only [wf_mk] | split

theorem wf_doCheck (d : DieId) (m : CeMsg) {s : State} (hs : s.wf = true) :
    State.wf (doCheck d m s) = true := by
  unfold doCheck
  repeat' first
    | intro _ | with_reducible assumption | with_reducible apply wf_ceTake | with_reducible apply wf_ceRefuse
    | with_reducible apply wf_ceAck | with_reducible apply wf_ceHold | with_reducible apply wf_onCe
    | with_reducible apply wf_ite | with_reducible apply wf_ite_fst | (refine wf_of_eq (by assumption) ?_)
    | dsimp only | simp only [wf_mk] | split

theorem wf_sendWords (d : DieId) (op t dst : Nat) (tk : Task) (xs : List W) {s : State} (hs : s.wf = true) :
    State.wf (sendWords d op t dst tk xs s).1 = true := by
  unfold sendWords
  repeat' first
    | intro _ | with_reducible assumption | with_reducible apply wf_forUntil | with_reducible apply wf_ceSend
    | dsimp only | simp only [wf_mk]

theorem wf_treeAdd (d : DieId) (i : Img) (tk : Task) (v1 : List (Nat × Nat)) (v2 : List W) {v3 : State} (hv3 : v3.wf = true) :
    State.wf (treeAdd d i tk v1 v2 v3).1 = true := by
  induction v1 generalizing v2 v3 hv3 with
  | nil =>
    unfold treeAdd
    repeat' first
      | intro _ | with_reducible assumption | with_reducible apply wf_readWords | (refine wf_of_eq (by assumption) ?_)
      | dsimp only | split
  | cons x xs ih =>
    unfold treeAdd
    repeat' first
      | intro _ | with_reducible assumption | with_reducible apply ih | with_reducible apply wf_readWords | (refine wf_of_eq (by assumption) ?_)
      | dsimp only | split

theorem wf_treeResult (d : DieId) (t : Nat) (tk : Task) (res : List W) {s : State} (hs : s.wf = true) :
    State.wf (treeResult d t tk res s).1 = true := by
  unfold treeResult
  repeat' first
    | intro _ | with_reducible assumption | with_reducible apply wf_forUntil | with_reducible apply wf_sendWords
    | with_reducible apply wf_onCe | dsimp only | simp only [wf_mk]

theorem wf_treeAdvance (d : DieId) (t : Nat) (i : Img) (tk : Task) {s : State} (hs : s.wf = true) :
    State.wf (treeAdvance d t i tk s).1 = true := by
  unfold treeAdvance
  repeat' first
    | intro _ | with_reducible assumption | with_reducible apply wf_readWords | with_reducible apply wf_treeAdd
    | with_reducible apply wf_onCe | with_reducible apply wf_sendWords | with_reducible apply wf_writeWords
    | with_reducible apply wf_treeResult | with_reducible apply wf_watchWrite | with_reducible apply wf_ite
    | with_reducible apply wf_ite_fst | (refine wf_of_eq (by assumption) ?_) | dsimp only | simp only [wf_mk] | split

theorem wf_doTree (d : DieId) (t : Nat) {s : State} (hs : s.wf = true) :
    State.wf (doTree d t s) = true := by
  unfold doTree
  repeat' first
    | intro _ | with_reducible assumption | with_reducible apply wf_ceIssue | with_reducible apply wf_treeAdvance
    | dsimp only

theorem wf_goOn (d : DieId) (t : Nat) (f : State → State × Nat) {s : State} (hf : ∀ (u1 : State), u1.wf = true → State.wf (f u1).1 = true) (hs : s.wf = true) :
    State.wf (goOn d t f s) = true := by
  unfold goOn
  repeat' first
    | intro _ | with_reducible assumption | with_reducible apply wf_taskFault | with_reducible apply hf
    | with_reducible apply wf_ite | with_reducible apply wf_ite_fst | (refine wf_of_eq (by assumption) ?_)
    | dsimp only | split

theorem wf_doTreeUp (d : DieId) (m : CeMsg) {s : State} (hs : s.wf = true) :
    State.wf (doTreeUp d m s) = true := by
  unfold doTreeUp
  repeat' first
    | intro _ | with_reducible assumption | with_reducible apply wf_ceTake | with_reducible apply wf_ceRefuse
    | with_reducible apply wf_writeWords | with_reducible apply wf_watchWrite | with_reducible apply wf_ceAck
    | with_reducible apply wf_ceHold | with_reducible apply wf_addPart | with_reducible apply wf_goOn
    | with_reducible apply wf_treeAdvance | with_reducible apply wf_ite | with_reducible apply wf_ite_fst
    | (refine wf_of_eq (by assumption) ?_) | dsimp only | simp only [wf_mk] | split

theorem wf_doTreeDown (d : DieId) (m : CeMsg) {s : State} (hs : s.wf = true) :
    State.wf (doTreeDown d m s) = true := by
  unfold doTreeDown
  repeat' first
    | intro _ | with_reducible assumption | with_reducible apply wf_ceTake | with_reducible apply wf_ceRefuse
    | with_reducible apply wf_writeWords | with_reducible apply wf_watchWrite | with_reducible apply wf_addPart
    | with_reducible apply wf_ceAck | with_reducible apply wf_ceHold | with_reducible apply wf_goOn
    | with_reducible apply wf_readWords | with_reducible apply wf_treeResult | with_reducible apply wf_ite
    | with_reducible apply wf_ite_fst | (refine wf_of_eq (by assumption) ?_) | dsimp only | simp only [wf_mk] | split

theorem wf_ceCodes (d : DieId) (v : View) (row : Nat) (i : Nat) (n : Nat) {s : State} (hs : s.wf = true) :
    State.wf (ceCodes d v row i n s).1 = true := by
  unfold ceCodes
  repeat' first
    | intro _ | with_reducible assumption | with_reducible apply wf_readCodes | with_reducible apply wf_memRead
    | with_reducible apply wf_ite | with_reducible apply wf_ite_fst | (refine wf_of_eq (by assumption) ?_) | dsimp only
    | simp only [wf_mk] | split

theorem wf_readRowsCodes (d : DieId) (v : View) (v1 : List Nat) {v2 : State} (hv2 : v2.wf = true) :
    State.wf (readRowsCodes d v v1 v2).1 = true := by
  induction v1 generalizing v2 hv2 with
  | nil =>
    unfold readRowsCodes
    repeat' first
      | intro _ | with_reducible assumption | with_reducible apply wf_readCodes | with_reducible apply wf_memRead
      | (refine wf_of_eq (by assumption) ?_) | with_reducible apply wf_ceCodes | dsimp only | split
  | cons x xs ih =>
    unfold readRowsCodes
    repeat' first
      | intro _ | with_reducible assumption | with_reducible apply ih | with_reducible apply wf_readCodes | with_reducible apply wf_memRead
      | (refine wf_of_eq (by assumption) ?_) | with_reducible apply wf_ceCodes | dsimp only | split

theorem wf_readSome (d : DieId) (a n : Nat) {s : State} (hs : s.wf = true) :
    State.wf (readSome d a n s).1 = true := by
  unfold readSome
  repeat' first
    | intro _ | with_reducible assumption | with_reducible apply wf_memRead | with_reducible apply wf_ite
    | with_reducible apply wf_ite_fst | dsimp only | split

theorem wf_shardRead (d : DieId) (v : View) {s : State} (hs : s.wf = true) :
    State.wf (shardRead d v s).1 = true := by
  unfold shardRead
  repeat' first
    | intro _ | with_reducible assumption | with_reducible apply wf_readRowsCodes | with_reducible apply wf_readSome
    | with_reducible apply wf_ite | with_reducible apply wf_ite_fst | (refine wf_of_eq (by assumption) ?_)
    | dsimp only | simp only [wf_mk] | split

theorem wf_shardWrite (d : DieId) (tk : Task) (src : View) (v : View) (p : Nat) (x : Shard) {s : State} (hs : s.wf = true) :
    State.wf (shardWrite d tk src v p x s).1 = true := by
  unfold shardWrite
  repeat' first
    | intro _ | with_reducible assumption | with_reducible apply wf_memWrite | with_reducible apply wf_forUntil
    | with_reducible apply wf_writeCodes | with_reducible apply wf_watchWrite | with_reducible apply wf_ite
    | with_reducible apply wf_ite_fst | (refine wf_of_eq (by assumption) ?_) | with_reducible apply wf_storeCodes
    | dsimp only | simp only [wf_mk] | split

theorem wf_gatherKeep (d : DieId) (tk : Task) (pos version : Nat) (digest : D) {s : State} (hs : s.wf = true) :
    State.wf (gatherKeep d tk pos version digest s).1 = true := by
  unfold gatherKeep
  repeat' first
    | intro _ | with_reducible assumption | with_reducible apply wf_tallyAdd | with_reducible apply wf_onCe
    | with_reducible apply wf_raise | with_reducible apply wf_ite | with_reducible apply wf_ite_fst | dsimp only
    | simp only [wf_mk] | split

theorem wf_sendShardBytes (d : DieId) (t : Nat) (tk : Task) (version : Nat) (digest : D) (bs : List Byte) (p : Nat) {s : State} (hs : s.wf = true) :
    State.wf (sendShardBytes d t tk version digest bs p s).1 = true := by
  unfold sendShardBytes
  repeat' first
    | intro _ | with_reducible assumption | with_reducible apply wf_forUntil | with_reducible apply wf_ceSend
    | dsimp only | simp only [wf_mk]

theorem wf_gatherWork (d : DieId) (t : Nat) (i : Img) (tk : Task) {s : State} (hs : s.wf = true) :
    State.wf (gatherWork d t i tk s).1 = true := by
  unfold gatherWork
  repeat' first
    | intro _ | with_reducible assumption | with_reducible apply wf_shardRead | with_reducible apply wf_shardWrite
    | with_reducible apply wf_onCe | with_reducible apply wf_gatherKeep | with_reducible apply wf_forUntil
    | with_reducible apply wf_sendShardBytes | (refine wf_of_eq (by assumption) ?_) | dsimp only | simp only [wf_mk] | split

theorem wf_doCeGather (d : DieId) (t : Nat) {s : State} (hs : s.wf = true) :
    State.wf (doCeGather d t s) = true := by
  unfold doCeGather
  repeat' first
    | intro _ | with_reducible assumption | with_reducible apply wf_ceIssue | with_reducible apply wf_gatherWork
    | dsimp only

theorem wf_gatherFault (d : DieId) (t code : Nat) {s : State} (hs : s.wf = true) :
    State.wf (gatherFault d t code s) = true := by
  unfold gatherFault
  repeat' first
    | intro _ | with_reducible assumption | with_reducible apply wf_taskFault | with_reducible apply wf_onCe
    | with_reducible apply wf_ite | with_reducible apply wf_ite_fst | dsimp only | simp only [wf_mk] | split

theorem wf_doShard (d : DieId) (m : CeMsg) {s : State} (hs : s.wf = true) :
    State.wf (doShard d m s) = true := by
  unfold doShard
  repeat' first
    | intro _ | with_reducible assumption | with_reducible apply wf_ceTake | with_reducible apply wf_ceRefuse
    | with_reducible apply wf_gatherFault | with_reducible apply wf_addPart | with_reducible apply wf_ceAck
    | with_reducible apply wf_ceHold | with_reducible apply wf_shardWrite | with_reducible apply wf_onCe
    | with_reducible apply wf_gatherKeep | with_reducible apply wf_ite | with_reducible apply wf_ite_fst
    | (refine wf_of_eq (by assumption) ?_) | dsimp only | simp only [wf_mk] | split

theorem wf_sendSide (d : DieId) (op t dst : Nat) (dstDie : DieId) (frame : Nat) (r : SideRec) {s : State} (hs : s.wf = true) :
    State.wf (sendSide d op t dst dstDie frame r s).1 = true := by
  unfold sendSide
  repeat' first
    | intro _ | with_reducible assumption | with_reducible apply wf_forUntil | with_reducible apply wf_ceSend
    | with_reducible apply wf_ite | with_reducible apply wf_ite_fst | dsimp only | simp only [wf_mk] | split

theorem wf_sideHold (d : DieId) (r : SideRec) {s : State} (hs : s.wf = true) :
    State.wf (sideHold d r s) = true := by
  unfold sideHold
  repeat' first
    | intro _ | with_reducible assumption | with_reducible apply wf_sf | with_reducible apply wf_onDie | dsimp only
    | simp only [wf_mk]

theorem wf_sideDeliver (d : DieId) (frame : Nat) (r : SideRec) {s : State} (hs : s.wf = true) :
    State.wf (sideDeliver d frame r s) = true := by
  unfold sideDeliver
  generalize noTask = nt
  dsimp only
  refine wf_sideHold _ _ (wf_forEach ?_ _ ?_)
  · intro h s hs; exact wf_sendSide _ _ _ _ _ _ _ hs
  · split
    · refine wf_forEach ?_ _ (wf_forEach ?_ _ hs)
      · intro h s hs; exact wf_sendSide _ _ _ _ _ _ _ hs
      · intro h s hs; exact wf_sendSide _ _ _ _ _ _ _ hs
    · exact hs

theorem wf_matchNat (o : Option (Nat)) (f : Nat → State) (g : State) (hf : ∀ x, (f x).wf = true) (hg : g.wf = true) :
    State.wf (match o with | some x => f x | none => g) = true := by
  cases o with
  | some x => exact hf x
  | none => exact hg

theorem wf_sideUpSend (d : DieId) (frame : Nat) (all : SideRec) {s : State} (hs : s.wf = true) :
    State.wf (sideUpSend d frame all s) = true := by
  unfold sideUpSend
  exact wf_matchNat _ _ _ (fun _ => wf_sendSide _ _ _ _ _ _ _ hs) (wf_sideDeliver _ _ _ hs)

theorem wf_sideUp (d : DieId) (frame : Nat) {s : State} (hs : s.wf = true) :
    State.wf (sideUp d frame s) = true := by
  unfold sideUp
  repeat' first
    | intro _ | with_reducible assumption | with_reducible apply wf_onCe | with_reducible apply wf_sideUpSend
    | with_reducible apply wf_ite | with_reducible apply wf_ite_fst | with_reducible apply wf_foldl | dsimp only
    | simp only [wf_mk] | split

theorem wf_sideFail (code : Nat) {s : State} (hs : s.wf = true) :
    State.wf (sideFail code s) = true := by
  unfold sideFail
  repeat' first
    | intro _ | with_reducible assumption | with_reducible apply wf_forEach | with_reducible apply wf_taskFault
    | with_reducible apply wf_ite | with_reducible apply wf_ite_fst | (refine wf_of_eq (by assumption) ?_) | dsimp only
    | simp only [wf_mk] | split

theorem wf_sidePackage (d : DieId) (frame : Nat) (t : Nat) {s : State} (hs : s.wf = true) :
    State.wf (sidePackage d frame t s).1 = true := by
  unfold sidePackage
  repeat' first
    | intro _ | with_reducible assumption | with_reducible apply wf_onCe | with_reducible apply wf_sideUp
    | with_reducible apply wf_sideFail | with_reducible apply wf_sendSide | with_reducible apply wf_ite
    | with_reducible apply wf_ite_fst | dsimp only | simp only [wf_mk] | split

theorem wf_sideWork (d : DieId) (t : Nat) (tk : Task) {s : State} (hs : s.wf = true) :
    State.wf (sideWork d t tk s).1 = true := by
  unfold sideWork
  repeat' first
    | intro _ | with_reducible assumption | with_reducible apply wf_tallyAdd | with_reducible apply wf_sidePackage
    | with_reducible apply wf_onCe | with_reducible apply wf_sendSide | with_reducible apply wf_ite
    | with_reducible apply wf_ite_fst | dsimp only | simp only [wf_mk] | split

theorem wf_doSide (d : DieId) (t : Nat) {s : State} (hs : s.wf = true) :
    State.wf (doSide d t s) = true := by
  unfold doSide
  repeat' first
    | intro _ | with_reducible assumption | with_reducible apply wf_ceIssue | with_reducible apply wf_sideWork
    | dsimp only

theorem wf_doSidewait (d : DieId) (t : Nat) {s : State} (hs : s.wf = true) :
    State.wf (doSidewait d t s) = true := by
  unfold doSidewait
  repeat' first
    | intro _ | with_reducible assumption | with_reducible apply wf_ceIssue | dsimp only

theorem wf_doSideUp (d : DieId) (m : CeMsg) {s : State} (hs : s.wf = true) :
    State.wf (doSideUp d m s) = true := by
  unfold doSideUp
  repeat' first
    | intro _ | with_reducible assumption | with_reducible apply wf_ceTake | with_reducible apply wf_addPart
    | with_reducible apply wf_ceAck | with_reducible apply wf_ceHold | with_reducible apply wf_sidePackage
    | with_reducible apply wf_onCe | with_reducible apply wf_sideUp | with_reducible apply wf_ite
    | with_reducible apply wf_ite_fst | (refine wf_of_eq (by assumption) ?_) | dsimp only | simp only [wf_mk] | split

theorem wf_doSideDown (d : DieId) (m : CeMsg) {s : State} (hs : s.wf = true) :
    State.wf (doSideDown d m s) = true := by
  unfold doSideDown
  repeat' first
    | intro _ | with_reducible assumption | with_reducible apply wf_ceTake | with_reducible apply wf_addPart
    | with_reducible apply wf_ceAck | with_reducible apply wf_ceHold | with_reducible apply wf_sideHold
    | with_reducible apply wf_sideDeliver | with_reducible apply wf_ite | with_reducible apply wf_ite_fst
    | (refine wf_of_eq (by assumption) ?_) | dsimp only | simp only [wf_mk] | split

theorem wf_readRuns (d : DieId) (v : View) (v1 : List (Nat × Nat × Nat)) {v2 : State} (hv2 : v2.wf = true) :
    State.wf (readRuns d v v1 v2).1 = true := by
  induction v1 generalizing v2 hv2 with
  | nil =>
    unfold readRuns
    repeat' first
      | intro _ | with_reducible assumption | with_reducible apply wf_readCodes | with_reducible apply wf_memRead
      | (refine wf_of_eq (by assumption) ?_) | with_reducible apply wf_ceCodes | dsimp only | split
  | cons x xs ih =>
    unfold readRuns
    repeat' first
      | intro _ | with_reducible assumption | with_reducible apply ih | with_reducible apply wf_readCodes | with_reducible apply wf_memRead
      | (refine wf_of_eq (by assumption) ?_) | with_reducible apply wf_ceCodes | dsimp only | split

theorem wf_writeRuns (d : DieId) (v : View) (v1 : List (Nat × Nat × Nat)) (v2 : List Nat) {v3 : State} (hv3 : v3.wf = true) :
    State.wf (writeRuns d v v1 v2 v3).1 = true := by
  induction v1 generalizing v2 v3 hv3 with
  | nil =>
    unfold writeRuns
    repeat' first
      | intro _ | with_reducible assumption | with_reducible apply wf_writeCodes | with_reducible apply wf_memWrite
      | (refine wf_of_eq (by assumption) ?_) | dsimp only | split
  | cons x xs ih =>
    unfold writeRuns
    repeat' first
      | intro _ | with_reducible assumption | with_reducible apply ih | with_reducible apply wf_writeCodes | with_reducible apply wf_memWrite
      | (refine wf_of_eq (by assumption) ?_) | dsimp only | split

theorem wf_moveSend (d : DieId) (t : Nat) (i : Img) (tk : Task) (mv : MoveRow) {s : State} (hs : s.wf = true) :
    State.wf (moveSend d t i tk mv s).1 = true := by
  unfold moveSend
  repeat' first
    | intro _ | with_reducible assumption | with_reducible apply wf_forUntil | with_reducible apply wf_readRuns
    | with_reducible apply wf_ceSend | with_reducible apply wf_tallyQty | with_reducible apply wf_ite
    | with_reducible apply wf_ite_fst | (refine wf_of_eq (by assumption) ?_) | dsimp only | simp only [wf_mk] | split

theorem wf_reshardWork (d : DieId) (t : Nat) (i : Img) (tk : Task) {s : State} (hs : s.wf = true) :
    State.wf (reshardWork d t i tk s).1 = true := by
  unfold reshardWork
  repeat' first
    | intro _ | with_reducible assumption | with_reducible apply wf_forUntil | with_reducible apply wf_readWords
    | with_reducible apply wf_moveSend | with_reducible apply wf_ite | with_reducible apply wf_ite_fst
    | (refine wf_of_eq (by assumption) ?_) | dsimp only | simp only [wf_mk] | split

theorem wf_doReshard (d : DieId) (t : Nat) {s : State} (hs : s.wf = true) :
    State.wf (doReshard d t s) = true := by
  unfold doReshard
  repeat' first
    | intro _ | with_reducible assumption | with_reducible apply wf_ceIssue | with_reducible apply wf_reshardWork
    | dsimp only

theorem wf_doMove (d : DieId) (m : CeMsg) {s : State} (hs : s.wf = true) :
    State.wf (doMove d m s) = true := by
  unfold doMove
  repeat' first
    | intro _ | with_reducible assumption | with_reducible apply wf_ceTake | with_reducible apply wf_ceRefuse
    | with_reducible apply wf_tallyAdd | with_reducible apply wf_writeRuns | with_reducible apply wf_onDie
    | with_reducible apply wf_watchWrite | with_reducible apply wf_ceAck | with_reducible apply wf_ceHold
    | with_reducible apply wf_ite | with_reducible apply wf_ite_fst | (refine wf_of_eq (by assumption) ?_) | dsimp only
    | simp only [wf_mk] | split

theorem wf_takeAnswer (d : DieId) (m : CeMsg) (f : CeOut → State → State) {s : State} (hf : ∀ (u1 : CeOut) (u2 : State), u2.wf = true → State.wf (f u1 u2) = true) (hs : s.wf = true) :
    State.wf (takeAnswer d m f s) = true := by
  unfold takeAnswer
  repeat' first
    | intro _ | with_reducible assumption | with_reducible apply wf_tallyAdd | with_reducible apply wf_raise
    | with_reducible apply wf_onCe | with_reducible apply hf | with_reducible apply wf_ite
    | with_reducible apply wf_ite_fst | (refine wf_of_eq (by assumption) ?_) | dsimp only | simp only [wf_mk] | split

theorem wf_doAck (d : DieId) (m : CeMsg) {s : State} (hs : s.wf = true) :
    State.wf (doAck d m s) = true := by
  unfold doAck
  repeat' first
    | intro _ | with_reducible assumption | with_reducible apply wf_takeAnswer | dsimp only

theorem wf_doRefuse (d : DieId) (m : CeMsg) {s : State} (hs : s.wf = true) :
    State.wf (doRefuse d m s) = true := by
  unfold doRefuse
  repeat' first
    | intro _ | with_reducible assumption | with_reducible apply wf_takeAnswer | with_reducible apply wf_taskFault
    | with_reducible apply wf_ite | with_reducible apply wf_ite_fst | dsimp only | split

theorem wf_doCeAckTimeout (d : DieId) (n : Nat) {s : State} (hs : s.wf = true) :
    State.wf (doCeAckTimeout d n s) = true := by
  unfold doCeAckTimeout
  repeat' first
    | intro _ | with_reducible assumption | with_reducible apply wf_ceTransmit | with_reducible apply wf_tallyAdd
    | with_reducible apply wf_onCe | with_reducible apply wf_ite | with_reducible apply wf_ite_fst
    | (refine wf_of_eq (by assumption) ?_) | dsimp only | simp only [wf_mk] | split

theorem wf_gatherFeed (d : DieId) (t : Nat) (v : View) {s : State} (hs : s.wf = true) :
    State.wf (gatherFeed d t v s) = true := by
  unfold gatherFeed
  repeat' first
    | intro _ | with_reducible assumption | with_reducible apply wf_forEach | with_reducible apply wf_crcFeed | dsimp only

theorem wf_ceComplete (d : DieId) (i : Img) (tk : Task) (t : Nat) {s : State} (hs : s.wf = true) :
    State.wf (ceComplete d i tk t s) = true := by
  unfold ceComplete
  repeat' first
    | intro _ | with_reducible assumption | with_reducible apply wf_onCe | with_reducible apply wf_gatherFeed
    | with_reducible apply wf_ite | with_reducible apply wf_ite_fst | dsimp only | simp only [wf_mk] | split

theorem wf_reshardArm (d : DieId) (epoch : Nat) {s : State} (hs : s.wf = true) :
    State.wf (reshardArm d epoch s).1 = true := by
  unfold reshardArm
  repeat' first
    | intro _ | with_reducible assumption | with_reducible apply wf_onCe | with_reducible apply wf_sf
    | with_reducible apply wf_ite | with_reducible apply wf_ite_fst | dsimp only | simp only [wf_mk] | split

theorem wf_clearMarks (d : DieId) {s : State} (hs : s.wf = true) :
    State.wf (clearMarks d s) = true := by
  unfold clearMarks
  repeat' first
    | intro _ | with_reducible assumption | with_reducible apply wf_mapEntries | dsimp only | simp only [wf_mk]

theorem wf_reshardDisarm (d : DieId) {s : State} (hs : s.wf = true) :
    State.wf (reshardDisarm d s) = true := by
  unfold reshardDisarm
  repeat' first
    | intro _ | with_reducible assumption | with_reducible apply wf_sf | with_reducible apply wf_ite
    | with_reducible apply wf_ite_fst | dsimp only | split

theorem wf_reshardOpen (d : DieId) {s : State} (hs : s.wf = true) :
    State.wf (reshardOpen d s) = true := by
  unfold reshardOpen
  repeat' first
    | intro _ | with_reducible assumption | with_reducible apply wf_sf | with_reducible apply wf_ite
    | with_reducible apply wf_ite_fst | dsimp only | split

theorem wf_reshardEnd (d : DieId) (epoch : Nat) (failed : Bool) (hold : Bool) {s : State} (hs : s.wf = true) :
    State.wf (reshardEnd d epoch failed hold s) = true := by
  unfold reshardEnd
  repeat' first
    | intro _ | with_reducible assumption | with_reducible apply wf_mapEntries | with_reducible apply wf_raise
    | with_reducible apply wf_loftFlushAll | with_reducible apply wf_sf | with_reducible apply wf_clearMarks
    | with_reducible apply wf_ite | with_reducible apply wf_ite_fst | dsimp only | simp only [wf_mk] | split

theorem wf_dropBuckets (d : DieId) {s : State} (hs : s.wf = true) :
    State.wf (dropBuckets d s) = true := by
  unfold dropBuckets
  repeat' first
    | intro _ | with_reducible assumption | with_reducible apply wf_sf | with_reducible apply wf_onDie | dsimp only
    | simp only [wf_mk]

theorem wf_ceStepStart (d : DieId) (exclFrame : Nat) {s : State} (hs : s.wf = true) :
    State.wf (ceStepStart d exclFrame s) = true := by
  unfold ceStepStart
  repeat' first
    | intro _ | with_reducible assumption | with_reducible apply wf_sf | with_reducible apply wf_wr
    | with_reducible apply wf_dropBuckets | with_reducible apply wf_onCe | dsimp only | simp only [wf_mk]

end Sys2Proof.Machine
end

