-- ==== Sys2Proof/Laws/WfStairway.lean ====
section
/-!
SUPPORT. Laws/WfStairway.lean: what Machine/Stairway.lean changes of the sparse maps of the package keeps their canonical form.
-/
namespace Sys2Proof.Machine

theorem wf_sendAdvert (d : DieId) (e : SideId) {s : State} (hs : s.wf = true) :
    State.wf (sendAdvert d e s) = true := by
  unfold sendAdvert
  repeat' first
    | intro _ | with_reducible assumption | with_reducible apply wf_emit | dsimp only

theorem wf_swEnter (d : DieId) (e : SideId) (st : Nat) {s : State} (hs : s.wf = true) :
    State.wf (swEnter d e st s) = true := by
  unfold swEnter
  repeat' first
    | intro _ | with_reducible assumption | with_reducible apply wf_raise | with_reducible apply wf_wr
    | with_reducible apply wf_sf | with_reducible apply wf_sendAdvert | with_reducible apply wf_ite
    | with_reducible apply wf_ite_fst | dsimp only | split

theorem wf_swCause (d : DieId) (e : SideId) (c : Nat) {s : State} (hs : s.wf = true) :
    State.wf (swCause d e c s) = true := by
  unfold swCause
  repeat' first
    | intro _ | with_reducible assumption | with_reducible apply wf_sf | dsimp only

theorem wf_swForget (d : DieId) (e : SideId) {s : State} (hs : s.wf = true) :
    State.wf (swForget d e s) = true := by
  unfold swForget
  repeat' first
    | intro _ | with_reducible assumption | with_reducible apply wf_onSide | dsimp only | simp only [wf_mk]

theorem wf_swTrain (d : DieId) (e : SideId) (cause : Nat) {s : State} (hs : s.wf = true) :
    State.wf (swTrain d e cause s) = true := by
  unfold swTrain
  repeat' first
    | intro _ | with_reducible assumption | with_reducible apply wf_sf | with_reducible apply wf_swEnter
    | with_reducible apply wf_swCause | with_reducible apply wf_tallyAdd | with_reducible apply wf_swForget
    | with_reducible apply wf_ite | with_reducible apply wf_ite_fst | dsimp only | split

theorem wf_swFailWidth (d : DieId) (e : SideId) {s : State} (hs : s.wf = true) :
    State.wf (swFailWidth d e s) = true := by
  unfold swFailWidth
  repeat' first
    | intro _ | with_reducible assumption | with_reducible apply wf_swEnter | with_reducible apply wf_swCause
    | with_reducible apply wf_raise | with_reducible apply wf_blockErr | with_reducible apply wf_ite
    | with_reducible apply wf_ite_fst | dsimp only | split

theorem wf_swCompare (d : DieId) (e : SideId) {s : State} (hs : s.wf = true) :
    State.wf (swCompare d e s) = true := by
  unfold swCompare
  repeat' first
    | intro _ | with_reducible assumption | with_reducible apply wf_swEnter | with_reducible apply wf_sf
    | with_reducible apply wf_tallyAdd | with_reducible apply wf_swFailWidth | with_reducible apply wf_swForget
    | with_reducible apply wf_ite | with_reducible apply wf_ite_fst | (refine wf_of_eq (by assumption) ?_)
    | dsimp only | simp only [wf_mk] | split

theorem wf_swAgree (d : DieId) (e : SideId) {s : State} (hs : s.wf = true) :
    State.wf (swAgree d e s) = true := by
  unfold swAgree
  repeat' first
    | intro _ | with_reducible assumption | with_reducible apply wf_wr | with_reducible apply wf_sf
    | with_reducible apply wf_onSide | with_reducible apply wf_swCompare | with_reducible apply wf_sendAdvert
    | (refine wf_of_eq (by assumption) ?_) | dsimp only | simp only [wf_mk] | split

theorem wf_takeAdvert (d : DieId) (e : SideId) (a : Advert) {s : State} (hs : s.wf = true) :
    State.wf (takeAdvert d e a s) = true := by
  unfold takeAdvert
  repeat' first
    | intro _ | with_reducible assumption | with_reducible apply wf_keep | with_reducible apply wf_onSide
    | with_reducible apply wf_sf | with_reducible apply wf_swEnter | with_reducible apply wf_swCause
    | with_reducible apply wf_tallyAdd | with_reducible apply wf_swForget | with_reducible apply wf_swCompare
    | with_reducible apply wf_swAgree | with_reducible apply wf_ite | with_reducible apply wf_ite_fst | dsimp only
    | simp only [wf_mk] | split

theorem wf_doAdvertSend (d : DieId) (e : SideId) {s : State} (hs : s.wf = true) :
    State.wf (doAdvertSend d e s) = true := by
  unfold doAdvertSend
  repeat' first
    | intro _ | with_reducible assumption | with_reducible apply wf_sendAdvert | with_reducible apply wf_ite
    | with_reducible apply wf_ite_fst | dsimp only | split

theorem wf_calDone (d : DieId) (e : SideId) (fails : List (List Nat)) {s : State} (hs : s.wf = true) :
    State.wf (calDone d e fails s) = true := by
  unfold calDone
  repeat' first
    | intro _ | with_reducible assumption | with_reducible apply wf_wr | with_reducible apply wf_onSide
    | with_reducible apply wf_swAgree | with_reducible apply wf_swEnter | with_reducible apply wf_ite
    | with_reducible apply wf_ite_fst | dsimp only | simp only [wf_mk] | split

theorem wf_doErrorLimit (d : DieId) (e : SideId) {s : State} (hs : s.wf = true) :
    State.wf (doErrorLimit d e s) = true := by
  unfold doErrorLimit
  repeat' first
    | intro _ | with_reducible assumption | with_reducible apply wf_swTrain | with_reducible apply wf_ite
    | with_reducible apply wf_ite_fst | dsimp only | split

theorem wf_swRetrainAction (d : DieId) (e : SideId) {s : State} (hs : s.wf = true) :
    State.wf (swRetrainAction d e s) = true := by
  unfold swRetrainAction
  repeat' first
    | intro _ | with_reducible assumption | with_reducible apply wf_swTrain | with_reducible apply wf_ite
    | with_reducible apply wf_ite_fst | dsimp only | split

theorem wf_swOnward (d : DieId) (e : SideId) (u : SwUnit) {s : State} (hs : s.wf = true) :
    State.wf (swOnward d e u s) = true := by
  unfold swOnward
  repeat' first
    | intro _ | with_reducible assumption | with_reducible apply wf_onSide | with_reducible apply wf_tallyQty
    | with_reducible apply wf_swPump | with_reducible apply wf_swQueue | with_reducible apply wf_ite
    | with_reducible apply wf_ite_fst | dsimp only | simp only [wf_mk] | split

theorem wf_swAccept (d : DieId) (e : SideId) (flight : Fin 16) (u : SwUnit) {s : State} (hs : s.wf = true) :
    State.wf (swAccept d e flight u s) = true := by
  unfold swAccept
  repeat' first
    | intro _ | with_reducible assumption | with_reducible apply wf_tallyQty | with_reducible apply wf_onSide
    | with_reducible apply wf_swPump | with_reducible apply wf_swAck | with_reducible apply wf_swOnward | dsimp only
    | simp only [wf_mk]

theorem wf_swAsk (d : DieId) (e : SideId) (flight : Fin 16) {s : State} (hs : s.wf = true) :
    State.wf (swAsk d e flight s) = true := by
  unfold swAsk
  repeat' first
    | intro _ | with_reducible assumption | with_reducible apply wf_emit | with_reducible apply wf_onSide
    | with_reducible apply wf_swResend | with_reducible apply wf_ite | with_reducible apply wf_ite_fst | dsimp only
    | simp only [wf_mk] | split

theorem wf_doStairwayUnitReceive (d : DieId) (e : SideId) (flight : Fin 16) (u : SwUnit) {s : State} (hs : s.wf = true) :
    State.wf (doStairwayUnitReceive d e flight u s) = true := by
  unfold doStairwayUnitReceive
  repeat' first
    | intro _ | with_reducible assumption | with_reducible apply wf_swAsk | with_reducible apply wf_tallyAdd
    | with_reducible apply wf_swAccept | with_reducible apply wf_ite | with_reducible apply wf_ite_fst
    | with_reducible apply wf_emit | with_reducible apply wf_onSide | with_reducible apply wf_tallyQty | dsimp only | split

theorem wf_reroute {s : State} (hs : s.wf = true) :
    State.wf (reroute s) = true := by
  unfold reroute
  repeat' first
    | intro _ | with_reducible assumption | with_reducible apply wf_forEach | with_reducible apply wf_sf | dsimp only

theorem wf_retopo {s : State} (hs : s.wf = true) :
    State.wf (retopo s) = true := by
  unfold retopo
  repeat' first
    | intro _ | with_reducible assumption | with_reducible apply wf_forEach | with_reducible apply wf_sf | dsimp only

theorem wf_facingLost (p : DieId) (cause : Nat) {s : State} (hs : s.wf = true) :
    State.wf (facingLost p cause s) = true := by
  unfold facingLost
  repeat' first
    | intro _ | with_reducible assumption | with_reducible apply wf_forEach | with_reducible apply wf_raise
    | with_reducible apply wf_swClear | with_reducible apply wf_swEnter | with_reducible apply wf_swCause
    | with_reducible apply wf_swForget | with_reducible apply wf_ite | with_reducible apply wf_ite_fst | dsimp only | split

theorem wf_unrelease (h : DieId) {s : State} (hs : s.wf = true) :
    State.wf (unrelease h s) = true := by
  unfold unrelease
  repeat' first
    | intro _ | with_reducible assumption | with_reducible apply wf_sf | with_reducible apply wf_ite
    | with_reducible apply wf_ite_fst | dsimp only | split

theorem wf_bothHatch (h : DieId) (g : Nat → State → State) (hg : ∀ (u1 : Nat) (u2 : State), u2.wf = true → State.wf
    (g u1 u2) = true) {s : State} (hs : s.wf = true) :
    State.wf (bothHatch h g s) = true := by
  unfold bothHatch
  repeat' first
    | intro _ | with_reducible assumption | with_reducible apply hg | dsimp only

theorem wf_modEnter (h : DieId) (st : Nat) (m : Fin 2) {s : State} (hs : s.wf = true) :
    State.wf (modEnter h st m s) = true := by
  unfold modEnter
  repeat' first
    | intro _ | with_reducible assumption | with_reducible apply wf_bothHatch | with_reducible apply wf_raise
    | with_reducible apply wf_sf | with_reducible apply wf_ite | with_reducible apply wf_ite_fst | dsimp only | split

theorem wf_hatchDown (h : DieId) {s : State} (hs : s.wf = true) :
    State.wf (hatchDown h s) = true := by
  unfold hatchDown
  repeat' first
    | intro _ | with_reducible assumption | with_reducible apply wf_bothHatch | with_reducible apply wf_sf
    | with_reducible apply wf_forEach | with_reducible apply wf_modEnter | dsimp only

theorem wf_hatchTrain (h : DieId) {s : State} (hs : s.wf = true) :
    State.wf (hatchTrain h s) = true := by
  unfold hatchTrain
  repeat' first
    | intro _ | with_reducible assumption | with_reducible apply wf_forEach | with_reducible apply wf_modEnter
    | with_reducible apply wf_ite | with_reducible apply wf_ite_fst | dsimp only | split

theorem wf_setDetour (h : DieId) {s : State} (hs : s.wf = true) :
    State.wf (setDetour h s) = true := by
  unfold setDetour
  repeat' first
    | intro _ | with_reducible assumption | with_reducible apply wf_bothHatch | with_reducible apply wf_raise
    | with_reducible apply wf_sf | (refine wf_of_eq (by assumption) ?_) | dsimp only | simp only [wf_mk] | split

theorem wf_redetour (p : DieId) {s : State} (hs : s.wf = true) :
    State.wf (redetour p s) = true := by
  unfold redetour
  repeat' first
    | intro _ | with_reducible assumption | with_reducible apply wf_forEach | with_reducible apply wf_setDetour
    | with_reducible apply wf_ite | with_reducible apply wf_ite_fst | dsimp only | split

theorem wf_declareLost (p : DieId) (cause : Nat) (warm : Bool) {s : State} (hs : s.wf = true) :
    State.wf (declareLost p cause warm s) = true := by
  unfold declareLost
  repeat' first
    | intro _ | with_reducible assumption | with_reducible apply wf_unrelease | with_reducible apply wf_sf
    | with_reducible apply wf_failOpen | with_reducible apply wf_loftDropHome | with_reducible apply wf_onDie
    | with_reducible apply wf_raise | with_reducible apply wf_redetour | with_reducible apply wf_facingLost
    | with_reducible apply wf_forEach | with_reducible apply wf_retopo | with_reducible apply wf_ite
    | with_reducible apply wf_ite_fst | with_reducible apply wf_failCause | dsimp only | simp only [wf_mk] | split

theorem wf_dropCutOff {s : State} (hs : s.wf = true) :
    State.wf (dropCutOff s) = true := by
  unfold dropCutOff
  repeat' first
    | intro _ | with_reducible assumption | with_reducible apply wf_forEach | with_reducible apply wf_declareLost
    | with_reducible apply wf_ite | with_reducible apply wf_ite_fst | (refine wf_of_eq (by assumption) ?_)
    | dsimp only | simp only [wf_mk] | split

theorem wf_swFail (d : DieId) (e : SideId) (cause : Nat) {s : State} (hs : s.wf = true) :
    State.wf (swFail d e cause s) = true := by
  unfold swFail
  repeat' first
    | intro _ | with_reducible assumption | with_reducible apply wf_swEnter | with_reducible apply wf_swCause
    | dsimp only

theorem wf_edgeFails (d : DieId) (e : SideId) {s : State} (hs : s.wf = true) :
    State.wf (edgeFails d e s) = true := by
  unfold edgeFails
  repeat' first
    | intro _ | with_reducible assumption | with_reducible apply wf_dropCutOff | with_reducible apply wf_retopo
    | with_reducible apply wf_reroute | with_reducible apply wf_swHandOver | dsimp only

theorem wf_trained (d : DieId) (e : SideId) (f : State → State) (hf : ∀ (u1 : State), u1.wf = true → State.wf (f u1) = true)
    {s : State} (hs : s.wf = true) :
    State.wf (trained d e f s) = true := by
  unfold trained
  repeat' first
    | intro _ | with_reducible assumption | with_reducible apply hf | with_reducible apply wf_edgeFails
    | with_reducible apply wf_ite | with_reducible apply wf_ite_fst | dsimp only | split

theorem wf_doAdvert (d : DieId) (e : SideId) (a : Advert) {s : State} (hs : s.wf = true) :
    State.wf (doAdvert d e a s) = true := by
  unfold doAdvert
  repeat' first
    | intro _ | with_reducible assumption | with_reducible apply wf_trained | with_reducible apply wf_takeAdvert
    | with_reducible apply wf_onSide | with_reducible apply wf_sf | with_reducible apply wf_swEnter
    | with_reducible apply wf_swCause | with_reducible apply wf_tallyAdd | with_reducible apply wf_swForget
    | with_reducible apply wf_swCompare | with_reducible apply wf_swAgree | with_reducible apply wf_ite
    | with_reducible apply wf_ite_fst | dsimp only

theorem wf_doCalDone (d : DieId) (e : SideId) (fails : List (List Nat)) {s : State} (hs : s.wf = true) :
    State.wf (doCalDone d e fails s) = true := by
  unfold doCalDone
  repeat' first
    | intro _ | with_reducible assumption | with_reducible apply wf_trained | with_reducible apply wf_calDone
    | with_reducible apply wf_wr | with_reducible apply wf_onSide | with_reducible apply wf_swAgree
    | with_reducible apply wf_swEnter | with_reducible apply wf_ite | with_reducible apply wf_ite_fst | dsimp only

theorem wf_doSwTrainTimeout (d : DieId) (e : SideId) {s : State} (hs : s.wf = true) :
    State.wf (doSwTrainTimeout d e s) = true := by
  unfold doSwTrainTimeout
  repeat' first
    | intro _ | with_reducible assumption | with_reducible apply wf_trained | with_reducible apply wf_swFailWidth
    | with_reducible apply wf_ite | with_reducible apply wf_ite_fst | dsimp only | split

theorem wf_doSwMeasureDone (d : DieId) (e : SideId) (lats : List Nat) {s : State} (hs : s.wf = true) :
    State.wf (doSwMeasureDone d e lats s) = true := by
  unfold doSwMeasureDone
  repeat' first
    | intro _ | with_reducible assumption | with_reducible apply wf_sf | with_reducible apply wf_raise
    | with_reducible apply wf_swEnter | with_reducible apply wf_retopo | with_reducible apply wf_reroute
    | with_reducible apply wf_swRestart | with_reducible apply wf_ite | with_reducible apply wf_ite_fst
    | with_reducible apply wf_onSide | dsimp only | split

theorem wf_doHoldExpiry (d : DieId) (e : SideId) {s : State} (hs : s.wf = true) :
    State.wf (doHoldExpiry d e s) = true := by
  unfold doHoldExpiry
  repeat' first
    | intro _ | with_reducible assumption | with_reducible apply wf_edgeFails | with_reducible apply wf_swFail
    | with_reducible apply wf_tallyAdd | with_reducible apply wf_ite | with_reducible apply wf_ite_fst
    | with_reducible apply wf_dropCutOff | with_reducible apply wf_reroute | dsimp only | split

theorem wf_reportDrop (d : DieId) (e : SideId) {s : State} (hs : s.wf = true) :
    State.wf (reportDrop d e s) = true := by
  unfold reportDrop
  repeat' first
    | intro _ | with_reducible assumption | with_reducible apply wf_emit | with_reducible apply wf_raise | dsimp only

theorem wf_doResetNotice (d : DieId) (e : SideId) {s : State} (hs : s.wf = true) :
    State.wf (doResetNotice d e s) = true := by
  unfold doResetNotice
  repeat' first
    | intro _ | with_reducible assumption | with_reducible apply wf_reportDrop | with_reducible apply wf_swClear
    | with_reducible apply wf_swEnter | with_reducible apply wf_swCause | with_reducible apply wf_swForget
    | with_reducible apply wf_ite | with_reducible apply wf_ite_fst | dsimp only | simp only [wf_mk] | split

theorem wf_doClockAbsent (d : DieId) (e : SideId) {s : State} (hs : s.wf = true) :
    State.wf (doClockAbsent d e s) = true := by
  unfold doClockAbsent
  repeat' first
    | intro _ | with_reducible assumption | with_reducible apply wf_reportDrop | with_reducible apply wf_ite
    | with_reducible apply wf_ite_fst | dsimp only | split

theorem wf_forgetDrops (p : DieId) {s : State} (hs : s.wf = true) :
    State.wf (forgetDrops p s) = true := by
  unfold forgetDrops
  repeat' first
    | intro _ | with_reducible assumption | dsimp only | simp only [wf_mk]

theorem wf_doPeerDrop (reporter p : DieId) {s : State} (hs : s.wf = true) :
    State.wf (doPeerDrop reporter p s) = true := by
  unfold doPeerDrop
  repeat' first
    | intro _ | with_reducible assumption | with_reducible apply wf_declareLost | with_reducible apply wf_forgetDrops
    | with_reducible apply wf_ite | with_reducible apply wf_ite_fst | dsimp only | simp only [wf_mk] | split

theorem wf_doHatchSilent (p : DieId) {s : State} (hs : s.wf = true) :
    State.wf (doHatchSilent p s) = true := by
  unfold doHatchSilent
  repeat' first
    | intro _ | with_reducible assumption | with_reducible apply wf_declareLost | with_reducible apply wf_forgetDrops
    | with_reducible apply wf_ite | with_reducible apply wf_ite_fst | dsimp only | split

theorem wf_doHatchLossReport (p : DieId) (k : LossReport) {s : State} (hs : s.wf = true) :
    State.wf (doHatchLossReport p k s) = true := by
  unfold doHatchLossReport
  repeat' first
    | intro _ | with_reducible assumption | with_reducible apply wf_raise | with_reducible apply wf_sf
    | with_reducible apply wf_declareLost | with_reducible apply wf_ite | with_reducible apply wf_ite_fst
    | (refine wf_of_eq (by assumption) ?_) | dsimp only | simp only [wf_mk] | split

theorem wf_doHatchModuleFail (h : DieId) (m : Fin 2) {s : State} (hs : s.wf = true) :
    State.wf (doHatchModuleFail h m s) = true := by
  unfold doHatchModuleFail
  repeat' first
    | intro _ | with_reducible assumption | with_reducible apply wf_modEnter | with_reducible apply wf_setDetour
    | with_reducible apply wf_declareLost | with_reducible apply wf_ite | with_reducible apply wf_ite_fst
    | with_reducible apply wf_raise | with_reducible apply wf_sf | dsimp only | split

theorem wf_resetRegs (d : DieId) (keep : Nat → Bool) {s : State} (hs : s.wf = true) : State.wf (resetRegs d keep s) = true := by
  unfold resetRegs
  dsimp only
  simp only [State.wf_parts] at *
  obtain ⟨h1, h2, h3, h4, h5, h6, h7, h8, h9, h10⟩ := hs
  refine ⟨?_, ?_, ?_, ?_, ?_, ?_, ?_, ?_, ?_, ?_⟩ <;> first
    | assumption
    | exact swf_skeep _ (by assumption)
    | exact swf_sset _ _ (by assumption)
    | exact swf_foldl_sset _ _ _ (by assumption)
    | exact swf_foldl_sset _ _ _ (swf_skeep _ (by assumption))

theorem wf_resetEngines (d : DieId) (keep : Nat → Bool) {s : State} (hs : s.wf = true) :
    State.wf (resetEngines d keep s) = true := by
  unfold resetEngines
  dsimp only
  apply wf_forEach
  · intro e s h; exact wf_sf _ _ _ (wf_emit _ h)
  · apply wf_resetRegs
    simp only [State.wf_parts] at *
    obtain ⟨h1, h2, h3, h4, h5, h6, h7, h8, h9, h10⟩ := hs
    refine ⟨?_, ?_, ?_, ?_, ?_, ?_, ?_, ?_, ?_, ?_⟩ <;> first
      | assumption
      | exact swf_skeep _ (by assumption)
      | exact swf_sset _ _ (by assumption)
      | exact swf_foldl_sset _ _ _ (by assumption)
      | exact swf_foldl_sset _ _ _ (swf_skeep _ (by assumption))

theorem wf_fillDie (d : DieId) (cellar : Bool) {s : State} (hs : s.wf = true) : State.wf (fillDie d cellar s) = true := by
  unfold fillDie
  dsimp only
  simp only [State.wf_parts] at *
  obtain ⟨h1, h2, h3, h4, h5, h6, h7, h8, h9, h10⟩ := hs
  refine ⟨?_, ?_, ?_, ?_, ?_, ?_, ?_, ?_, ?_, ?_⟩ <;> first
    | assumption
    | exact swf_skeep _ (by assumption)
    | exact swf_sset _ _ (by assumption)
    | exact swf_foldl_sset _ _ _ (by assumption)
    | exact swf_foldl_sset _ _ _ (swf_skeep _ (by assumption))

theorem wf_resetCold (d : DieId) {s : State} (hs : s.wf = true) : State.wf (resetCold d s) = true := by
  unfold resetCold
  dsimp only
  apply wf_onDie
  simp only [State.wf_parts] at *
  obtain ⟨h1, h2, h3, h4, h5, h6, h7, h8, h9, h10⟩ := hs
  refine ⟨?_, ?_, ?_, ?_, ?_, ?_, ?_, ?_, ?_, ?_⟩ <;> first
    | assumption
    | exact swf_skeep _ (by assumption)

theorem wf_stackTrain (d : DieId) (c : Nat) {s : State} (hs : s.wf = true) :
    State.wf (stackTrain d c s) = true := by
  unfold stackTrain
  repeat' first
    | intro _ | with_reducible assumption | with_reducible apply wf_raise | with_reducible apply wf_sf
    | with_reducible apply wf_ite | with_reducible apply wf_ite_fst | dsimp only | split

theorem wf_stackRest (d : DieId) (c : Nat) {s : State} (hs : s.wf = true) :
    State.wf (stackRest d c s) = true := by
  unfold stackRest
  repeat' first
    | intro _ | with_reducible assumption | with_reducible apply wf_tallyAdd | with_reducible apply wf_sf
    | with_reducible apply wf_ite | with_reducible apply wf_ite_fst | dsimp only | split

theorem wf_keepStraps {old : State} (d : DieId) {s : State} (_hold : old.wf = true) (hs : s.wf = true) :
    State.wf (keepStraps old d s) = true := by
  unfold keepStraps
  repeat' first
    | intro _ | with_reducible assumption | with_reducible apply wf_wr | with_reducible apply wf_forEach
    | with_reducible apply wf_sf | dsimp only

theorem wf_resetDie (d : DieId) (warm : Bool) {s : State} (hs : s.wf = true) :
    State.wf (resetDie d warm s) = true := by
  unfold resetDie
  repeat' first
    | intro _ | with_reducible assumption | with_reducible apply wf_resetEngines | with_reducible apply wf_forEach
    | with_reducible apply wf_stackRest | with_reducible apply wf_resetCold | with_reducible apply wf_keepStraps
    | with_reducible apply wf_fillDie | with_reducible apply wf_hatchDown | with_reducible apply wf_sf
    | with_reducible apply wf_ite | with_reducible apply wf_ite_fst | dsimp only | split

theorem wf_dieResetAction (h : DieId) (kind : ResetKind) {s : State} (hs : s.wf = true) :
    State.wf (dieResetAction h kind s).1 = true := by
  unfold dieResetAction
  repeat' first
    | intro _ | with_reducible assumption | with_reducible apply wf_unrelease | with_reducible apply wf_declareLost
    | with_reducible apply wf_sf | with_reducible apply wf_resetDie | with_reducible apply wf_ite
    | with_reducible apply wf_ite_fst | dsimp only | split

theorem wf_checkerFails (h : DieId) {s : State} (hs : s.wf = true) :
    State.wf (checkerFails h s) = true := by
  unfold checkerFails
  repeat' first
    | intro _ | with_reducible assumption | with_reducible apply wf_drawFresh | with_reducible apply wf_raise
    | with_reducible apply wf_sf | (refine wf_of_eq (by assumption) ?_) | dsimp only | simp only [wf_mk] | split

theorem wf_doRejoinReady (h : DieId) (ok : Bool) {s : State} (hs : s.wf = true) :
    State.wf (doRejoinReady h ok s) = true := by
  unfold doRejoinReady
  repeat' first
    | intro _ | with_reducible assumption | with_reducible apply wf_sf | with_reducible apply wf_checkerFails
    | with_reducible apply wf_forEach | with_reducible apply wf_stackTrain | with_reducible apply wf_hatchTrain
    | with_reducible apply wf_ite | with_reducible apply wf_ite_fst | dsimp only | split

theorem wf_ladderCopy (src d : DieId) {s : State} (hs : s.wf = true) :
    State.wf (ladderCopy src d s) = true := by
  unfold ladderCopy
  repeat' first
    | intro _ | with_reducible assumption | with_reducible apply wf_onDie | with_reducible apply wf_foldl | dsimp only
    | simp only [wf_mk]

theorem wf_rejoinAction (h : DieId) {s : State} (hs : s.wf = true) :
    State.wf (rejoinAction h s).1 = true := by
  unfold rejoinAction
  repeat' first
    | intro _ | with_reducible assumption | with_reducible apply wf_retopo | with_reducible apply wf_reroute
    | with_reducible apply wf_sf | with_reducible apply wf_ladderCopy | with_reducible apply wf_raise
    | with_reducible apply wf_forgetDrops | with_reducible apply wf_ite | with_reducible apply wf_ite_fst
    | (refine wf_of_eq (by assumption) ?_) | dsimp only | simp only [wf_mk] | split

theorem wf_swFence (d : DieId) (e : SideId) {s : State} (hs : s.wf = true) :
    State.wf (swFence d e s) = true := by
  unfold swFence
  repeat' first
    | intro _ | with_reducible assumption | with_reducible apply wf_edgeFails | with_reducible apply wf_swFail
    | with_reducible apply wf_dropCutOff | with_reducible apply wf_reroute | dsimp only

end Sys2Proof.Machine
end

