-- ==== Sys2Proof/Laws/WfIntegrity.lean ====
section
/-!
SUPPORT. Laws/WfIntegrity.lean: what Machine/Integrity.lean changes of the sparse maps of the package keeps their canonical form.
-/
namespace Sys2Proof.Machine

theorem wf_onInteg (d : DieId) (f : Integ → Integ) {s : State} (hs : s.wf = true) :
    State.wf (onInteg d f s) = true := by
  unfold onInteg
  repeat' first
    | intro _ | with_reducible assumption | with_reducible apply wf_onDie | dsimp only | simp only [wf_mk]

theorem wf_scrubLapEnd (d : DieId) {s : State} (hs : s.wf = true) :
    State.wf (scrubLapEnd d s) = true := by
  unfold scrubLapEnd
  repeat' first
    | intro _ | with_reducible assumption | with_reducible apply wf_tallyAdd | with_reducible apply wf_onInteg
    | with_reducible apply wf_wr | dsimp only

theorem wf_doScrubRead (d : DieId) (word : Nat) {s : State} (hs : s.wf = true) :
    State.wf (doScrubRead d word s) = true := by
  unfold doScrubRead
  repeat' first
    | intro _ | with_reducible assumption | with_reducible apply wf_readRange | with_reducible apply wf_onInteg
    | with_reducible apply wf_tallyQty | with_reducible apply wf_scrubLapEnd | with_reducible apply wf_ite
    | with_reducible apply wf_ite_fst | dsimp only | simp only [wf_mk] | split

theorem wf_doScrubSlow (d : DieId) {s : State} (hs : s.wf = true) :
    State.wf (doScrubSlow d s) = true := by
  unfold doScrubSlow
  repeat' first
    | intro _ | with_reducible assumption | with_reducible apply wf_raise | with_reducible apply wf_onInteg
    | with_reducible apply wf_ite | with_reducible apply wf_ite_fst | dsimp only | simp only [wf_mk] | split

theorem wf_injArmAction (d : DieId) (syms : Nat) {s : State} (hs : s.wf = true) :
    State.wf (injArmAction d syms s).1 = true := by
  unfold injArmAction
  repeat' first
    | intro _ | with_reducible assumption | with_reducible apply wf_sf | with_reducible apply wf_ite
    | with_reducible apply wf_ite_fst | dsimp only | split

end Sys2Proof.Machine
end

