-- ==== Sys2Proof/Laws/WfJournal.lean ====
section
/-!
SUPPORT. Laws/WfJournal.lean: what Machine/Journal.lean changes of the sparse maps of the package keeps their canonical form.
-/
namespace Sys2Proof.Machine

theorem wf_setDigestRegs (a : Nat) (bs : List Byte) {s : State} (hs : s.wf = true) :
    State.wf (setDigestRegs a bs s) = true := by
  unfold setDigestRegs
  repeat' first
    | intro _ | with_reducible assumption | with_reducible apply wf_forEach | with_reducible apply wf_wr | dsimp only

theorem wf_recOpen (d : DieId) (t : Tick) {s : State} (hs : s.wf = true) :
    State.wf (recOpen d t s) = true := by
  unfold recOpen
  repeat' first
    | intro _ | with_reducible assumption | with_reducible apply wf_onRec | with_reducible apply wf_onJrnl
    | with_reducible apply wf_ladderReset | with_reducible apply wf_feedMark | with_reducible apply wf_ite
    | with_reducible apply wf_ite_fst | dsimp only | simp only [wf_mk] | split

theorem wf_recEnd (d : DieId) (outcome endTick : Nat) {s : State} (hs : s.wf = true) :
    State.wf (recEnd d outcome endTick s) = true := by
  unfold recEnd
  repeat' first
    | intro _ | with_reducible assumption | with_reducible apply wf_onRec | with_reducible apply wf_ite
    | with_reducible apply wf_ite_fst | dsimp only | simp only [wf_mk] | split

theorem wf_recDrop (d : DieId) {s : State} (hs : s.wf = true) :
    State.wf (recDrop d s) = true := by
  unfold recDrop
  repeat' first
    | intro _ | with_reducible assumption | with_reducible apply wf_raise | with_reducible apply wf_tallyAdd
    | with_reducible apply wf_onJrnl | dsimp only | simp only [wf_mk]

theorem wf_recAnnounce (d : DieId) (start : Nat) (bs : List Byte) {s : State} (hs : s.wf = true) :
    State.wf (recAnnounce d start bs s) = true := by
  unfold recAnnounce
  repeat' first
    | intro _ | with_reducible assumption | with_reducible apply wf_hostPoke | with_reducible apply wf_qPush
    | with_reducible apply wf_ite | with_reducible apply wf_ite_fst | dsimp only | split

theorem wf_recWrite (d : DieId) {s : State} (hs : s.wf = true) :
    State.wf (recWrite d s) = true := by
  unfold recWrite
  repeat' first
    | intro _ | with_reducible assumption | with_reducible apply wf_onRec | with_reducible apply wf_recDrop
    | with_reducible apply wf_memWrite | with_reducible apply wf_wr64 | with_reducible apply wf_onJrnl
    | with_reducible apply wf_tallyQty | with_reducible apply wf_tallyAdd | with_reducible apply wf_recAnnounce
    | with_reducible apply wf_blockErr | with_reducible apply wf_ite | with_reducible apply wf_ite_fst
    | (refine wf_of_eq (by assumption) ?_) | dsimp only | simp only [wf_mk] | split

theorem wf_jrnlRelAction (d : DieId) (v : Nat) {s : State} (hs : s.wf = true) :
    State.wf (jrnlRelAction d v s).1 = true := by
  unfold jrnlRelAction
  repeat' first
    | intro _ | with_reducible assumption | with_reducible apply wf_wr64 | with_reducible apply wf_ite
    | with_reducible apply wf_ite_fst | dsimp only | split

theorem wf_replayModeAction (d : DieId) (mode : Bool) {s : State} (hs : s.wf = true) :
    State.wf (replayModeAction d mode s) = true := by
  unfold replayModeAction
  repeat' first
    | intro _ | with_reducible assumption | with_reducible apply wf_onJrnl | with_reducible apply wf_sf | dsimp only
    | simp only [wf_mk]

theorem wf_replayFind (d : DieId) (step : Nat) (v1 : Nat) (v2 : Nat) {v3 : State} (hv3 : v3.wf = true) :
    State.wf (replayFind d step v1 v2 v3).1 = true := by
  induction v1 generalizing v2 v3 hv3 with
  | zero =>
    unfold replayFind
    repeat' first
      | intro _ | with_reducible assumption | with_reducible apply wf_memRead | with_reducible apply wf_ite
      | with_reducible apply wf_ite_fst | (refine wf_of_eq (by assumption) ?_) | dsimp only | simp only [wf_mk] | split
  | succ n ih =>
    unfold replayFind
    repeat' first
      | intro _ | with_reducible assumption | with_reducible apply ih | with_reducible apply wf_memRead | with_reducible apply wf_ite
      | with_reducible apply wf_ite_fst | (refine wf_of_eq (by assumption) ?_) | dsimp only | simp only [wf_mk] | split

theorem wf_replayTake (d : DieId) (step : Nat) {s : State} (hs : s.wf = true) :
    State.wf (replayTake d step s) = true := by
  unfold replayTake
  repeat' first
    | intro _ | with_reducible assumption | with_reducible apply wf_raise | with_reducible apply wf_sf
    | with_reducible apply wf_onJrnl | with_reducible apply wf_replayFind | with_reducible apply wf_ite
    | with_reducible apply wf_ite_fst | (refine wf_of_eq (by assumption) ?_) | dsimp only | simp only [wf_mk] | split

theorem wf_replayPast (d : DieId) {s : State} (hs : s.wf = true) :
    State.wf (replayPast d s) = true := by
  unfold replayPast
  repeat' first
    | intro _ | with_reducible assumption | with_reducible apply wf_onJrnl | (refine wf_of_eq (by assumption) ?_)
    | dsimp only | simp only [wf_mk] | split

theorem wf_replayDiffer (d : DieId) (dig : List Byte) {s : State} (hs : s.wf = true) :
    State.wf (replayDiffer d dig s) = true := by
  unfold replayDiffer
  repeat' first
    | intro _ | with_reducible assumption | with_reducible apply wf_onRec | with_reducible apply wf_raise
    | with_reducible apply wf_sf | with_reducible apply wf_ite | with_reducible apply wf_ite_fst
    | (refine wf_of_eq (by assumption) ?_) | dsimp only | simp only [wf_mk] | split

theorem wf_twinEnd (d : DieId) (step : Nat) (result : Nat) (cause : Nat) (peer : List Byte) (hold : Bool) {s : State}
    (hs : s.wf = true) :
    State.wf (twinEnd d step result cause peer hold s) = true := by
  unfold twinEnd
  repeat' first
    | intro _ | with_reducible assumption | with_reducible apply wf_onJrnl | with_reducible apply wf_sf
    | with_reducible apply wf_setDigestRegs | with_reducible apply wf_addItem | with_reducible apply wf_onRec
    | with_reducible apply wf_tallyAdd | with_reducible apply wf_raise | with_reducible apply wf_failOpen
    | with_reducible apply wf_ite | with_reducible apply wf_ite_fst | with_reducible apply wf_failCause | dsimp only
    | simp only [wf_mk] | split

theorem wf_twinCompare (d : DieId) {s : State} (hs : s.wf = true) :
    State.wf (twinCompare d s) = true := by
  unfold twinCompare
  repeat' first
    | intro _ | with_reducible assumption | with_reducible apply wf_twinEnd | with_reducible apply wf_ite
    | with_reducible apply wf_ite_fst | (refine wf_of_eq (by assumption) ?_) | dsimp only | simp only [wf_mk] | split

theorem wf_twinTake (d : DieId) (pl : List Byte) {s : State} (hs : s.wf = true) :
    State.wf (twinTake d pl s) = true := by
  unfold twinTake
  repeat' first
    | intro _ | with_reducible assumption | with_reducible apply wf_twinCompare | with_reducible apply wf_onJrnl
    | with_reducible apply wf_ite | with_reducible apply wf_ite_fst | dsimp only | simp only [wf_mk] | split

theorem wf_doTwinDigest (m : LinkMsg) {s : State} (hs : s.wf = true) :
    State.wf (doTwinDigest m s) = true := by
  unfold doTwinDigest
  repeat' first
    | intro _ | with_reducible assumption | with_reducible apply wf_twinTake | (refine wf_of_eq (by assumption) ?_)
    | dsimp only | split

theorem wf_doTwinTimeout {s : State} (hs : s.wf = true) :
    State.wf (doTwinTimeout s) = true := by
  unfold doTwinTimeout
  repeat' first
    | intro _ | with_reducible assumption | with_reducible apply wf_twinEnd | with_reducible apply wf_ite
    | with_reducible apply wf_ite_fst | (refine wf_of_eq (by assumption) ?_) | dsimp only | simp only [wf_mk] | split

theorem wf_twinOpen (d : DieId) (o : TwinDig) {s : State} (hs : s.wf = true) :
    State.wf (twinOpen d o s) = true := by
  unfold twinOpen
  repeat' first
    | intro _ | with_reducible assumption | with_reducible apply wf_onJrnl | with_reducible apply wf_twinEnd
    | with_reducible apply wf_sf | with_reducible apply wf_twinCompare | with_reducible apply wf_emit
    | with_reducible apply wf_sendNull | with_reducible apply wf_raise | with_reducible apply wf_ite
    | with_reducible apply wf_ite_fst | dsimp only | simp only [wf_mk] | split

theorem wf_formPkg (step : Nat) {s : State} (hs : s.wf = true) :
    State.wf (formPkg step s) = true := by
  unfold formPkg
  repeat' first
    | intro _ | with_reducible assumption | with_reducible apply wf_forEach | with_reducible apply wf_onRec
    | with_reducible apply wf_setDigestRegs | with_reducible apply wf_twinOpen | with_reducible apply wf_ite
    | with_reducible apply wf_ite_fst | (refine wf_of_eq (by assumption) ?_) | dsimp only | simp only [wf_mk] | split

theorem wf_digestForm (d : DieId) (step : Nat) {s : State} (hs : s.wf = true) :
    State.wf (digestForm d step s) = true := by
  unfold digestForm
  repeat' first
    | intro _ | with_reducible assumption | with_reducible apply wf_onJrnl | with_reducible apply wf_replayDiffer
    | with_reducible apply wf_failOpen | with_reducible apply wf_tallyAdd | with_reducible apply wf_formPkg
    | with_reducible apply wf_ite | with_reducible apply wf_ite_fst | with_reducible apply wf_failCause | dsimp only
    | simp only [wf_mk] | split

theorem wf_exportEntry (d : DieId) (n : Nat) {s : State} (hs : s.wf = true) :
    State.wf (exportEntry d n s).1 = true := by
  unfold exportEntry
  repeat' first
    | intro _ | with_reducible assumption | with_reducible apply wf_memRead | (refine wf_of_eq (by assumption) ?_)
    | dsimp only | simp only [wf_mk] | split

theorem wf_exportCheck (d : DieId) {s : State} (hs : s.wf = true) :
    State.wf (exportCheck d s) = true := by
  unfold exportCheck
  repeat' first
    | intro _ | with_reducible assumption | with_reducible apply wf_sf | with_reducible apply wf_onJrnl
    | with_reducible apply wf_memRead | with_reducible apply wf_raise | with_reducible apply wf_ite
    | with_reducible apply wf_ite_fst | (refine wf_of_eq (by assumption) ?_) | dsimp only | simp only [wf_mk] | split

theorem wf_exportStart (d : DieId) (step : Nat) {s : State} (hs : s.wf = true) :
    State.wf (exportStart d step s) = true := by
  unfold exportStart
  repeat' first
    | intro _ | with_reducible assumption | with_reducible apply wf_sf | with_reducible apply wf_onJrnl
    | with_reducible apply wf_raise | with_reducible apply wf_tallyAdd | with_reducible apply wf_ite
    | with_reducible apply wf_ite_fst | dsimp only | simp only [wf_mk] | split

theorem wf_exportRow (d : DieId) (src : View) (dst : View) (r : Nat) {s : State} (hs : s.wf = true) :
    State.wf (exportRow d src dst r s).1 = true := by
  unfold exportRow
  repeat' first
    | intro _ | with_reducible assumption | with_reducible apply wf_readCodes | with_reducible apply wf_memRead
    | with_reducible apply wf_writeCodes | with_reducible apply wf_memWrite | with_reducible apply wf_readX32
    | with_reducible apply wf_writeX32 | with_reducible apply wf_tallyQty | with_reducible apply wf_ite
    | with_reducible apply wf_ite_fst | (refine wf_of_eq (by assumption) ?_) | dsimp only | simp only [wf_mk] | split

theorem wf_exportCopy (d : DieId) (i : Img) (b : Nat) (n : Nat) {s : State} (hs : s.wf = true) :
    State.wf (exportCopy d i b n s).1 = true := by
  unfold exportCopy
  repeat' first
    | intro _ | with_reducible assumption | with_reducible apply wf_exportEntry | with_reducible apply wf_forUntil
    | with_reducible apply wf_exportRow | with_reducible apply wf_ite | with_reducible apply wf_ite_fst
    | (refine wf_of_eq (by assumption) ?_) | dsimp only | simp only [wf_mk] | split

theorem wf_doExportStreamReceive (d : DieId) (off : Nat) (bytes : List Byte) {s : State} (hs : s.wf = true) :
    State.wf (doExportStreamReceive d off bytes s) = true := by
  unfold doExportStreamReceive
  repeat' first
    | intro _ | with_reducible assumption | with_reducible apply wf_onJrnl | with_reducible apply wf_memWrite
    | with_reducible apply wf_ite | with_reducible apply wf_ite_fst | dsimp only | simp only [wf_mk] | split

theorem wf_streamRead (d : DieId) (rs : List (Nat × Nat)) {s : State} (hs : s.wf = true) :
    State.wf (streamRead d rs s).1 = true := by
  induction rs generalizing s hs with
  | nil => exact hs
  | cons r rs ih =>
    unfold streamRead
    repeat' first
      | intro _ | with_reducible assumption | with_reducible apply ih | with_reducible apply wf_memRead
      | (refine wf_of_eq (by assumption) ?_) | dsimp only | split

theorem wf_streamBytes (d : DieId) (i : Img) (b : Nat) (ns : List Nat) {s : State} (hs : s.wf = true) :
    State.wf (streamBytes d i b ns s).1 = true := by
  induction ns generalizing s hs with
  | nil => exact hs
  | cons n ns ih =>
    unfold streamBytes
    repeat' first
      | intro _ | with_reducible assumption | with_reducible apply ih | with_reducible apply wf_streamRead
      | with_reducible apply wf_exportEntry | (refine wf_of_eq (by assumption) ?_) | dsimp only | split

theorem wf_streamSend (d : DieId) (off : Nat) (ch : List Byte) {s : State} (hs : s.wf = true) :
    State.wf (streamSend d off ch s).1 = true := by
  unfold streamSend
  repeat' first
    | intro _ | with_reducible assumption | with_reducible apply wf_emit | with_reducible apply wf_doExportStreamReceive
    | with_reducible apply wf_originate | with_reducible apply wf_ite | with_reducible apply wf_ite_fst | dsimp only | split

theorem wf_exportStream (d : DieId) {s : State} (hs : s.wf = true) :
    State.wf (exportStream d s) = true := by
  unfold exportStream
  repeat' first
    | intro _ | with_reducible assumption | with_reducible apply wf_onJrnl | with_reducible apply wf_streamBytes
    | with_reducible apply wf_forUntil | with_reducible apply wf_streamSend | with_reducible apply wf_failCause
    | with_reducible apply wf_ite | with_reducible apply wf_ite_fst | (refine wf_of_eq (by assumption) ?_)
    | with_reducible apply wf_originate | with_reducible apply wf_emit | dsimp only | simp only [wf_mk] | split

theorem wf_copyEnd (d : DieId) {s : State} (hs : s.wf = true) :
    State.wf (copyEnd d s) = true := by
  unfold copyEnd
  repeat' first
    | intro _ | with_reducible assumption | with_reducible apply wf_sf | with_reducible apply wf_forUntil
    | with_reducible apply wf_exportCopy | with_reducible apply wf_wr64 | with_reducible apply wf_raise
    | with_reducible apply wf_tallyAdd | with_reducible apply wf_ite | with_reducible apply wf_ite_fst
    | (refine wf_of_eq (by assumption) ?_) | dsimp only | simp only [wf_mk] | split

theorem wf_doExportCopyDone (d : DieId) {s : State} (hs : s.wf = true) :
    State.wf (doExportCopyDone d s) = true := by
  unfold doExportCopyDone
  repeat' first
    | intro _ | with_reducible assumption | with_reducible apply wf_copyEnd | with_reducible apply wf_exportStream
    | with_reducible apply wf_ite | with_reducible apply wf_ite_fst | with_reducible apply wf_sf
    | with_reducible apply wf_forUntil | with_reducible apply wf_exportCopy | with_reducible apply wf_wr64
    | with_reducible apply wf_raise | with_reducible apply wf_tallyAdd | dsimp only | split

end Sys2Proof.Machine
end

