-- ==== Sys2Proof/Laws/WfTick.lean ====
section
/-!
SUPPORT. Laws/WfTick.lean: what Machine/Tick.lean changes of the sparse maps of the package keeps their canonical form.
-/
namespace Sys2Proof.Machine

theorem wf_onTick (d : DieId) (f : TickDie → TickDie) {s : State} (hs : s.wf = true) :
    State.wf (onTick d f s) = true := by
  unfold onTick
  repeat' first
    | intro _ | with_reducible assumption | with_reducible apply wf_onDie | dsimp only | simp only [wf_mk]

theorem wf_onMaster (f : Master → Master) {s : State} (hs : s.wf = true) :
    State.wf (onMaster f s) = true := by
  unfold onMaster
  repeat' first
    | intro _ | with_reducible assumption | dsimp only | simp only [wf_mk]

theorem wf_tickPages (f : Fld) (v : Nat) {s : State} (hs : s.wf = true) :
    State.wf (tickPages f v s) = true := by
  unfold tickPages
  repeat' first
    | intro _ | with_reducible assumption | with_reducible apply wf_forEach | with_reducible apply wf_sf | dsimp only

theorem wf_setMState (st : MState) (cause : Nat) {s : State} (hs : s.wf = true) :
    State.wf (setMState st cause s) = true := by
  unfold setMState
  repeat' first
    | intro _ | with_reducible assumption | with_reducible apply wf_tickPages | with_reducible apply wf_onMaster
    | dsimp only | simp only [wf_mk]

theorem wf_tickForward (d : DieId) (t : Tick) (p : PortId) {s : State} (hs : s.wf = true) :
    State.wf (tickForward d t p s) = true := by
  unfold tickForward
  repeat' first
    | intro _ | with_reducible assumption | with_reducible apply wf_sendOn | with_reducible apply wf_emit
    | with_reducible apply wf_ite | with_reducible apply wf_ite_fst | (refine wf_of_eq (by assumption) ?_)
    | dsimp only | simp only [wf_mk] | split

theorem wf_tickReach (a : DieId) (t : Tick) (h : DieId) {s : State} (hs : s.wf = true) :
    State.wf (tickReach a t h s) = true := by
  unfold tickReach
  repeat' first
    | intro _ | with_reducible assumption | with_reducible apply wf_onTick | with_reducible apply wf_tallyAdd
    | with_reducible apply wf_forEach | with_reducible apply wf_tickForward | with_reducible apply wf_emit
    | with_reducible apply wf_ite | with_reducible apply wf_ite_fst | dsimp only | simp only [wf_mk] | split

theorem wf_tickAt (a : DieId) (t : Tick) (h : DieId) {s : State} (hs : s.wf = true) :
    State.wf (tickAt a t h s) = true := by
  unfold tickAt
  repeat' first
    | intro _ | with_reducible assumption | with_reducible apply wf_swPost | with_reducible apply wf_onTick
    | with_reducible apply wf_tickReach | with_reducible apply wf_ite | with_reducible apply wf_ite_fst
    | with_reducible apply wf_tallyAdd | with_reducible apply wf_forEach | with_reducible apply wf_tickForward
    | with_reducible apply wf_emit | dsimp only | simp only [wf_mk] | split

theorem wf_tickRelease (h : DieId) {s : State} (hs : s.wf = true) :
    State.wf (tickRelease h s) = true := by
  unfold tickRelease
  repeat' first
    | intro _ | with_reducible assumption | with_reducible apply wf_tickReach | with_reducible apply wf_onTick
    | with_reducible apply wf_ite | with_reducible apply wf_ite_fst | (refine wf_of_eq (by assumption) ?_) | dsimp only
    | simp only [wf_mk] | split

theorem wf_tickSpread (a : DieId) (t : Tick) {s : State} (hs : s.wf = true) :
    State.wf (tickSpread a t s) = true := by
  unfold tickSpread
  repeat' first
    | intro _ | with_reducible assumption | with_reducible apply wf_forEach | with_reducible apply wf_tickAt
    | dsimp only

theorem wf_tickArrive (p : PortId) (c : PortId) (t : Tick) {s : State} (hs : s.wf = true) :
    State.wf (tickArrive p c t s) = true := by
  unfold tickArrive
  repeat' first
    | intro _ | with_reducible assumption | with_reducible apply wf_tallyAdd | with_reducible apply wf_tickSpread
    | with_reducible apply wf_ite | with_reducible apply wf_ite_fst | dsimp only | simp only [wf_mk] | split

theorem wf_doTickReceive (d : DieId) (port : PortId) (t : Tick) {s : State} (hs : s.wf = true) :
    State.wf (doTickReceive d port t s) = true := by
  unfold doTickReceive
  repeat' first
    | intro _ | with_reducible assumption | with_reducible apply wf_tickArrive | with_reducible apply wf_ite
    | with_reducible apply wf_ite_fst | with_reducible apply wf_tallyAdd | with_reducible apply wf_tickSpread | dsimp only
    | split

theorem wf_doTickInEdge (d : DieId) {s : State} (hs : s.wf = true) :
    State.wf (doTickInEdge d s) = true := by
  unfold doTickInEdge
  repeat' first
    | intro _ | with_reducible assumption | with_reducible apply wf_tallyAdd | with_reducible apply wf_onTick
    | with_reducible apply wf_ite | with_reducible apply wf_ite_fst | dsimp only | simp only [wf_mk] | split

theorem wf_doTickLost (d : DieId) {s : State} (hs : s.wf = true) :
    State.wf (doTickLost d s) = true := by
  unfold doTickLost
  repeat' first
    | intro _ | with_reducible assumption | with_reducible apply wf_sf | with_reducible apply wf_raise
    | with_reducible apply wf_onTick | with_reducible apply wf_ite | with_reducible apply wf_ite_fst
    | (refine wf_of_eq (by assumption) ?_) | dsimp only | simp only [wf_mk] | split

theorem wf_emitTick (d : DieId) (t : Tick) {s : State} (hs : s.wf = true) :
    State.wf (emitTick d t s) = true := by
  unfold emitTick
  repeat' first
    | intro _ | with_reducible assumption | with_reducible apply wf_tickSpread | with_reducible apply wf_onMaster
    | with_reducible apply wf_ite | with_reducible apply wf_ite_fst | dsimp only | simp only [wf_mk] | split

theorem wf_emitHold (d : DieId) (t : Tick) (cause heldStep heldFrame : Nat) {s : State} (hs : s.wf = true) :
    State.wf (emitHold d t cause heldStep heldFrame s) = true := by
  unfold emitHold
  repeat' first
    | intro _ | with_reducible assumption | with_reducible apply wf_setMState | with_reducible apply wf_onMaster
    | with_reducible apply wf_tickPages | with_reducible apply wf_emitTick | with_reducible apply wf_raise
    | with_reducible apply wf_ite | with_reducible apply wf_ite_fst | dsimp only | simp only [wf_mk] | split

theorem wf_emitNext (d : DieId) (t : Tick) (step frame : Nat) {s : State} (hs : s.wf = true) :
    State.wf (emitNext d t step frame s) = true := by
  unfold emitNext
  repeat' first
    | intro _ | with_reducible assumption | with_reducible apply wf_emitHold | with_reducible apply wf_emitTick
    | with_reducible apply wf_ite | with_reducible apply wf_ite_fst | dsimp only | simp only [wf_mk] | split

theorem wf_emitAbandon (d : DieId) (t : Tick) {s : State} (hs : s.wf = true) :
    State.wf (emitAbandon d t s) = true := by
  unfold emitAbandon
  repeat' first
    | intro _ | with_reducible assumption | with_reducible apply wf_onMaster | with_reducible apply wf_emitHold
    | with_reducible apply wf_raise | with_reducible apply wf_emitTick | with_reducible apply wf_ite
    | with_reducible apply wf_ite_fst | dsimp only | simp only [wf_mk] | split

theorem wf_endFrame (d : DieId) (lag : Nat) {s0 : State} (hs0 : s0.wf = true) :
    State.wf (endFrame d lag s0) = true := by
  unfold endFrame
  repeat' first
    | intro _ | with_reducible assumption | with_reducible apply wf_forEach | with_reducible apply wf_sf
    | with_reducible apply wf_emitAbandon | with_reducible apply wf_emitNext | with_reducible apply wf_onMaster
    | with_reducible apply wf_emitHold | with_reducible apply wf_raise | with_reducible apply wf_ite
    | with_reducible apply wf_ite_fst | (refine wf_of_eq (by assumption) ?_) | dsimp only | simp only [wf_mk] | split

theorem wf_tryEnd (d : DieId) (lag : Nat) {s : State} (hs : s.wf = true) :
    State.wf (tryEnd d lag s) = true := by
  unfold tryEnd
  repeat' first
    | intro _ | with_reducible assumption | with_reducible apply wf_endFrame | with_reducible apply wf_ite
    | with_reducible apply wf_ite_fst | dsimp only | split

theorem wf_doMinPeriodExpiry {s : State} (hs : s.wf = true) :
    State.wf (doMinPeriodExpiry s) = true := by
  unfold doMinPeriodExpiry
  repeat' first
    | intro _ | with_reducible assumption | with_reducible apply wf_onMaster | with_reducible apply wf_emitTick
    | with_reducible apply wf_tryEnd | with_reducible apply wf_ite | with_reducible apply wf_ite_fst
    | (refine wf_of_eq (by assumption) ?_) | dsimp only | simp only [wf_mk] | split

theorem wf_doDeadlineExpiry {s : State} (hs : s.wf = true) :
    State.wf (doDeadlineExpiry s) = true := by
  unfold doDeadlineExpiry
  repeat' first
    | intro _ | with_reducible assumption | with_reducible apply wf_tryEnd | with_reducible apply wf_onMaster
    | with_reducible apply wf_ite | with_reducible apply wf_ite_fst | (refine wf_of_eq (by assumption) ?_)
    | dsimp only | simp only [wf_mk] | split

theorem wf_doWatchdogExpiry {s : State} (hs : s.wf = true) :
    State.wf (doWatchdogExpiry s) = true := by
  unfold doWatchdogExpiry
  repeat' first
    | intro _ | with_reducible assumption | with_reducible apply wf_blockErr | with_reducible apply wf_raise
    | with_reducible apply wf_tallyAdd | with_reducible apply wf_emitHold | with_reducible apply wf_onMaster
    | with_reducible apply wf_ite | with_reducible apply wf_ite_fst | (refine wf_of_eq (by assumption) ?_) | dsimp only
    | simp only [wf_mk] | split

theorem wf_judgeReport (d : DieId) (r : Report) {s : State} (hs : s.wf = true) :
    State.wf (judgeReport d r s) = true := by
  unfold judgeReport
  repeat' first
    | intro _ | with_reducible assumption | with_reducible apply wf_tallyAdd | with_reducible apply wf_onMaster
    | with_reducible apply wf_tryEnd | with_reducible apply wf_ite | with_reducible apply wf_ite_fst | dsimp only
    | simp only [wf_mk] | split

theorem wf_doDoneReport (r : Report) {s : State} (hs : s.wf = true) :
    State.wf (doDoneReport r s) = true := by
  unfold doDoneReport
  repeat' first
    | intro _ | with_reducible assumption | with_reducible apply wf_judgeReport | (refine wf_of_eq (by assumption) ?_)
    | dsimp only | split

theorem wf_sendReport (d : DieId) (r : Report) {s : State} (hs : s.wf = true) :
    State.wf (sendReport d r s) = true := by
  unfold sendReport
  repeat' first
    | intro _ | with_reducible assumption | with_reducible apply wf_emit | with_reducible apply wf_tallyAdd
    | with_reducible apply wf_judgeReport | with_reducible apply wf_originate | with_reducible apply wf_ite
    | with_reducible apply wf_ite_fst | dsimp only | split

theorem wf_noteReport (r : Report) (x : DieId × EndedFrame) {s : State} (hs : s.wf = true) :
    State.wf (noteReport r x s) = true := by
  unfold noteReport
  repeat' first
    | intro _ | with_reducible assumption | with_reducible apply wf_onRec | with_reducible apply wf_failFrame
    | with_reducible apply wf_ite | with_reducible apply wf_ite_fst | dsimp only | simp only [wf_mk] | split

theorem wf_fileReport (td : DieId) (r : Report) (fs : List (DieId × EndedFrame)) {s : State} (hs : s.wf = true) :
    State.wf (fileReport td r fs s) = true := by
  unfold fileReport
  repeat' first
    | intro _ | with_reducible assumption | with_reducible apply wf_sendReport | with_reducible apply wf_forEach
    | with_reducible apply wf_noteReport | with_reducible apply wf_onTick | with_reducible apply wf_ite
    | with_reducible apply wf_ite_fst | dsimp only | simp only [wf_mk] | split

theorem wf_packageReport {s : State} (hs : s.wf = true) :
    State.wf (packageReport s) = true := by
  unfold packageReport
  repeat' first
    | intro _ | with_reducible assumption | with_reducible apply wf_tickPages | with_reducible apply wf_forEach
    | with_reducible apply wf_onTick | with_reducible apply wf_fileReport | with_reducible apply wf_ite
    | with_reducible apply wf_ite_fst | (refine wf_of_eq (by assumption) ?_) | with_reducible apply wf_noteReport
    | with_reducible apply wf_sendReport | with_reducible apply wf_foldl | dsimp only | simp only [wf_mk] | split

theorem wf_matchImg (o : Option (Img)) (g : State) (f : Img → State) (hg : g.wf = true) (hf : ∀ x, (f x).wf = true) :
    State.wf (match o with | none => g | some x => f x) = true := by
  cases o with
  | some x => exact hf x
  | none => exact hg

theorem wf_failDoomed (d : DieId) {s : State} (hs : s.wf = true) : State.wf (failDoomed d s) = true := by
  unfold failDoomed
  exact wf_matchImg _ _ _ hs (fun i => wf_forEach (fun _ _ h => wf_endFailed _ _ _ h) _ hs)

theorem wf_closeFrame (d : DieId) {s : State} (hs : s.wf = true) :
    State.wf (closeFrame d s) = true := by
  unfold closeFrame
  repeat' first
    | intro _ | with_reducible assumption | with_reducible apply wf_onDisp | (refine wf_of_eq (by assumption) ?_)
    | dsimp only | simp only [wf_mk] | split

theorem wf_takeUp (d : DieId) (f : LateFrame) (later : List LateFrame) {s : State} (hs : s.wf = true) :
    State.wf (takeUp d f later s) = true := by
  unfold takeUp
  repeat' first
    | with_reducible assumption | with_reducible apply wf_failDoomed | with_reducible apply wf_sf | with_reducible apply wf_onDie
    | with_reducible apply wf_onDisp | with_reducible apply wf_closeFrame | dsimp only

theorem wf_failStarted (d : DieId) (f : LateFrame) {s : State} (hs : s.wf = true) :
    State.wf (failStarted d f s) = true := by
  unfold failStarted
  repeat' first
    | with_reducible assumption | with_reducible apply wf_failFrame | split

theorem wf_startFrame (d : DieId) (f : LateFrame) (later : List LateFrame) {s : State} (hs : s.wf = true) :
    State.wf (startFrame d f later s) = true := wf_failStarted d f (wf_takeUp d f later hs)

theorem wf_lateReport (t : Tick) {s : State} (hs : s.wf = true) :
    State.wf (lateReport t s) = true := by
  unfold lateReport
  repeat' first
    | intro _ | with_reducible assumption | with_reducible apply wf_fileReport | with_reducible apply wf_ite
    | with_reducible apply wf_ite_fst | (refine wf_of_eq (by assumption) ?_) | dsimp only | simp only [wf_mk] | split

theorem wf_lateContrib (t : Tick) {s : State} (hs : s.wf = true) :
    State.wf (lateContrib t s) = true := by
  unfold lateContrib
  repeat' first
    | intro _ | with_reducible assumption | with_reducible apply wf_fileReport | with_reducible apply wf_ite
    | with_reducible apply wf_ite_fst | (refine wf_of_eq (by assumption) ?_) | dsimp only | simp only [wf_mk] | split

theorem wf_catchUp (d : DieId) {s : State} (hs : s.wf = true) :
    State.wf (catchUp d s) = true := by
  unfold catchUp
  repeat' first
    | intro _ | with_reducible assumption | with_reducible apply wf_addItem | with_reducible apply wf_lateReport
    | with_reducible apply wf_startFrame | with_reducible apply wf_lateContrib | with_reducible apply wf_ite
    | with_reducible apply wf_ite_fst | (refine wf_of_eq (by assumption) ?_) | with_reducible apply wf_sendReport
    | dsimp only | simp only [wf_mk] | split

theorem wf_doDieDoneState (d : DieId) {s : State} (hs : s.wf = true) :
    State.wf (doDieDoneState d s) = true := by
  unfold doDieDoneState
  repeat' first
    | intro _ | with_reducible assumption | with_reducible apply wf_catchUp | with_reducible apply wf_packageReport
    | with_reducible apply wf_swPost | with_reducible apply wf_emit | with_reducible apply wf_ite
    | with_reducible apply wf_ite_fst | (refine wf_of_eq (by assumption) ?_) | dsimp only | simp only [wf_mk] | split

theorem wf_dropTicks {s : State} (hs : s.wf = true) :
    State.wf (dropTicks s) = true := by
  unfold dropTicks
  repeat' first
    | intro _ | with_reducible assumption | with_reducible apply wf_forEach | with_reducible apply wf_onTick | dsimp only
    | simp only [wf_mk]

theorem wf_runMaster (d : DieId) {s : State} (hs : s.wf = true) :
    State.wf (runMaster d s) = true := by
  unfold runMaster
  repeat' first
    | intro _ | with_reducible assumption | with_reducible apply wf_setMState | with_reducible apply wf_onMaster
    | with_reducible apply wf_emitTick | dsimp only | simp only [wf_mk]

theorem wf_resumeMaster (d : DieId) {s : State} (hs : s.wf = true) :
    State.wf (resumeMaster d s) = true := by
  unfold resumeMaster
  repeat' first
    | intro _ | with_reducible assumption | with_reducible apply wf_setMState | with_reducible apply wf_emitTick
    | with_reducible apply wf_onMaster | with_reducible apply wf_ite | with_reducible apply wf_ite_fst | dsimp only
    | simp only [wf_mk] | split

theorem wf_tickCtrlEffect (d : DieId) (en run : Nat) (v : Nat) {s : State} (hs : s.wf = true) :
    State.wf (tickCtrlEffect d en run v s) = true := by
  unfold tickCtrlEffect
  repeat' first
    | intro _ | with_reducible assumption | with_reducible apply wf_onTick | with_reducible apply wf_ladderReset
    | with_reducible apply wf_dropTicks | with_reducible apply wf_runMaster | with_reducible apply wf_setMState
    | with_reducible apply wf_resumeMaster | with_reducible apply wf_tickPages | with_reducible apply wf_onMaster
    | with_reducible apply wf_ite | with_reducible apply wf_ite_fst | (refine wf_of_eq (by assumption) ?_)
    | dsimp only | simp only [wf_mk] | split

theorem wf_tickCtrlWrite (d : DieId) (v : Nat) {s : State} (hs : s.wf = true) :
    State.wf (tickCtrlWrite d v s).1 = true := by
  unfold tickCtrlWrite
  repeat' first
    | intro _ | with_reducible assumption | with_reducible apply wf_tickCtrlEffect | with_reducible apply wf_sf
    | with_reducible apply wf_ite | with_reducible apply wf_ite_fst | dsimp only | split

theorem wf_chargePhase (d : DieId) {s : State} (hs : s.wf = true) :
    State.wf (chargePhase d s) = true := by
  unfold chargePhase
  repeat' first
    | intro _ | with_reducible assumption | with_reducible apply wf_onTick | dsimp only | simp only [wf_mk]

theorem wf_setRamp (d : DieId) (m ramp : Nat) {s : State} (hs : s.wf = true) :
    State.wf (setRamp d m ramp s) = true := by
  unfold setRamp
  repeat' first
    | intro _ | with_reducible assumption | with_reducible apply wf_sf | dsimp only

theorem wf_doArrayStart (d : DieId) (rank : Fin 6) {s : State} (hs : s.wf = true) :
    State.wf (doArrayStart d rank s) = true := by
  unfold doArrayStart
  repeat' first
    | intro _ | with_reducible assumption | with_reducible apply wf_setRamp | with_reducible apply wf_ite
    | with_reducible apply wf_ite_fst | (refine wf_of_eq (by assumption) ?_) | dsimp only | split

theorem wf_doRampStep (d : DieId) (mx : Fin 7) {s : State} (hs : s.wf = true) :
    State.wf (doRampStep d mx s) = true := by
  unfold doRampStep
  repeat' first
    | intro _ | with_reducible assumption | with_reducible apply wf_setRamp | with_reducible apply wf_ite
    | with_reducible apply wf_ite_fst | dsimp only | split

end Sys2Proof.Machine
end

