-- ==== Sys2Proof/Laws/WfEdge.lean ====
section
/-!
SUPPORT. Laws/WfEdge.lean: what Machine/Edge.lean changes of the sparse maps of the package keeps their canonical form.
-/
namespace Sys2Proof.Machine

theorem wf_snapTallies (d : DieId) {s : State} (hs : s.wf = true) : State.wf (snapTallies d s) = true := by
  unfold snapTallies
  dsimp only
  simp only [State.wf_parts] at *
  obtain ⟨h1, h2, h3, h4, h5, h6, h7, h8, h9, h10⟩ := hs
  refine ⟨?_, ?_, ?_, ?_, ?_, ?_, ?_, ?_, ?_, ?_⟩ <;> first
    | assumption
    | exact swf_skeep _ (by assumption)
    | exact swf_sset _ _ (by assumption)
    | exact swf_foldl_sset _ _ _ (by assumption)
    | exact swf_foldl_sset _ _ _ (swf_skeep _ (by assumption))

theorem wf_latchTallies (d : DieId) {s : State} (hs : s.wf = true) :
    State.wf (latchTallies d s) = true := by
  unfold latchTallies
  repeat' first
    | intro _ | with_reducible assumption | with_reducible apply wf_ite | with_reducible apply wf_ite_fst
    | with_reducible apply wf_foldl | dsimp only | simp only [wf_mk] | split

theorem wf_tallyStream (t : Tick) {s : State} (hs : s.wf = true) :
    State.wf (tallyStream t s) = true := by
  unfold tallyStream
  repeat' first
    | intro _ | with_reducible assumption | with_reducible apply wf_forEach | with_reducible apply wf_qPush
    | with_reducible apply wf_ite | with_reducible apply wf_ite_fst | dsimp only | split

theorem wf_laggardRun (d : DieId) (t : Tick) {s : State} (hs : s.wf = true) :
    State.wf (laggardRun d t s) = true := by
  unfold laggardRun
  repeat' first
    | intro _ | with_reducible assumption | with_reducible apply wf_wr | with_reducible apply wf_tallyAdd
    | with_reducible apply wf_raise | with_reducible apply wf_ite | with_reducible apply wf_ite_fst | dsimp only
    | split

theorem wf_tickFacts (d : DieId) (t : Tick) {s : State} (hs : s.wf = true) :
    State.wf (tickFacts d t s) = true := by
  unfold tickFacts
  repeat' first
    | intro _ | with_reducible assumption | with_reducible apply wf_wr | with_reducible apply wf_forEach
    | with_reducible apply wf_wr64 | with_reducible apply wf_sf | with_reducible apply wf_laggardRun
    | with_reducible apply wf_raise | with_reducible apply wf_tallyAdd | with_reducible apply wf_ite
    | with_reducible apply wf_ite_fst | dsimp only | split

theorem wf_exclude (d : DieId) (t : Tick) (ended : Option Tick) {s : State} (hs : s.wf = true) :
    State.wf (exclude d t ended s).1 = true := by
  unfold exclude
  repeat' first
    | intro _ | with_reducible assumption | with_reducible apply wf_onCe | with_reducible apply wf_ite
    | with_reducible apply wf_ite_fst | (refine wf_of_eq (by assumption) ?_) | dsimp only | simp only [wf_mk] | split

theorem wf_lateExclusion (d : DieId) {s : State} (hs : s.wf = true) :
    State.wf (lateExclusion d s) = true := by
  unfold lateExclusion
  repeat' first
    | intro _ | with_reducible assumption | with_reducible apply wf_failOpen | with_reducible apply wf_tallyAdd
    | with_reducible apply wf_raise | with_reducible apply wf_onRec | with_reducible apply wf_failCause | dsimp only
    | simp only [wf_mk]

theorem wf_cutTasks (d : DieId) {s : State} (hs : s.wf = true) :
    State.wf (cutTasks d s) = true := by
  unfold cutTasks
  repeat' first
    | intro _ | with_reducible assumption | with_reducible apply wf_forEach | with_reducible apply wf_cutTask
    | with_reducible apply wf_vxRelease | with_reducible apply wf_ite | with_reducible apply wf_ite_fst
    | (refine wf_of_eq (by assumption) ?_) | dsimp only | simp only [wf_mk] | split

theorem wf_cutFrames (d : DieId) {s : State} (hs : s.wf = true) :
    State.wf (cutFrames d s) = true := by
  unfold cutFrames
  repeat' first
    | intro _ | with_reducible assumption | with_reducible apply wf_sf | with_reducible apply wf_onDisp
    | with_reducible apply wf_cutTasks | with_reducible apply wf_forEach | with_reducible apply wf_cutTask
    | with_reducible apply wf_vxRelease | with_reducible apply wf_ite | with_reducible apply wf_ite_fst | dsimp only
    | simp only [wf_mk]

theorem wf_commitDie (d : DieId) {s : State} (hs : s.wf = true) :
    State.wf (commitDie d s) = true := by
  unfold commitDie
  repeat' first
    | intro _ | with_reducible assumption | with_reducible apply wf_flipEntries | with_reducible apply wf_forEach
    | with_reducible apply wf_dormantApply | with_reducible apply wf_ladderApply | with_reducible apply wf_tallyAdd
    | with_reducible apply wf_onDie | with_reducible apply wf_sf | with_reducible apply wf_sentCommit
    | with_reducible apply wf_loftTick | with_reducible apply wf_exportStart | with_reducible apply wf_feedRelease
    | with_reducible apply wf_wr | with_reducible apply wf_replayPast | with_reducible apply wf_ite
    | with_reducible apply wf_ite_fst | dsimp only | simp only [wf_mk] | split

theorem wf_bankScalars (d : DieId) {s : State} (hs : s.wf = true) :
    State.wf (bankScalars d s) = true := by
  unfold bankScalars
  repeat' first
    | intro _ | with_reducible assumption | with_reducible apply wf_forEach | with_reducible apply wf_wr64
    | dsimp only

theorem wf_restoreScalars (d : DieId) {s : State} (hs : s.wf = true) :
    State.wf (restoreScalars d s) = true := by
  unfold restoreScalars
  repeat' first
    | intro _ | with_reducible assumption | with_reducible apply wf_tallyAdd | with_reducible apply wf_forEach
    | with_reducible apply wf_wr64 | dsimp only

theorem wf_clearWork (d : DieId) {s : State} (hs : s.wf = true) :
    State.wf (clearWork d s) = true := by
  unfold clearWork
  repeat' first
    | intro _ | with_reducible assumption | with_reducible apply wf_onDie | with_reducible apply wf_watchClear | dsimp only
    | simp only [wf_mk]

theorem wf_abandonDie (d : DieId) {s : State} (hs : s.wf = true) :
    State.wf (abandonDie d s) = true := by
  unfold abandonDie
  repeat' first
    | intro _ | with_reducible assumption | with_reducible apply wf_dropBuckets | with_reducible apply wf_clearWork
    | with_reducible apply wf_restoreScalars | with_reducible apply wf_dropPending
    | with_reducible apply wf_feedRewind | with_reducible apply wf_loftTick | with_reducible apply wf_sf
    | with_reducible apply wf_wr | with_reducible apply wf_tallyAdd | dsimp only

theorem wf_setSlotState (d : DieId) (k st : Nat) {s : State} (hs : s.wf = true) :
    State.wf (setSlotState d k st s) = true := by
  unfold setSlotState
  repeat' first
    | intro _ | with_reducible assumption | with_reducible apply wf_wr | with_reducible apply wf_sf
    | with_reducible apply wf_ite | with_reducible apply wf_ite_fst | dsimp only | split

theorem wf_loadProg (d : DieId) (i : Img) {s : State} (hs : s.wf = true) :
    State.wf (loadProg d i s) = true := by
  unfold loadProg
  repeat' first
    | intro _ | with_reducible assumption | with_reducible apply wf_memRead | with_reducible apply wf_onDie | dsimp only
    | simp only [wf_mk]

theorem wf_activateSlot (d : DieId) (k : Nat) (step : Nat) {s : State} (hs : s.wf = true) :
    State.wf (activateSlot d k step s) = true := by
  unfold activateSlot
  repeat' first
    | intro _ | with_reducible assumption | with_reducible apply wf_setSlotState | with_reducible apply wf_wr64
    | with_reducible apply wf_sf | with_reducible apply wf_forEach | with_reducible apply wf_loadProg
    | with_reducible apply wf_raise | with_reducible apply wf_tallyAdd | with_reducible apply wf_exportCheck
    | with_reducible apply wf_shelfActivate | with_reducible apply wf_takeOver | with_reducible apply wf_ite
    | with_reducible apply wf_ite_fst | with_reducible apply wf_onDie | dsimp only | split

theorem wf_slotTick (d : DieId) (step k : Nat) {s : State} (hs : s.wf = true) :
    State.wf (slotTick d step k s) = true := by
  unfold slotTick
  repeat' first
    | intro _ | with_reducible assumption | with_reducible apply wf_activateSlot | with_reducible apply wf_raise
    | with_reducible apply wf_tallyAdd | with_reducible apply wf_setSlotState | with_reducible apply wf_ite
    | with_reducible apply wf_ite_fst | dsimp only | split

theorem wf_fenceSettle (p : Nat) {s : State} (hs : s.wf = true) :
    State.wf (fenceSettle p s) = true := by
  unfold fenceSettle
  repeat' first
    | intro _ | with_reducible assumption | with_reducible apply wf_setFenced | with_reducible apply wf_sf
    | with_reducible apply wf_ite | with_reducible apply wf_ite_fst | dsimp only | split

theorem wf_fenceTick (d : DieId) (stepStart : Bool) {s : State} (hs : s.wf = true) :
    State.wf (fenceTick d stepStart s) = true := by
  unfold fenceTick
  repeat' first
    | intro _ | with_reducible assumption | with_reducible apply wf_arrayTick | with_reducible apply wf_stepStart
    | with_reducible apply wf_sampleStatus | with_reducible apply wf_forEach | with_reducible apply wf_fenceSettle
    | with_reducible apply wf_ite | with_reducible apply wf_ite_fst | dsimp only | split

theorem wf_clearFaults (d : DieId) {s : State} (hs : s.wf = true) :
    State.wf (clearFaults d s) = true := by
  unfold clearFaults
  repeat' first
    | intro _ | with_reducible assumption | with_reducible apply wf_wr | with_reducible apply wf_forEach
    | with_reducible apply wf_wr64 | dsimp only

theorem wf_stepStart (d : DieId) (t : Tick) {s : State} (hs : s.wf = true) :
    State.wf (stepStart d t s) = true := by
  unfold stepStart
  repeat' first
    | intro _ | with_reducible assumption | with_reducible apply wf_clearFaults | with_reducible apply wf_clearWork
    | with_reducible apply wf_slotTick | with_reducible apply wf_onDisp | with_reducible apply wf_onDie
    | with_reducible apply wf_ceStepStart | with_reducible apply wf_sf | with_reducible apply wf_raise
    | with_reducible apply wf_feedMark | with_reducible apply wf_feedRelease | with_reducible apply wf_bankScalars
    | with_reducible apply wf_onJrnl | with_reducible apply wf_replayTake | with_reducible apply wf_recOpen
    | with_reducible apply wf_ite | with_reducible apply wf_ite_fst | (refine wf_of_eq (by assumption) ?_)
    | dsimp only | simp only [wf_mk] | split

theorem wf_sideCheck (d : DieId) {s : State} (hs : s.wf = true) :
    State.wf (sideCheck d s) = true := by
  unfold sideCheck
  repeat' first
    | intro _ | with_reducible assumption | with_reducible apply wf_failOpen | with_reducible apply wf_raise
    | with_reducible apply wf_ite | with_reducible apply wf_ite_fst | with_reducible apply wf_failCause | dsimp only | split

theorem wf_sentFrame (d : DieId) {s : State} (hs : s.wf = true) :
    State.wf (sentFrame d s) = true := by
  unfold sentFrame
  repeat' first
    | intro _ | with_reducible assumption | with_reducible apply wf_onDie | with_reducible apply wf_forEach
    | with_reducible apply wf_sentEval | with_reducible apply wf_onDisp | (refine wf_of_eq (by assumption) ?_) | dsimp only
    | simp only [wf_mk] | split

theorem wf_openType (d : DieId) (t : Tick) {s : State} (hs : s.wf = true) :
    State.wf (openType d t s) = true := by
  unfold openType
  repeat' first
    | intro _ | with_reducible assumption | with_reducible apply wf_sentFrame | with_reducible apply wf_sideCheck
    | with_reducible apply wf_digestForm | with_reducible apply wf_exportStream | with_reducible apply wf_reshardOpen
    | with_reducible apply wf_ite | with_reducible apply wf_ite_fst | with_reducible apply wf_forEach
    | with_reducible apply wf_sentEval | dsimp only | split

theorem wf_openFrame (d : DieId) (t : Tick) {s : State} (hs : s.wf = true) :
    State.wf (openFrame d t s) = true := by
  unfold openFrame
  repeat' first
    | intro _ | with_reducible assumption | with_reducible apply wf_onJrnl | with_reducible apply wf_sf
    | with_reducible apply wf_onDisp | with_reducible apply wf_startFrame | with_reducible apply wf_openType
    | with_reducible apply wf_failOpen | with_reducible apply wf_ite | with_reducible apply wf_ite_fst
    | with_reducible apply wf_onDie | with_reducible apply wf_failCause | dsimp only | simp only [wf_mk] | split

theorem wf_routeTick (d : DieId) {s : State} (hs : s.wf = true) :
    State.wf (routeTick d s) = true := by
  unfold routeTick
  repeat' first
    | intro _ | with_reducible assumption | with_reducible apply wf_sf | with_reducible apply wf_ite
    | with_reducible apply wf_ite_fst | dsimp only | split

theorem wf_closePhases (d : DieId) {s : State} (hs : s.wf = true) :
    State.wf (closePhases d s) = true := by
  unfold closePhases
  repeat' first
    | intro _ | with_reducible assumption | with_reducible apply wf_onTick | dsimp only | simp only [wf_mk]

theorem wf_tickItems (d : DieId) (t : Tick) (slack : Nat) (e : Bool) {s : State} (hs : s.wf = true) :
    State.wf (tickItems d t slack e s) = true := by
  unfold tickItems
  repeat' first
    | intro _ | with_reducible assumption | with_reducible apply wf_addItem | with_reducible apply wf_ite
    | with_reducible apply wf_ite_fst | dsimp only | split

theorem wf_sideRelease (d : DieId) (ended : Option Tick) {s : State} (hs : s.wf = true) :
    State.wf (sideRelease d ended s) = true := by
  unfold sideRelease
  repeat' first
    | intro _ | with_reducible assumption | with_reducible apply wf_sideUp | with_reducible apply wf_onCe
    | with_reducible apply wf_ite | with_reducible apply wf_ite_fst | (refine wf_of_eq (by assumption) ?_) | dsimp only
    | simp only [wf_mk] | split

theorem wf_edgeFacts (d : DieId) (t : Tick) (ended : Option Tick) (slack : Nat) {s : State} (hs : s.wf = true) :
    State.wf (edgeFacts d t ended slack s).1 = true := by
  unfold edgeFacts
  repeat' first
    | with_reducible assumption | with_reducible apply wf_ite | with_reducible apply wf_tickItems
    | with_reducible apply wf_exclude | with_reducible apply wf_tickFacts | with_reducible apply wf_addItem
    | with_reducible apply wf_latchTallies | with_reducible apply wf_snapTallies | dsimp only | split

theorem wf_edgeEnds (d : DieId) (t : Tick) (ended : Option Tick) {s : State} (hs : s.wf = true) :
    State.wf (edgeEnds d t ended s) = true := by
  unfold edgeEnds
  repeat' first
    | with_reducible assumption | with_reducible apply wf_ite | with_reducible apply wf_closePhases
    | with_reducible apply wf_recWrite | with_reducible apply wf_onRec | with_reducible apply wf_loftTick
    | with_reducible apply wf_reshardEnd | with_reducible apply wf_commitDie | with_reducible apply wf_abandonDie
    | with_reducible apply wf_recEnd | with_reducible apply wf_onDie | with_reducible apply wf_cutFrames | dsimp only

theorem wf_edgeTurns (d : DieId) (t : Tick) (slack : Nat) {s : State} (hs : s.wf = true) :
    State.wf (edgeTurns d t slack s) = true := by
  unfold edgeTurns
  repeat' first
    | with_reducible assumption | with_reducible apply wf_ite | with_reducible apply wf_tickItems
    | with_reducible apply wf_stepStart | with_reducible apply wf_onTick | with_reducible apply wf_fenceTick
    | with_reducible apply wf_rtExchange | with_reducible apply wf_sf | with_reducible apply wf_routeTick
    | dsimp only | simp only [wf_mk]

theorem wf_edgeOpens (d : DieId) (t : Tick) (ended : Option Tick) (late : Bool) {s : State} (hs : s.wf = true) :
    State.wf (edgeOpens d t ended late s) = true := by
  unfold edgeOpens
  repeat' first
    | with_reducible assumption | with_reducible apply wf_ite | with_reducible apply wf_emit | with_reducible apply wf_tallyStream
    | with_reducible apply wf_lateExclusion | with_reducible apply wf_openFrame | with_reducible apply wf_sideRelease | dsimp only

theorem wf_edgeWork (d : DieId) (t : Tick) {s : State} (hs : s.wf = true) : State.wf (edgeWork d t s) = true :=
  wf_edgeOpens d t _ _ (wf_edgeTurns d t _ (wf_edgeEnds d t _ (wf_edgeFacts d t _ _ hs)))

theorem wf_doTickEdge (d : DieId) {s : State} (hs : s.wf = true) :
    State.wf (doTickEdge d s) = true := by
  unfold doTickEdge
  repeat' first
    | intro _ | with_reducible assumption | with_reducible apply wf_wr64 | with_reducible apply wf_edgeWork
    | with_reducible apply wf_onTick | with_reducible apply wf_ite | with_reducible apply wf_ite_fst
    | (refine wf_of_eq (by assumption) ?_) | dsimp only | simp only [wf_mk] | split

end Sys2Proof.Machine
end

