-- ==== Sys2Proof/Laws/WfValidate.lean ====
section
/-!
SUPPORT. Laws/WfValidate.lean: what Machine/Validate.lean changes of the sparse maps of the package keeps their canonical form.
-/
namespace Sys2Proof.Machine

theorem wf_readEntries (d : DieId) (sec a size n : Nat) {s : State} (hs : s.wf = true) :
    State.wf (readEntries d sec a size n s).1 = true := by
  unfold readEntries
  repeat' first
    | intro _ | with_reducible assumption | with_reducible apply wf_readRange | with_reducible apply wf_foldl
    | (refine wf_of_eq (by assumption) ?_) | dsimp only | split

theorem wf_thenRead (d : DieId) (sec a size n : Nat) (x : State × Option VErr) (hx : x.1.wf = true) :
    State.wf (thenRead d sec a size n x).1 = true := by
  unfold thenRead
  split
  · exact hx
  · exact wf_readEntries _ _ _ _ _ hx

theorem wf_readSections (d : DieId) (i : Img) {s : State} (hs : s.wf = true) : State.wf (readSections d i s).1 = true := by
  unfold readSections
  exact wf_thenRead _ _ _ _ _ _ (wf_thenRead _ _ _ _ _ _ (wf_thenRead _ _ _ _ _ _ (wf_thenRead _ _ _ _ _ _
    (wf_readEntries _ _ _ _ _ hs))))

theorem wf_validate (d : DieId) (base len : Nat) {s : State} (hs : s.wf = true) :
    State.wf (validate d base len s).1 = true := by
  unfold validate
  repeat' first
    | intro _ | with_reducible assumption | with_reducible apply wf_memRead | with_reducible apply wf_readSections
    | (refine wf_of_eq (by assumption) ?_) | dsimp only | simp only [wf_mk] | split

end Sys2Proof.Machine
end

