-- ==== Sys2Proof/Laws/WfSlots.lean ====
section
/-!
SUPPORT. Laws/WfSlots.lean: what Machine/Slots.lean changes of the sparse maps of the package keeps their canonical form.
-/
namespace Sys2Proof.Machine

theorem wf_onSlot (d : DieId) (k : Nat) (f : Slot → Slot) {s : State} (hs : s.wf = true) :
    State.wf (onSlot d k f s) = true := by
  unfold onSlot
  repeat' first
    | intro _ | with_reducible assumption | with_reducible apply wf_onDisp | with_reducible apply wf_ite
    | with_reducible apply wf_ite_fst | dsimp only | simp only [wf_mk] | split

theorem wf_slotLoad (d : DieId) (k : Nat) {s : State} (hs : s.wf = true) :
    State.wf (slotLoad d k s).1 = true := by
  unfold slotLoad
  repeat' first
    | intro _ | with_reducible assumption | with_reducible apply wf_setSlotState | with_reducible apply wf_onSlot
    | with_reducible apply wf_ite | with_reducible apply wf_ite_fst | dsimp only | split

theorem wf_slotArm (d : DieId) (k : Nat) {s : State} (hs : s.wf = true) :
    State.wf (slotArm d k s).1 = true := by
  unfold slotArm
  repeat' first
    | intro _ | with_reducible assumption | with_reducible apply wf_setSlotState | with_reducible apply wf_onSlot
    | with_reducible apply wf_ite | with_reducible apply wf_ite_fst | (refine wf_of_eq (by assumption) ?_)
    | dsimp only | simp only [wf_mk] | split

theorem wf_slotCommand (d : DieId) (op k : Nat) {s : State} (hs : s.wf = true) :
    State.wf (slotCommand d op k s).1 = true := by
  unfold slotCommand
  repeat' first
    | intro _ | with_reducible assumption | with_reducible apply wf_slotLoad | with_reducible apply wf_slotArm
    | with_reducible apply wf_setSlotState | with_reducible apply wf_ite | with_reducible apply wf_ite_fst
    | (refine wf_of_eq (by assumption) ?_) | dsimp only | simp only [wf_mk] | split

theorem wf_validationFails (d : DieId) (k : Nat) (e : VErr) {s : State} (hs : s.wf = true) :
    State.wf (validationFails d k e s) = true := by
  unfold validationFails
  repeat' first
    | intro _ | with_reducible assumption | with_reducible apply wf_wr | with_reducible apply wf_setSlotState
    | with_reducible apply wf_raise | with_reducible apply wf_tallyAdd | with_reducible apply wf_blockErr | dsimp only

theorem wf_validationPasses (d : DieId) (k : Nat) {s : State} (hs : s.wf = true) :
    State.wf (validationPasses d k s) = true := by
  unfold validationPasses
  repeat' first
    | intro _ | with_reducible assumption | with_reducible apply wf_onSlot | with_reducible apply wf_onDie
    | with_reducible apply wf_sf | with_reducible apply wf_setSlotState | with_reducible apply wf_raise
    | with_reducible apply wf_tallyAdd | with_reducible apply wf_ite | with_reducible apply wf_ite_fst | dsimp only
    | simp only [wf_mk] | split

theorem wf_doValidationDone (d : DieId) (slot : Fin 2) {s : State} (hs : s.wf = true) :
    State.wf (doValidationDone d slot s) = true := by
  unfold doValidationDone
  repeat' first
    | intro _ | with_reducible assumption | with_reducible apply wf_validate | with_reducible apply wf_validationFails
    | with_reducible apply wf_validationPasses | with_reducible apply wf_ite | with_reducible apply wf_ite_fst
    | (refine wf_of_eq (by assumption) ?_) | dsimp only | simp only [wf_mk] | split

theorem wf_unitComplete (d : DieId) (i : Img) (tk : Task) (t : Nat) {s : State} (hs : s.wf = true) :
    State.wf (unitComplete d i tk t s) = true := by
  unfold unitComplete
  repeat' first
    | intro _ | with_reducible assumption | with_reducible apply wf_matComplete | with_reducible apply wf_vxComplete
    | with_reducible apply wf_updComplete | with_reducible apply wf_tallyAdd | with_reducible apply wf_ceComplete
    | with_reducible apply wf_mvComplete | with_reducible apply wf_ite | with_reducible apply wf_ite_fst | dsimp only | split

theorem wf_lateWork (d : DieId) (i : Img) (tk : Task) (t : Nat) {s : State} (hs : s.wf = true) :
    State.wf (lateWork d i tk t s).1 = true := by
  unfold lateWork
  repeat' first
    | intro _ | with_reducible assumption | with_reducible apply wf_matmul | with_reducible apply wf_ite
    | with_reducible apply wf_ite_fst | dsimp only | split

theorem wf_doTaskComplete (d : DieId) (t : Nat) {s : State} (hs : s.wf = true) :
    State.wf (doTaskComplete d t s) = true := by
  unfold doTaskComplete
  repeat' first
    | intro _ | with_reducible assumption | with_reducible apply wf_lateWork | with_reducible apply wf_completeTask
    | with_reducible apply wf_unitComplete | with_reducible apply wf_taskFault | with_reducible apply wf_ite
    | with_reducible apply wf_ite_fst | (refine wf_of_eq (by assumption) ?_) | dsimp only | simp only [wf_mk] | split

end Sys2Proof.Machine
end

