-- ==== Sys2Proof/Laws/WfDeliver.lean ====
section
/-!
SUPPORT. Laws/WfDeliver.lean: what Machine/Deliver.lean changes of the sparse maps of the package keeps their canonical form.
-/
namespace Sys2Proof.Machine

theorem wf_ceDeliver (l : LinkMsg) {s : State} (hs : s.wf = true) :
    State.wf (ceDeliver l s) = true := by
  unfold ceDeliver
  repeat' first
    | intro _ | with_reducible assumption | with_reducible apply wf_doContrib | with_reducible apply wf_doCheck
    | with_reducible apply wf_doAck | with_reducible apply wf_doTreeUp | with_reducible apply wf_doTreeDown
    | with_reducible apply wf_doSideUp | with_reducible apply wf_doSideDown | with_reducible apply wf_doShard
    | with_reducible apply wf_doMove | with_reducible apply wf_doRefuse | (refine wf_of_eq (by assumption) ?_)
    | dsimp only | simp only [wf_mk] | split

theorem wf_deliver (m : LinkMsg) {s : State} (hs : s.wf = true) :
    State.wf (deliver m s) = true := by
  unfold deliver
  repeat' first
    | intro _ | with_reducible assumption | with_reducible apply wf_doDoneReport
    | with_reducible apply wf_doExportStreamReceive | with_reducible apply wf_ceDeliver
    | (refine wf_of_eq (by assumption) ?_) | dsimp only | split

theorem wf_judgeMessage (p : PortId) (c : PortId) (m : LinkMsg) {s : State} (hs : s.wf = true) :
    State.wf (judgeMessage p c m s) = true := by
  unfold judgeMessage
  repeat' first
    | intro _ | with_reducible assumption | with_reducible apply wf_tallyAdd | with_reducible apply wf_tickArrive
    | with_reducible apply wf_deliver | with_reducible apply wf_sendOn | with_reducible apply wf_ite
    | with_reducible apply wf_ite_fst | (refine wf_of_eq (by assumption) ?_) | with_reducible apply wf_doTickReceive
    | dsimp only | simp only [wf_mk] | split

theorem wf_returnCredits (p : PortId) {s : State} (hs : s.wf = true) :
    State.wf (returnCredits p s) = true := by
  unfold returnCredits
  repeat' first
    | intro _ | with_reducible assumption | with_reducible apply wf_sendNull | with_reducible apply wf_ite
    | with_reducible apply wf_ite_fst | dsimp only | split

theorem wf_doLinkMessage (p : PortId) (m : LinkMsg) {s : State} (hs : s.wf = true) :
    State.wf (doLinkMessage p m s) = true := by
  unfold doLinkMessage
  repeat' first
    | intro _ | with_reducible assumption | with_reducible apply wf_onPort | with_reducible apply wf_returnCredits
    | with_reducible apply wf_judgeMessage | with_reducible apply wf_freeCredits | with_reducible apply wf_ite
    | with_reducible apply wf_ite_fst | (refine wf_of_eq (by assumption) ?_) | dsimp only | simp only [wf_mk] | split

theorem wf_doFlitReceive (p : PortId) (bytes : List Byte) (fec : Fec) {s : State} (hs : s.wf = true) :
    State.wf (doFlitReceive p bytes fec s) = true := by
  unfold doFlitReceive
  repeat' first
    | intro _ | with_reducible assumption | with_reducible apply wf_takeFlit | with_reducible apply wf_twinTake
    | with_reducible apply wf_ite | with_reducible apply wf_ite_fst | (refine wf_of_eq (by assumption) ?_) | dsimp only
    | simp only [wf_mk] | split

end Sys2Proof.Machine
end

