-- ==== Sys2Proof/Laws/WfBoot.lean ====
section
/-!
SUPPORT. Laws/WfBoot.lean: what Machine/Boot.lean changes of the sparse maps of the package keeps their canonical form.
-/
namespace Sys2Proof.Machine

theorem wf_onStw (f : Steward → Steward) {s : State} (hs : s.wf = true) :
    State.wf (onStw f s) = true := by
  unfold onStw
  repeat' first
    | intro _ | with_reducible assumption | dsimp only | simp only [wf_mk]

theorem wf_orBit (p : Nat) (f : Fld) (i : Nat) {s : State} (hs : s.wf = true) :
    State.wf (orBit p f i s) = true := by
  unfold orBit
  repeat' first
    | intro _ | with_reducible assumption | with_reducible apply wf_sf | with_reducible apply wf_ite
    | with_reducible apply wf_ite_fst | dsimp only | split

theorem wf_flashErase (a n : Nat) {s : State} (hs : s.wf = true) :
    State.wf (flashErase a n s) = true := by
  unfold flashErase
  repeat' first
    | intro _ | with_reducible assumption | with_reducible apply wf_onStw | dsimp only | simp only [wf_mk]

theorem wf_flashWrite (a : Nat) (bs : List Byte) {s : State} (hs : s.wf = true) :
    State.wf (flashWrite a bs s) = true := by
  unfold flashWrite
  repeat' first
    | intro _ | with_reducible assumption | with_reducible apply wf_onStw | dsimp only | simp only [wf_mk]

theorem wf_enterStage (n : Nat) {s : State} (hs : s.wf = true) :
    State.wf (enterStage n s) = true := by
  unfold enterStage
  repeat' first
    | intro _ | with_reducible assumption | with_reducible apply wf_emits | with_reducible apply wf_sf | dsimp only

theorem wf_bootFault (code : Nat) {s : State} (hs : s.wf = true) :
    State.wf (bootFault code s) = true := by
  unfold bootFault
  repeat' first
    | intro _ | with_reducible assumption | with_reducible apply wf_enterStage | with_reducible apply wf_sf
    | dsimp only

theorem wf_posFault (code : Nat) {s : State} (hs : s.wf = true) :
    State.wf (posFault code s) = true := by
  unfold posFault
  repeat' first
    | intro _ | with_reducible assumption | with_reducible apply wf_bootFault | with_reducible apply wf_sf
    | with_reducible apply wf_blockErr | dsimp only

theorem wf_sealNow {s : State} (hs : s.wf = true) :
    State.wf (sealNow s) = true := by
  unfold sealNow
  repeat' first
    | intro _ | with_reducible assumption | with_reducible apply wf_raise | with_reducible apply wf_sf
    | with_reducible apply wf_ite | with_reducible apply wf_ite_fst | dsimp only | split

theorem wf_markAbsent (h : DieId) {s : State} (hs : s.wf = true) :
    State.wf (markAbsent h s) = true := by
  unfold markAbsent
  repeat' first
    | intro _ | with_reducible assumption | with_reducible apply wf_orBit | with_reducible apply wf_sf | dsimp only

theorem wf_releaseDie (h : DieId) {s : State} (hs : s.wf = true) :
    State.wf (releaseDie h s) = true := by
  unfold releaseDie
  repeat' first
    | intro _ | with_reducible assumption | with_reducible apply wf_swFail | with_reducible apply wf_orBit
    | with_reducible apply wf_sf | with_reducible apply wf_ite | with_reducible apply wf_ite_fst | dsimp only | split

theorem wf_bootProgress {s : State} (hs : s.wf = true) :
    State.wf (bootProgress s) = true := by
  unfold bootProgress
  repeat' first
    | intro _ | with_reducible assumption | with_reducible apply wf_bootFault | with_reducible apply wf_retopo
    | with_reducible apply wf_forEach | with_reducible apply wf_releaseDie | with_reducible apply wf_raise
    | with_reducible apply wf_enterStage | with_reducible apply wf_wr | with_reducible apply wf_sealNow
    | with_reducible apply wf_ite | with_reducible apply wf_ite_fst | (refine wf_of_eq (by assumption) ?_)
    | dsimp only | simp only [wf_mk] | split

theorem wf_rowRepair (d : DieId) (m row : Nat) {s : State} (hs : s.wf = true) :
    State.wf (rowRepair d m row s) = true := by
  unfold rowRepair
  repeat' first
    | intro _ | with_reducible assumption | with_reducible apply wf_raise | with_reducible apply wf_sf
    | with_reducible apply wf_wr | with_reducible apply wf_arrayFails | with_reducible apply wf_ite
    | with_reducible apply wf_ite_fst | dsimp only | split

theorem wf_bootArrays (d : DieId) {s : State} (hs : s.wf = true) :
    State.wf (bootArrays d s) = true := by
  unfold bootArrays
  repeat' first
    | intro _ | with_reducible assumption | with_reducible apply wf_sampleStatus | with_reducible apply wf_arrayTick
    | with_reducible apply wf_forEach | dsimp only

theorem wf_checkerTest (d : DieId) {s : State} (hs : s.wf = true) :
    State.wf (checkerTest d s) = true := by
  unfold checkerTest
  repeat' first
    | intro _ | with_reducible assumption | with_reducible apply wf_raise | with_reducible apply wf_sf
    | with_reducible apply wf_markAbsent | with_reducible apply wf_orBit | (refine wf_of_eq (by assumption) ?_) | dsimp only
    | simp only [wf_mk] | split

theorem wf_matchTriple (o : Option (Nat × Nat × Nat)) (f : Nat × Nat × Nat → State) (g : State) (hf : ∀ x, (f x).wf = true) (hg : g.wf = true) :
    State.wf (match o with | some x => f x | none => g) = true := by
  cases o with
  | some x => exact hf x
  | none => exact hg

theorem wf_dieTests (d : DieId) {s : State} (hs : s.wf = true) :
    State.wf (dieTests d s) = true := by
  unfold dieTests
  repeat' first
    | intro _ | with_reducible assumption | with_reducible apply wf_sf | with_reducible apply wf_onSide
    | with_reducible apply wf_orBit | with_reducible apply wf_forEach | with_reducible apply wf_stackTrain
    | with_reducible apply wf_hatchTrain | with_reducible apply wf_bootArrays | with_reducible apply wf_rowRepair
    | with_reducible apply wf_checkerTest | with_reducible apply wf_ite | with_reducible apply wf_ite_fst
    | with_reducible apply wf_raise | with_reducible apply wf_markAbsent | dsimp only | simp only [wf_mk] | split

theorem wf_enterDies {s : State} (hs : s.wf = true) :
    State.wf (enterDies s) = true := by
  unfold enterDies
  repeat' first
    | intro _ | with_reducible assumption | with_reducible apply wf_wr | with_reducible apply wf_enterStage
    | with_reducible apply wf_sf | with_reducible apply wf_bootProgress | with_reducible apply wf_forEach
    | with_reducible apply wf_dieTests | dsimp only

theorem wf_applySlot (k : Nat) {s : State} (hs : s.wf = true) :
    State.wf (applySlot k s) = true := by
  unfold applySlot
  repeat' first
    | intro _ | with_reducible assumption | with_reducible apply wf_onStw | with_reducible apply wf_sf
    | with_reducible apply wf_wr | with_reducible apply wf_ite | with_reducible apply wf_ite_fst
    | with_reducible apply wf_foldl | dsimp only | simp only [wf_mk] | split

theorem wf_noteCheck (k code : Nat) {s : State} (hs : s.wf = true) :
    State.wf (noteCheck k code s) = true := by
  unfold noteCheck
  repeat' first
    | intro _ | with_reducible assumption | with_reducible apply wf_sf | with_reducible apply wf_wr
    | with_reducible apply wf_tallyAdd | with_reducible apply wf_ite | with_reducible apply wf_ite_fst | dsimp only
    | split

theorem wf_noteIndex (k : Nat) (idx : Option Nat) {s : State} (hs : s.wf = true) :
    State.wf (noteIndex k idx s) = true := by
  unfold noteIndex
  repeat' first
    | intro _ | with_reducible assumption | with_reducible apply wf_sf | (refine wf_of_eq (by assumption) ?_)
    | dsimp only | split

theorem wf_trySlots (first : Nat) (l : List Nat) : ∀ {s : State}, s.wf = true → State.wf (trySlots first l s) = true := by
  induction l with
  | nil =>
    intro s hs
    unfold trySlots
    with_reducible apply wf_enterStage
    with_reducible apply wf_sf
    exact hs
  | cons k ks ih =>
    intro s hs
    rw [trySlots]
    split
    · with_reducible apply wf_enterDies
      with_reducible apply wf_applySlot
      with_reducible apply wf_noteCheck
      exact hs
    · with_reducible apply ih
      with_reducible apply wf_noteIndex
      with_reducible apply wf_sf
      with_reducible apply wf_noteCheck
      exact hs

theorem wf_slotStage {s : State} (hs : s.wf = true) :
    State.wf (slotStage s) = true := by
  unfold slotStage
  repeat' first
    | intro _ | with_reducible assumption | with_reducible apply wf_wr | with_reducible apply wf_sf
    | with_reducible apply wf_enterStage | with_reducible apply wf_trySlots | dsimp only

theorem wf_powerDown {s : State} (hs : s.wf = true) : State.wf (powerDown s) = true := by
  rw [State.wf_parts] at *
  obtain ⟨h1, h2, h3, h4, h5, h6, h7, h8, h9, h10⟩ := hs
  exact ⟨rfl, rfl, rfl, rfl, rfl, rfl, rfl, rfl, h9, rfl⟩

theorem wf_setStopped {s : State} (hs : s.wf = true) :
    State.wf (setStopped s) = true := by
  unfold setStopped
  repeat' first
    | intro _ | with_reducible assumption | with_reducible apply wf_forEach | with_reducible apply wf_sf
    | with_reducible apply wf_raise | with_reducible apply wf_tallyAdd | with_reducible apply wf_ite
    | with_reducible apply wf_ite_fst | dsimp only | split

theorem wf_doPowerOnReset (env : BootEnv) {s : State} (hs : s.wf = true) :
    State.wf (doPowerOnReset env s) = true := by
  unfold doPowerOnReset
  repeat' first
    | intro _ | with_reducible assumption | with_reducible apply wf_onStw | with_reducible apply wf_powerDown
    | with_reducible apply wf_wr64 | with_reducible apply wf_sf | with_reducible apply wf_wr
    | with_reducible apply wf_emit | with_reducible apply wf_setStopped | with_reducible apply wf_bootFault
    | with_reducible apply wf_slotStage | with_reducible apply wf_ite | with_reducible apply wf_ite_fst
    | (refine wf_of_eq (by assumption) ?_) | dsimp only | simp only [wf_mk] | split

theorem wf_doPwrgdFall {s : State} (hs : s.wf = true) :
    State.wf (doPwrgdFall s) = true := by
  unfold doPwrgdFall
  repeat' first
    | intro _ | with_reducible assumption | with_reducible apply wf_emits | with_reducible apply wf_onStw
    | with_reducible apply wf_powerDown | dsimp only | simp only [wf_mk]

theorem wf_doStrapSample (d : DieId) (v : Fin 4) {s : State} (hs : s.wf = true) :
    State.wf (doStrapSample d v s) = true := by
  unfold doStrapSample
  repeat' first
    | intro _ | with_reducible assumption | with_reducible apply wf_onStw | with_reducible apply wf_wr
    | with_reducible apply wf_sf | with_reducible apply wf_emit | with_reducible apply wf_ite
    | with_reducible apply wf_ite_fst | dsimp only | simp only [wf_mk] | split

theorem wf_doPosReport (h : DieId) (r : PosReport) {s : State} (hs : s.wf = true) :
    State.wf (doPosReport h r s) = true := by
  unfold doPosReport
  repeat' first
    | intro _ | with_reducible assumption | with_reducible apply wf_posFault | with_reducible apply wf_orBit
    | with_reducible apply wf_sf | with_reducible apply wf_onStw | with_reducible apply wf_bootProgress
    | with_reducible apply wf_checkerTest | with_reducible apply wf_ite | with_reducible apply wf_ite_fst
    | (refine wf_of_eq (by assumption) ?_) | dsimp only | simp only [wf_mk] | split

theorem wf_doDieReportTimeout (d : DieId) {s : State} (hs : s.wf = true) :
    State.wf (doDieReportTimeout d s) = true := by
  unfold doDieReportTimeout
  repeat' first
    | intro _ | with_reducible assumption | with_reducible apply wf_bootProgress | with_reducible apply wf_markAbsent
    | with_reducible apply wf_ite | with_reducible apply wf_ite_fst | dsimp only | split

theorem wf_doVrAnswerTimeout (d : DieId) {s : State} (hs : s.wf = true) :
    State.wf (doVrAnswerTimeout d s) = true := by
  unfold doVrAnswerTimeout
  repeat' first
    | intro _ | with_reducible assumption | with_reducible apply wf_bootProgress | with_reducible apply wf_markAbsent
    | with_reducible apply wf_sf | with_reducible apply wf_ite | with_reducible apply wf_ite_fst | dsimp only | split

theorem wf_doFillDone (d : DieId) {s : State} (hs : s.wf = true) :
    State.wf (doFillDone d s) = true := by
  unfold doFillDone
  repeat' first
    | intro _ | with_reducible assumption | with_reducible apply wf_swTrain | with_reducible apply wf_bootProgress
    | with_reducible apply wf_sf | with_reducible apply wf_ite | with_reducible apply wf_ite_fst | dsimp only | split

theorem wf_edgeFault (d : DieId) (e : SideId) {s : State} (hs : s.wf = true) : State.wf (edgeFault d e s) = true := by
  unfold edgeFault
  exact wf_ite (wf_orBit _ _ _ hs) hs

theorem wf_hostReset {s : State} (hs : s.wf = true) : State.wf (hostReset s) = true := by
  unfold hostReset
  extract_lets gone s1 s2
  have h1 : s1.wf = true := by
    dsimp only [s1]
    simp only [State.wf_parts] at *
    obtain ⟨h1, h2, h3, h4, h5, h6, h7, h8, h9, h10⟩ := hs
    refine ⟨?_, ?_, ?_, ?_, ?_, ?_, ?_, ?_, ?_, ?_⟩ <;> first
      | assumption
      | exact swf_skeep _ (by assumption)
      | exact swf_sset _ _ (by assumption)
      | exact swf_foldl_sset _ _ _ (by assumption)
      | exact swf_foldl_sset _ _ _ (swf_skeep _ (by assumption))
  have h2 : s2.wf = true := wf_forEach (fun q s h => wf_wr _ _ h) _ h1
  exact wf_onStw _ h2

theorem wf_doPerst {s : State} (hs : s.wf = true) :
    State.wf (doPerst s) = true := by
  unfold doPerst
  repeat' first
    | intro _ | with_reducible assumption | with_reducible apply wf_raise | with_reducible apply wf_tallyAdd
    | with_reducible apply wf_hostReset | dsimp only

theorem wf_rebootAction {s : State} (hs : s.wf = true) :
    State.wf (rebootAction s).1 = true := by
  unfold rebootAction
  repeat' first
    | intro _ | with_reducible assumption | with_reducible apply wf_sf | with_reducible apply wf_forEach
    | with_reducible apply wf_resetDie | with_reducible apply wf_slotStage | with_reducible apply wf_hostReset
    | with_reducible apply wf_ite | with_reducible apply wf_ite_fst | dsimp only | split

theorem wf_cfgCommand (op k : Nat) {s : State} (hs : s.wf = true) :
    State.wf (cfgCommand op k s).1 = true := by
  unfold cfgCommand
  repeat' first
    | intro _ | with_reducible assumption | with_reducible apply wf_flashErase | with_reducible apply wf_onStw
    | with_reducible apply wf_sf | with_reducible apply wf_ite | with_reducible apply wf_ite_fst | dsimp only
    | simp only [wf_mk] | split

theorem wf_doCfgDone {s : State} (hs : s.wf = true) :
    State.wf (doCfgDone s) = true := by
  unfold doCfgDone
  repeat' first
    | intro _ | with_reducible assumption | with_reducible apply wf_flashWrite | with_reducible apply wf_flashErase
    | with_reducible apply wf_wr | with_reducible apply wf_sf | with_reducible apply wf_noteCheck
    | with_reducible apply wf_blockErr | with_reducible apply wf_raise | with_reducible apply wf_tallyAdd
    | with_reducible apply wf_onStw | with_reducible apply wf_ite | with_reducible apply wf_ite_fst
    | (refine wf_of_eq (by assumption) ?_) | dsimp only | simp only [wf_mk] | split

theorem wf_attGoAction {s : State} (hs : s.wf = true) :
    State.wf (attGoAction s).1 = true := by
  unfold attGoAction
  repeat' first
    | intro _ | with_reducible assumption | with_reducible apply wf_blockErr | with_reducible apply wf_raise
    | with_reducible apply wf_tallyAdd | with_reducible apply wf_sf | with_reducible apply wf_onStw
    | with_reducible apply wf_wr | with_reducible apply wf_ite | with_reducible apply wf_ite_fst | dsimp only
    | simp only [wf_mk] | split

theorem wf_doAttDone {s : State} (hs : s.wf = true) :
    State.wf (doAttDone s) = true := by
  unfold doAttDone
  repeat' first
    | intro _ | with_reducible assumption | with_reducible apply wf_drawFresh | with_reducible apply wf_hostPoke
    | with_reducible apply wf_onStw | with_reducible apply wf_raise | with_reducible apply wf_tallyAdd
    | with_reducible apply wf_sf | (refine wf_of_eq (by assumption) ?_) | dsimp only | simp only [wf_mk] | split

theorem wf_floorAction (v : Nat) {s : State} (hs : s.wf = true) :
    State.wf (floorAction v s).1 = true := by
  unfold floorAction
  repeat' first
    | intro _ | with_reducible assumption | with_reducible apply wf_sf | with_reducible apply wf_tallyAdd
    | with_reducible apply wf_onStw | with_reducible apply wf_ite | with_reducible apply wf_ite_fst | dsimp only
    | simp only [wf_mk] | split

end Sys2Proof.Machine
end

