-- ==== Sys2Proof/Laws/WfPower.lean ====
section
/-!
SUPPORT. Laws/WfPower.lean: what Machine/Power.lean changes of the sparse maps of the package keeps their canonical form.
-/
namespace Sys2Proof.Machine

theorem wf_setPState (st : Nat) {s : State} (hs : s.wf = true) :
    State.wf (setPState st s) = true := by
  unfold setPState
  repeat' first
    | intro _ | with_reducible assumption | with_reducible apply wf_forEach | with_reducible apply wf_sf | dsimp only

theorem wf_stackMode (rest : Bool) {s : State} (hs : s.wf = true) :
    State.wf (stackMode rest s) = true := by
  unfold stackMode
  repeat' first
    | intro _ | with_reducible assumption | with_reducible apply wf_forEach | with_reducible apply wf_stackRest
    | with_reducible apply wf_stackTrain | with_reducible apply wf_ite | with_reducible apply wf_ite_fst | dsimp only | split

theorem wf_idleLoses (st : Nat) (d : DieId) {s : State} (hs : s.wf = true) :
    State.wf (idleLoses st d s) = true := by
  unfold idleLoses
  repeat' first
    | intro _ | with_reducible assumption | with_reducible apply wf_onDie | with_reducible apply wf_forEach
    | with_reducible apply wf_stopPort | with_reducible apply wf_ite | with_reducible apply wf_ite_fst | dsimp only
    | simp only [wf_mk] | split

theorem wf_doIdleEntry {s : State} (hs : s.wf = true) :
    State.wf (doIdleEntry s) = true := by
  unfold doIdleEntry
  repeat' first
    | intro _ | with_reducible assumption | with_reducible apply wf_forEach | with_reducible apply wf_idleLoses
    | with_reducible apply wf_stackMode | with_reducible apply wf_tallyAdd | with_reducible apply wf_setPState
    | with_reducible apply wf_ite | with_reducible apply wf_ite_fst | dsimp only | split

theorem wf_reloadProg (d : DieId) {s : State} (hs : s.wf = true) :
    State.wf (reloadProg d s) = true := by
  unfold reloadProg
  repeat' first
    | intro _ | with_reducible assumption | with_reducible apply wf_loadProg | with_reducible apply wf_onDie
    | (refine wf_of_eq (by assumption) ?_) | dsimp only | simp only [wf_mk] | split

theorem wf_idleRestores (st : Nat) (d : DieId) {s : State} (hs : s.wf = true) :
    State.wf (idleRestores st d s) = true := by
  unfold idleRestores
  repeat' first
    | intro _ | with_reducible assumption | with_reducible apply wf_fillDie | with_reducible apply wf_sf
    | with_reducible apply wf_reloadProg | with_reducible apply wf_onDie | with_reducible apply wf_forEach
    | with_reducible apply wf_startPort | with_reducible apply wf_ite | with_reducible apply wf_ite_fst | dsimp only
    | simp only [wf_mk] | split

theorem wf_wakeNow {s : State} (hs : s.wf = true) :
    State.wf (wakeNow s) = true := by
  unfold wakeNow
  repeat' first
    | intro _ | with_reducible assumption | with_reducible apply wf_stackMode | with_reducible apply wf_setPState
    | with_reducible apply wf_forEach | with_reducible apply wf_idleRestores | with_reducible apply wf_onStw
    | with_reducible apply wf_ite | with_reducible apply wf_ite_fst | dsimp only | simp only [wf_mk] | split

theorem wf_doWake {s : State} (hs : s.wf = true) :
    State.wf (doWake s) = true := by
  unfold doWake
  repeat' first
    | intro _ | with_reducible assumption | with_reducible apply wf_onStw | with_reducible apply wf_ite
    | with_reducible apply wf_ite_fst | dsimp only | simp only [wf_mk] | split

theorem wf_doIdleExitDone {s : State} (hs : s.wf = true) :
    State.wf (doIdleExitDone s) = true := by
  unfold doIdleExitDone
  repeat' first
    | intro _ | with_reducible assumption | with_reducible apply wf_wakeNow | with_reducible apply wf_ite
    | with_reducible apply wf_ite_fst | dsimp only | split

theorem wf_doPowerSample (watts : Nat) {s : State} (hs : s.wf = true) :
    State.wf (doPowerSample watts s) = true := by
  unfold doPowerSample
  repeat' first
    | intro _ | with_reducible assumption | with_reducible apply wf_onStw | dsimp only | simp only [wf_mk]

theorem wf_capArrays (r : Nat) {s : State} (hs : s.wf = true) :
    State.wf (capArrays r s) = true := by
  unfold capArrays
  repeat' first
    | intro _ | with_reducible assumption | with_reducible apply wf_sf | with_reducible apply wf_forEach | dsimp only

theorem wf_doCapInterval {s : State} (hs : s.wf = true) :
    State.wf (doCapInterval s) = true := by
  unfold doCapInterval
  repeat' first
    | intro _ | with_reducible assumption | with_reducible apply wf_tallyAdd | with_reducible apply wf_wr
    | with_reducible apply wf_onStw | with_reducible apply wf_raise | with_reducible apply wf_forEach
    | with_reducible apply wf_capArrays | with_reducible apply wf_sf | with_reducible apply wf_ite
    | with_reducible apply wf_ite_fst | dsimp only | simp only [wf_mk] | split

theorem wf_doSensorRead (d : DieId) (raws : List Int) (temps : List Nat) {s : State} (hs : s.wf = true) :
    State.wf (doSensorRead d raws temps s) = true := by
  unfold doSensorRead
  repeat' first
    | intro _ | with_reducible assumption | with_reducible apply wf_onStw | with_reducible apply wf_forEach
    | with_reducible apply wf_sf | with_reducible apply wf_raise | with_reducible apply wf_ite
    | with_reducible apply wf_ite_fst | with_reducible apply wf_foldl | dsimp only | simp only [wf_mk] | split

theorem wf_selectPoint (d : DieId) {s : State} (hs : s.wf = true) :
    State.wf (selectPoint d s) = true := by
  unfold selectPoint
  repeat' first
    | intro _ | with_reducible assumption | with_reducible apply wf_drawFresh | with_reducible apply wf_sf
    | (refine wf_of_eq (by assumption) ?_) | dsimp only | split

theorem wf_doVfPointSelect {s : State} (hs : s.wf = true) :
    State.wf (doVfPointSelect s) = true := by
  unfold doVfPointSelect
  repeat' first
    | intro _ | with_reducible assumption | with_reducible apply wf_forEach | with_reducible apply wf_selectPoint
    | dsimp only

theorem wf_doDroop (d : DieId) (det : Fin 8) {s : State} (hs : s.wf = true) :
    State.wf (doDroop d det s) = true := by
  unfold doDroop
  repeat' first
    | intro _ | with_reducible assumption | with_reducible apply wf_raise | with_reducible apply wf_tallyAdd
    | with_reducible apply wf_sf | with_reducible apply wf_orBit | with_reducible apply wf_ite
    | with_reducible apply wf_ite_fst | dsimp only | split

theorem wf_doDroopHoldExpiry (d : DieId) {s : State} (hs : s.wf = true) :
    State.wf (doDroopHoldExpiry d s) = true := by
  unfold doDroopHoldExpiry
  repeat' first
    | intro _ | with_reducible assumption | with_reducible apply wf_sf | with_reducible apply wf_ite
    | with_reducible apply wf_ite_fst | dsimp only | split

theorem wf_doBrake {s : State} (hs : s.wf = true) :
    State.wf (doBrake s) = true := by
  unfold doBrake
  repeat' first
    | intro _ | with_reducible assumption | with_reducible apply wf_raise | with_reducible apply wf_tallyAdd
    | with_reducible apply wf_sf | with_reducible apply wf_capArrays | with_reducible apply wf_ite
    | with_reducible apply wf_ite_fst | dsimp only | split

theorem wf_doBrakeRelease {s : State} (hs : s.wf = true) :
    State.wf (doBrakeRelease s) = true := by
  unfold doBrakeRelease
  repeat' first
    | intro _ | with_reducible assumption | with_reducible apply wf_sf | dsimp only

theorem wf_svcEnd (d : DieId) (code : Nat) {s : State} (hs : s.wf = true) :
    State.wf (svcEnd d code s) = true := by
  unfold svcEnd
  repeat' first
    | intro _ | with_reducible assumption | with_reducible apply wf_sf | with_reducible apply wf_raise
    | with_reducible apply wf_ite | with_reducible apply wf_ite_fst | dsimp only | split

theorem wf_coolantCut (d : DieId) {s : State} (hs : s.wf = true) :
    State.wf (coolantCut d s) = true := by
  unfold coolantCut
  repeat' first
    | intro _ | with_reducible assumption | with_reducible apply wf_forEach | with_reducible apply wf_cutTask
    | with_reducible apply wf_vxRelease | with_reducible apply wf_failCause | (refine wf_of_eq (by assumption) ?_)
    | dsimp only | simp only [wf_mk] | split

theorem wf_doCoolantStop {s : State} (hs : s.wf = true) :
    State.wf (doCoolantStop s) = true := by
  unfold doCoolantStop
  repeat' first
    | intro _ | with_reducible assumption | with_reducible apply wf_onStw | with_reducible apply wf_sf
    | with_reducible apply wf_forEach | with_reducible apply wf_coolantCut | with_reducible apply wf_svcEnd
    | with_reducible apply wf_doDieDoneState | with_reducible apply wf_stackMode | with_reducible apply wf_setStopped
    | with_reducible apply wf_ite | with_reducible apply wf_ite_fst | dsimp only | simp only [wf_mk] | split

theorem wf_doCoolantOkPulse {s : State} (hs : s.wf = true) :
    State.wf (doCoolantOkPulse s) = true := by
  unfold doCoolantOkPulse
  repeat' first
    | intro _ | with_reducible assumption | with_reducible apply wf_tallyAdd | dsimp only

theorem wf_doCoolantOkStable {s : State} (hs : s.wf = true) :
    State.wf (doCoolantOkStable s) = true := by
  unfold doCoolantOkStable
  repeat' first
    | intro _ | with_reducible assumption | with_reducible apply wf_sf | with_reducible apply wf_raise
    | with_reducible apply wf_ite | with_reducible apply wf_ite_fst | dsimp only | split

theorem wf_restartAction {s : State} (hs : s.wf = true) :
    State.wf (restartAction s).1 = true := by
  unfold restartAction
  repeat' first
    | intro _ | with_reducible assumption | with_reducible apply wf_stackMode | with_reducible apply wf_forEach
    | with_reducible apply wf_sf | with_reducible apply wf_tallyAdd | with_reducible apply wf_ite
    | with_reducible apply wf_ite_fst | dsimp only | split

theorem wf_doThermTrip (d : DieId) (sensor : Fin 16) {s : State} (hs : s.wf = true) :
    State.wf (doThermTrip d sensor s) = true := by
  unfold doThermTrip
  repeat' first
    | intro _ | with_reducible assumption | with_reducible apply wf_emit | with_reducible apply wf_onStw
    | with_reducible apply wf_ite | with_reducible apply wf_ite_fst | dsimp only | simp only [wf_mk] | split

theorem wf_doTripLogWrite {s : State} (hs : s.wf = true) :
    State.wf (doTripLogWrite s) = true := by
  unfold doTripLogWrite
  repeat' first
    | intro _ | with_reducible assumption | with_reducible apply wf_onStw | (refine wf_of_eq (by assumption) ?_)
    | dsimp only | simp only [wf_mk] | split

theorem wf_setTap (tap : Fin 5) (i : TapInstr) {s : State} (hs : s.wf = true) :
    State.wf (setTap tap i s) = true := by
  unfold setTap
  repeat' first
    | intro _ | with_reducible assumption | with_reducible apply wf_onStw | dsimp only | simp only [wf_mk]

theorem wf_enterScan {s : State} (hs : s.wf = true) :
    State.wf (enterScan s) = true := by
  unfold enterScan
  repeat' first
    | intro _ | with_reducible assumption | with_reducible apply wf_onStw | with_reducible apply wf_ite
    | with_reducible apply wf_ite_fst | dsimp only | simp only [wf_mk] | split

theorem wf_doScan (tap : Fin 5) (i : TapInstr) {s : State} (hs : s.wf = true) :
    State.wf (doScan tap i s) = true := by
  unfold doScan
  repeat' first
    | intro _ | with_reducible assumption | with_reducible apply wf_enterScan | with_reducible apply wf_setTap
    | dsimp only

theorem wf_doIdcode (tap : Fin 5) {s : State} (hs : s.wf = true) :
    State.wf (doIdcode tap s) = true := by
  unfold doIdcode
  repeat' first
    | intro _ | with_reducible assumption | with_reducible apply wf_emit | with_reducible apply wf_setTap | dsimp only

theorem wf_doBypass (tap : Fin 5) (code : Nat) {s : State} (hs : s.wf = true) :
    State.wf (doBypass tap code s) = true := by
  unfold doBypass
  repeat' first
    | intro _ | with_reducible assumption | with_reducible apply wf_emit | with_reducible apply wf_setTap
    | with_reducible apply wf_ite | with_reducible apply wf_ite_fst | dsimp only | split

theorem wf_doSamplePreload (tap : Fin 5) (data : List Bool) {s : State} (hs : s.wf = true) :
    State.wf (doSamplePreload tap data s) = true := by
  unfold doSamplePreload
  repeat' first
    | intro _ | with_reducible assumption | with_reducible apply wf_drawFresh | with_reducible apply wf_emit
    | with_reducible apply wf_onStw | with_reducible apply wf_setTap | (refine wf_of_eq (by assumption) ?_)
    | dsimp only | simp only [wf_mk] | split

end Sys2Proof.Machine
end

