-- ==== Sys2Proof/Laws/WfService.lean ====
section
/-!
SUPPORT. Laws/WfService.lean: what Machine/Service.lean changes of the sparse maps of the package keeps their canonical form.
-/
namespace Sys2Proof.Machine

theorem wf_fenceNow (k : PageKind) (inst p : Nat) (req : Bool) {s : State} (hs : s.wf = true) :
    State.wf (fenceNow k inst p req s) = true := by
  unfold fenceNow
  repeat' first
    | intro _ | with_reducible assumption | with_reducible apply wf_setFenced | with_reducible apply wf_sf
    | with_reducible apply wf_stopPort | with_reducible apply wf_startPort | with_reducible apply wf_swFence
    | with_reducible apply wf_swTrain | with_reducible apply wf_ite | with_reducible apply wf_ite_fst
    | (refine wf_of_eq (by assumption) ?_) | dsimp only | simp only [wf_mk] | split

theorem wf_fenceIdle (k : PageKind) (inst : Nat) (p : Nat) {s : State} (hs : s.wf = true) :
    State.wf (fenceIdle k inst p s) = true := by
  unfold fenceIdle
  repeat' first
    | intro _ | with_reducible assumption | with_reducible apply wf_sampleStatus | with_reducible apply wf_arrayFence
    | with_reducible apply wf_fenceSettle | with_reducible apply wf_ite | with_reducible apply wf_ite_fst
    | (refine wf_of_eq (by assumption) ?_) | with_reducible apply wf_arrayTick | dsimp only | simp only [wf_mk] | split

theorem wf_fenceAction (k : PageKind) (inst p : Nat) (req : Bool) {s : State} (hs : s.wf = true) :
    State.wf (fenceAction k inst p req s).1 = true := by
  unfold fenceAction
  repeat' first
    | intro _ | with_reducible assumption | with_reducible apply wf_sf | with_reducible apply wf_fenceNow
    | with_reducible apply wf_fenceIdle | with_reducible apply wf_ite | with_reducible apply wf_ite_fst | dsimp only
    | split

theorem wf_svcAction (d : DieId) (op num : Nat) {s : State} (hs : s.wf = true) :
    State.wf (svcAction d op num s).1 = true := by
  unfold svcAction
  repeat' first
    | intro _ | with_reducible assumption | with_reducible apply wf_tallyAdd | with_reducible apply wf_sf
    | with_reducible apply wf_ite | with_reducible apply wf_ite_fst | (refine wf_of_eq (by assumption) ?_)
    | dsimp only | simp only [wf_mk] | split

theorem wf_setReady (d : DieId) (num : Nat) (ok : Bool) {s : State} (hs : s.wf = true) :
    State.wf (setReady d num ok s) = true := by
  unfold setReady
  repeat' first
    | intro _ | with_reducible assumption | with_reducible apply wf_onDie | with_reducible apply wf_ite
    | with_reducible apply wf_ite_fst | dsimp only | simp only [wf_mk] | split

theorem wf_arrayTested (d : DieId) (m res : Nat) (rows : List Nat) {s : State} (hs : s.wf = true) :
    State.wf (arrayTested d m res rows s).1 = true := by
  unfold arrayTested
  repeat' first
    | intro _ | with_reducible assumption | with_reducible apply wf_forEach | with_reducible apply wf_rowRepair
    | with_reducible apply wf_sf | with_reducible apply wf_arrayFails | with_reducible apply wf_ite
    | with_reducible apply wf_ite_fst | dsimp only | split

theorem wf_svcResult (d : DieId) (p : Nat) (res : Nat) (detail : Nat) (rows : List Nat) {s : State} (hs : s.wf = true) :
    State.wf (svcResult d p res detail rows s).1 = true := by
  unfold svcResult
  repeat' first
    | intro _ | with_reducible assumption | with_reducible apply wf_arrayTested | with_reducible apply wf_onSide
    | with_reducible apply wf_onVx | (refine wf_of_eq (by assumption) ?_) | dsimp only | simp only [wf_mk] | split

theorem wf_svcCode (res : Nat) (ok : Bool) {s : State} (hs : s.wf = true) : State.wf (svcCode res ok s).1 = true := by
  unfold svcCode
  repeat' first
    | with_reducible assumption | with_reducible apply wf_ite_fst | with_reducible apply wf_drawFresh | dsimp only

theorem wf_doSvcDone (d : DieId) (res detail : Nat) (rows : List Nat) {s : State} (hs : s.wf = true) :
    State.wf (doSvcDone d res detail rows s) = true := by
  unfold doSvcDone
  repeat' first
    | with_reducible assumption | with_reducible apply wf_ite | with_reducible apply wf_svcEnd | with_reducible apply wf_svcCode
    | with_reducible apply wf_wr | with_reducible apply wf_tallyAdd | with_reducible apply wf_setReady
    | with_reducible apply wf_svcResult | dsimp only

theorem wf_csLoadAction (d : DieId) (k : Nat) {s : State} (hs : s.wf = true) :
    State.wf (csLoadAction d k s).1 = true := by
  unfold csLoadAction
  repeat' first
    | intro _ | with_reducible assumption | with_reducible apply wf_tallyAdd | with_reducible apply wf_dieResetAction
    | with_reducible apply wf_sf | with_reducible apply wf_onStw | with_reducible apply wf_ite
    | with_reducible apply wf_ite_fst | (refine wf_of_eq (by assumption) ?_) | dsimp only | simp only [wf_mk] | split

theorem wf_setCsSrc (d k : Nat) {s : State} (hs : s.wf = true) :
    State.wf (setCsSrc d k s) = true := by
  unfold setCsSrc
  repeat' first
    | intro _ | with_reducible assumption | with_reducible apply wf_sf | dsimp only

theorem wf_csSettle {s : State} (hs : s.wf = true) :
    State.wf (csSettle s) = true := by
  unfold csSettle
  repeat' first
    | intro _ | with_reducible assumption | with_reducible apply wf_raise | with_reducible apply wf_tallyAdd
    | with_reducible apply wf_sf | with_reducible apply wf_onStw | with_reducible apply wf_setCsSrc
    | with_reducible apply wf_blockErr | with_reducible apply wf_ite | with_reducible apply wf_ite_fst
    | (refine wf_of_eq (by assumption) ?_) | dsimp only | simp only [wf_mk] | split

theorem wf_rmaAction {s : State} (hs : s.wf = true) :
    State.wf (rmaAction s).1 = true := by
  unfold rmaAction
  repeat' first
    | intro _ | with_reducible assumption | with_reducible apply wf_sf | with_reducible apply wf_ite
    | with_reducible apply wf_ite_fst | dsimp only | split

theorem wf_doRmaDone {s : State} (hs : s.wf = true) :
    State.wf (doRmaDone s) = true := by
  unfold doRmaDone
  repeat' first
    | intro _ | with_reducible assumption | with_reducible apply wf_onStw | with_reducible apply wf_raise
    | with_reducible apply wf_tallyAdd | with_reducible apply wf_sf | with_reducible apply wf_ite
    | with_reducible apply wf_ite_fst | dsimp only | simp only [wf_mk] | split

end Sys2Proof.Machine
end

