-- ==== Sys2Proof/Laws/WfRegRead.lean ====
section
/-!
SUPPORT. Laws/WfRegRead.lean: what Machine/RegRead.lean changes of the sparse maps of the package keeps their canonical form.
-/
namespace Sys2Proof.Machine

theorem wf_setSel (r : Req) (a : Nat) (v : W) {s : State} (hs : s.wf = true) :
    State.wf (setSel r a v s) = true := by
  unfold setSel
  repeat' first
    | intro _ | with_reducible assumption | with_reducible apply wf_selSet | dsimp only | simp only [wf_mk]

theorem wf_recAccess (r : Req) (a code page : Nat) {s : State} (hs : s.wf = true) :
    State.wf (recAccess r a code page s) = true := by
  unfold recAccess
  repeat' first
    | intro _ | with_reducible assumption | with_reducible apply wf_recErr | with_reducible apply wf_ite
    | with_reducible apply wf_ite_fst | dsimp only | split

theorem wf_popEntry (q : Nat) {s : State} (hs : s.wf = true) :
    State.wf (popEntry q s).1 = true := by
  unfold popEntry
  repeat' first
    | intro _ | with_reducible assumption | with_reducible apply wf_memRead | with_reducible apply wf_ite
    | with_reducible apply wf_ite_fst | dsimp only | split

theorem wf_setPop (r : Req) (q : Nat) (bs : List Byte) {s : State} (hs : s.wf = true) : State.wf (setPop r q bs s) = true := by
  unfold setPop
  simp only [State.wf_parts] at *
  obtain ⟨h1, h2, h3, h4, h5, h6, h7, h8, h9, h10⟩ := hs
  refine ⟨?_, ?_, ?_, ?_, ?_, ?_, ?_, ?_, ?_, ?_⟩ <;> first
    | assumption
    | exact swf_skeep _ (by assumption)
    | exact swf_sset _ _ (by assumption)
    | exact swf_foldl_sset _ _ _ (by assumption)
    | exact swf_foldl_sset _ _ _ (swf_skeep _ (by assumption))

theorem wf_popRead (r : Req) (q : Nat) {s : State} (hs : s.wf = true) :
    State.wf (popRead r q s).1 = true := by
  unfold popRead
  repeat' first
    | intro _ | with_reducible assumption | with_reducible apply wf_popEntry | with_reducible apply wf_setPop
    | with_reducible apply wf_setRd | with_reducible apply wf_raise | with_reducible apply wf_tallyAdd
    | with_reducible apply wf_sf | with_reducible apply wf_ite | with_reducible apply wf_ite_fst
    | (refine wf_of_eq (by assumption) ?_) | dsimp only | simp only [wf_mk] | split

theorem wf_readEffect (l : Loc) {s : State} (hs : s.wf = true) :
    State.wf (readEffect l s).1 = true := by
  unfold readEffect
  repeat' first
    | intro _ | with_reducible assumption | with_reducible apply wf_memRead | with_reducible apply wf_ite
    | with_reducible apply wf_ite_fst | (refine wf_of_eq (by assumption) ?_) | dsimp only | simp only [wf_mk] | split

theorem wf_readAt (r : Req) (l : Loc) {s : State} (hs : s.wf = true) :
    State.wf (readAt r l s).1 = true := by
  unfold readAt
  repeat' first
    | intro _ | with_reducible assumption | with_reducible apply wf_popRead | with_reducible apply wf_readEffect
    | with_reducible apply wf_ite | with_reducible apply wf_ite_fst | (refine wf_of_eq (by assumption) ?_)
    | with_reducible apply wf_hiLatchSet | dsimp only | simp only [wf_mk] | split

theorem wf_regRead (r : Req) (a : Nat) (width : Nat) {s : State} (hs : s.wf = true) :
    State.wf (regRead r a width s).1 = true := by
  unfold regRead
  repeat' first
    | intro _ | with_reducible assumption | with_reducible apply wf_wakeNow | with_reducible apply wf_recAccess
    | with_reducible apply wf_readAt | with_reducible apply wf_ite | with_reducible apply wf_ite_fst
    | (refine wf_of_eq (by assumption) ?_) | dsimp only | simp only [wf_mk] | split

end Sys2Proof.Machine
end

