-- ==== Sys2Proof/Laws/WfRegWrite.lean ====
section
/-!
SUPPORT. Laws/WfRegWrite.lean: what Machine/RegWrite.lean changes of the sparse maps of the package keeps their canonical form.
-/
namespace Sys2Proof.Machine

theorem wf_plain (l : Loc) (v : W) {s : State} (hs : s.wf = true) :
    State.wf (plain l v s).1 = true := by
  unfold plain
  repeat' first
    | intro _ | with_reducible assumption | with_reducible apply wf_wr | dsimp only

theorem wf_gateEn (d : DieId) (f : State → State × Nat) {s : State} (hf : ∀ (u1 : State), u1.wf = true → State.wf (f u1).1 = true) (hs : s.wf = true) :
    State.wf (gateEn d f s).1 = true := by
  unfold gateEn
  repeat' first
    | intro _ | with_reducible assumption | with_reducible apply hf | with_reducible apply wf_ite
    | with_reducible apply wf_ite_fst | dsimp only | split

theorem wf_guardW (ok : Bool) (code : Nat) (f : State → State × Nat) {s : State} (hf : ∀ (u1 : State), u1.wf = true → State.wf (f u1).1 = true) (hs : s.wf = true) :
    State.wf (guardW ok code f s).1 = true := by
  unfold guardW
  repeat' first
    | intro _ | with_reducible assumption | with_reducible apply hf | with_reducible apply wf_ite
    | with_reducible apply wf_ite_fst | dsimp only | split

theorem wf_clearTally (p i : Nat) {s : State} (hs : s.wf = true) : State.wf (clearTally p i s) = true := by
  unfold clearTally
  simp only [State.wf_parts] at *
  obtain ⟨h1, h2, h3, h4, h5, h6, h7, h8, h9, h10⟩ := hs
  refine ⟨?_, ?_, ?_, ?_, ?_, ?_, ?_, ?_, ?_, ?_⟩ <;> first
    | assumption
    | exact swf_skeep _ (by assumption)
    | exact swf_sset _ _ (by assumption)
    | exact swf_foldl_sset _ _ _ (by assumption)
    | exact swf_foldl_sset _ _ _ (swf_skeep _ (by assumption))

theorem wf_clearTallies (p : Nat) {s : State} (hs : s.wf = true) :
    State.wf (clearTallies p s) = true := by
  unfold clearTallies
  repeat' first
    | intro _ | with_reducible assumption | with_reducible apply wf_forEach | with_reducible apply wf_clearTally
    | dsimp only

theorem wf_headerWrite (r : Req) (l : Loc) (v : W) {s : State} (hs : s.wf = true) :
    State.wf (headerWrite r l v s).1 = true := by
  unfold headerWrite
  repeat' first
    | intro _ | with_reducible assumption | with_reducible apply wf_plain | with_reducible apply wf_clearTallies
    | with_reducible apply wf_wr | with_reducible apply wf_forEach | with_reducible apply wf_raiseAs
    | with_reducible apply wf_fenceAction | with_reducible apply wf_setSel | with_reducible apply wf_clearTally
    | with_reducible apply wf_ite | with_reducible apply wf_ite_fst | with_reducible apply wf_selSet
    | (refine wf_of_eq (by assumption) ?_) | dsimp only | simp only [wf_mk] | split

theorem wf_tickWrite (l : Loc) (v : W) {s : State} (hs : s.wf = true) :
    State.wf (tickWrite l v s).1 = true := by
  unfold tickWrite
  repeat' first
    | intro _ | with_reducible assumption | with_reducible apply wf_tickCtrlWrite | with_reducible apply wf_fenceTick
    | with_reducible apply wf_gateEn | with_reducible apply wf_plain | with_reducible apply wf_ite
    | with_reducible apply wf_ite_fst | (refine wf_of_eq (by assumption) ?_) | dsimp only | simp only [wf_mk] | split

theorem wf_dispWrite (l : Loc) (v : W) {s : State} (hs : s.wf = true) :
    State.wf (dispWrite l v s).1 = true := by
  unfold dispWrite
  repeat' first
    | intro _ | with_reducible assumption | with_reducible apply wf_slotCommand | with_reducible apply wf_guardW
    | with_reducible apply wf_plain | with_reducible apply wf_ite | with_reducible apply wf_ite_fst | dsimp only
    | split

theorem wf_watchWrite32 (r : Req) (l : Loc) (v : W) {s : State} (hs : s.wf = true) :
    State.wf (watchWrite32 r l v s).1 = true := by
  unfold watchWrite32
  repeat' first
    | intro _ | with_reducible assumption | with_reducible apply wf_setSel | with_reducible apply wf_gateEn
    | with_reducible apply wf_plain | with_reducible apply wf_sampleStatus | with_reducible apply wf_sf
    | with_reducible apply wf_guardW | with_reducible apply wf_onDie | with_reducible apply wf_ite
    | with_reducible apply wf_ite_fst | dsimp only | simp only [wf_mk] | split

theorem wf_onSelWeight (r : Req) (d : DieId) (f : VEntry → VEntry) {s : State} (hs : s.wf = true) :
    State.wf (onSelWeight r d f s).1 = true := by
  unfold onSelWeight
  repeat' first
    | intro _ | with_reducible assumption | with_reducible apply wf_onDie | with_reducible apply wf_ite
    | with_reducible apply wf_ite_fst | dsimp only | simp only [wf_mk] | split

theorem wf_updWrite (r : Req) (l : Loc) (v : W) {s : State} (hs : s.wf = true) :
    State.wf (updWrite r l v s).1 = true := by
  unfold updWrite
  repeat' first
    | intro _ | with_reducible assumption | with_reducible apply wf_setSel | with_reducible apply wf_gateEn
    | with_reducible apply wf_updSetValid | with_reducible apply wf_updInitTable | with_reducible apply wf_updForgetTable
    | with_reducible apply wf_onSelWeight | with_reducible apply wf_plain | with_reducible apply wf_ite
    | with_reducible apply wf_ite_fst | (refine wf_of_eq (by assumption) ?_) | dsimp only | simp only [wf_mk] | split

theorem wf_ceWrite (l : Loc) (v : W) {s : State} (hs : s.wf = true) :
    State.wf (ceWrite l v s).1 = true := by
  unfold ceWrite
  repeat' first
    | intro _ | with_reducible assumption | with_reducible apply wf_gateEn | with_reducible apply wf_guardW
    | with_reducible apply wf_plain | with_reducible apply wf_reshardArm | with_reducible apply wf_reshardDisarm
    | with_reducible apply wf_ite | with_reducible apply wf_ite_fst | (refine wf_of_eq (by assumption) ?_) | dsimp only
    | split

theorem wf_windowed (code : Nat) (f : State → State × Nat) {s : State} (hf : ∀ (u1 : State), u1.wf = true → State.wf (f u1).1 = true) (hs : s.wf = true) :
    State.wf (windowed code f s).1 = true := by
  unfold windowed
  repeat' first
    | intro _ | with_reducible assumption | with_reducible apply hf | with_reducible apply wf_ite
    | with_reducible apply wf_ite_fst | dsimp only | split

theorem wf_jrnlWrite (l : Loc) (v : W) {s : State} (hs : s.wf = true) :
    State.wf (jrnlWrite l v s).1 = true := by
  unfold jrnlWrite
  repeat' first
    | intro _ | with_reducible assumption | with_reducible apply wf_guardW | with_reducible apply wf_windowed
    | with_reducible apply wf_plain | with_reducible apply wf_replayModeAction | with_reducible apply wf_exportCheck
    | with_reducible apply wf_sf | with_reducible apply wf_onJrnl | with_reducible apply wf_gateEn
    | with_reducible apply wf_ite | with_reducible apply wf_ite_fst | (refine wf_of_eq (by assumption) ?_) | dsimp only
    | simp only [wf_mk] | split

theorem wf_integWrite (l : Loc) (v : W) {s : State} (hs : s.wf = true) :
    State.wf (integWrite l v s).1 = true := by
  unfold integWrite
  repeat' first
    | intro _ | with_reducible assumption | with_reducible apply wf_injArmAction | with_reducible apply wf_plain
    | with_reducible apply wf_ite | with_reducible apply wf_ite_fst | dsimp only | split

theorem wf_lpWrite (r : Req) (l : Loc) (v : W) {s : State} (hs : s.wf = true) :
    State.wf (lpWrite r l v s).1 = true := by
  unfold lpWrite
  repeat' first
    | intro _ | with_reducible assumption | with_reducible apply wf_plain | with_reducible apply wf_lpCtrlAction
    | with_reducible apply wf_guardW | with_reducible apply wf_gateEn | with_reducible apply wf_setSel
    | with_reducible apply wf_onDie | with_reducible apply wf_rtCopyBank | with_reducible apply wf_rtSwapArm
    | with_reducible apply wf_ite | with_reducible apply wf_ite_fst | with_reducible apply wf_selSet
    | (refine wf_of_eq (by assumption) ?_) | dsimp only | simp only [wf_mk] | split

theorem wf_swWrite (l : Loc) (v : W) {s : State} (hs : s.wf = true) :
    State.wf (swWrite l v s).1 = true := by
  unfold swWrite
  repeat' first
    | intro _ | with_reducible assumption | with_reducible apply wf_plain | with_reducible apply wf_swRetrainAction
    | with_reducible apply wf_ite | with_reducible apply wf_ite_fst | dsimp only | split

theorem wf_engineWrite (l : Loc) (v : W) {s : State} (hs : s.wf = true) :
    State.wf (engineWrite l v s).1 = true := by
  unfold engineWrite
  repeat' first
    | intro _ | with_reducible assumption | with_reducible apply wf_gateEn | with_reducible apply wf_plain
    | with_reducible apply wf_loftFlushAll | with_reducible apply wf_ite | with_reducible apply wf_ite_fst
    | (refine wf_of_eq (by assumption) ?_) | dsimp only | simp only [wf_mk] | split

theorem wf_htsWrite (l : Loc) (v : W) {s : State} (hs : s.wf = true) :
    State.wf (htsWrite l v s).1 = true := by
  unfold htsWrite
  repeat' first
    | intro _ | with_reducible assumption | with_reducible apply wf_plain | with_reducible apply wf_dieResetAction
    | with_reducible apply wf_rejoinAction | with_reducible apply wf_sf | with_reducible apply wf_ite
    | with_reducible apply wf_ite_fst | (refine wf_of_eq (by assumption) ?_) | dsimp only | split

theorem wf_negAction (v : W) {s : State} (hs : s.wf = true) :
    State.wf (negAction v s).1 = true := by
  unfold negAction
  repeat' first
    | intro _ | with_reducible assumption | with_reducible apply wf_sf | with_reducible apply wf_raise
    | with_reducible apply wf_ite | with_reducible apply wf_ite_fst | dsimp only | split

theorem wf_hostWrite (r : Req) (l : Loc) (v : W) {s : State} (hs : s.wf = true) :
    State.wf (hostWrite r l v s).1 = true := by
  unfold hostWrite
  repeat' first
    | intro _ | with_reducible assumption | with_reducible apply wf_negAction | with_reducible apply wf_guardW
    | with_reducible apply wf_plain | with_reducible apply wf_setSel | with_reducible apply wf_onStw
    | (refine wf_of_eq (by assumption) ?_) | dsimp only | simp only [wf_mk] | split

theorem wf_secWrite (l : Loc) (v : W) {s : State} (hs : s.wf = true) :
    State.wf (secWrite l v s).1 = true := by
  unfold secWrite
  repeat' first
    | intro _ | with_reducible assumption | with_reducible apply wf_floorAction | with_reducible apply wf_attGoAction
    | with_reducible apply wf_guardW | with_reducible apply wf_plain | with_reducible apply wf_ite
    | with_reducible apply wf_ite_fst | dsimp only | split

theorem wf_bootWrite (l : Loc) (v : W) {s : State} (hs : s.wf = true) :
    State.wf (bootWrite l v s).1 = true := by
  unfold bootWrite
  repeat' first
    | intro _ | with_reducible assumption | with_reducible apply wf_plain | with_reducible apply wf_sealNow
    | with_reducible apply wf_rebootAction | with_reducible apply wf_ite | with_reducible apply wf_ite_fst
    | (refine wf_of_eq (by assumption) ?_) | dsimp only | simp only [wf_mk] | split

theorem wf_ssvcWrite (l : Loc) (v : W) {s : State} (hs : s.wf = true) :
    State.wf (ssvcWrite l v s).1 = true := by
  unfold ssvcWrite
  repeat' first
    | intro _ | with_reducible assumption | with_reducible apply wf_csLoadAction | with_reducible apply wf_rmaAction
    | with_reducible apply wf_plain | with_reducible apply wf_ite | with_reducible apply wf_ite_fst
    | (refine wf_of_eq (by assumption) ?_) | dsimp only | simp only [wf_mk] | split

theorem wf_qCfgWrite (l : Loc) (q : Nat) (v : W) {s : State} (hs : s.wf = true) :
    State.wf (qCfgWrite l q v s).1 = true := by
  unfold qCfgWrite
  repeat' first
    | intro _ | with_reducible assumption | with_reducible apply wf_guardW | with_reducible apply wf_plain
    | with_reducible apply wf_ite | with_reducible apply wf_ite_fst | dsimp only | split

theorem wf_qCtrlWrite (l : Loc) (q : Nat) (v : W) {s : State} (hs : s.wf = true) :
    State.wf (qCtrlWrite l q v s).1 = true := by
  unfold qCtrlWrite
  repeat' first
    | intro _ | with_reducible assumption | with_reducible apply wf_plain | with_reducible apply wf_clearCounts
    | with_reducible apply wf_markQueue | with_reducible apply wf_rewindQueue | with_reducible apply wf_truncateQueue
    | with_reducible apply wf_ite | with_reducible apply wf_ite_fst | dsimp only | split

theorem wf_doorbell (q n : Nat) {s : State} (hs : s.wf = true) :
    State.wf (doorbell q n s).1 = true := by
  unfold doorbell
  repeat' first
    | intro _ | with_reducible assumption | with_reducible apply wf_qIrq | with_reducible apply wf_tallyAdd
    | with_reducible apply wf_setProd | with_reducible apply wf_doorbellConsume | with_reducible apply wf_ite
    | with_reducible apply wf_ite_fst | dsimp only | split

theorem wf_qCount (q off v : Nat) {s : State} (hs : s.wf = true) :
    State.wf (qCount q off v s).1 = true := by
  unfold qCount
  repeat' first
    | intro _ | with_reducible assumption | with_reducible apply wf_setProd | with_reducible apply wf_setRd
    | with_reducible apply wf_setMark | with_reducible apply wf_wr64 | with_reducible apply wf_qIrq
    | with_reducible apply wf_tallyAdd | with_reducible apply wf_guardW | with_reducible apply wf_releaseTo
    | with_reducible apply wf_ite | with_reducible apply wf_ite_fst | (refine wf_of_eq (by assumption) ?_)
    | dsimp only | split

theorem wf_queuePair (q off v : Nat) {s : State} (hs : s.wf = true) :
    State.wf (queuePair q off v s).1 = true := by
  unfold queuePair
  repeat' first
    | intro _ | with_reducible assumption | with_reducible apply wf_qCount | with_reducible apply wf_wr64
    | with_reducible apply wf_ite | with_reducible apply wf_ite_fst | dsimp only | split

theorem wf_queueWrite (l : Loc) (v : W) {s : State} (hs : s.wf = true) :
    State.wf (queueWrite l v s).1 = true := by
  unfold queueWrite
  repeat' first
    | intro _ | with_reducible assumption | with_reducible apply wf_qCfgWrite | with_reducible apply wf_qCtrlWrite
    | with_reducible apply wf_doorbell | with_reducible apply wf_plain | with_reducible apply wf_ite
    | with_reducible apply wf_ite_fst | (refine wf_of_eq (by assumption) ?_) | dsimp only | simp only [wf_mk] | split

theorem wf_blockWrite (r : Req) (l : Loc) (v : W) {s : State} (hs : s.wf = true) :
    State.wf (blockWrite r l v s).1 = true := by
  unfold blockWrite
  repeat' first
    | intro _ | with_reducible assumption | with_reducible apply wf_plain | with_reducible apply wf_tickWrite
    | with_reducible apply wf_dispWrite | with_reducible apply wf_watchWrite32 | with_reducible apply wf_updWrite
    | with_reducible apply wf_ceWrite | with_reducible apply wf_jrnlWrite | with_reducible apply wf_integWrite
    | with_reducible apply wf_setSel | with_reducible apply wf_svcAction | with_reducible apply wf_lpWrite
    | with_reducible apply wf_swWrite | with_reducible apply wf_htsWrite | with_reducible apply wf_hostWrite
    | with_reducible apply wf_secWrite | with_reducible apply wf_cfgCommand | with_reducible apply wf_bootWrite
    | with_reducible apply wf_restartAction | with_reducible apply wf_ssvcWrite | with_reducible apply wf_queueWrite
    | with_reducible apply wf_engineWrite | with_reducible apply wf_ite | with_reducible apply wf_ite_fst
    | (refine wf_of_eq (by assumption) ?_) | dsimp only | split

theorem wf_pairWrite (r : Req) (l : Loc) (v : Nat) {s : State} (hs : s.wf = true) :
    State.wf (pairWrite r l v s).1 = true := by
  unfold pairWrite
  repeat' first
    | intro _ | with_reducible assumption | with_reducible apply wf_wr64 | with_reducible apply wf_guardW
    | with_reducible apply wf_gateEn | with_reducible apply wf_onSelWeight | with_reducible apply wf_windowed
    | with_reducible apply wf_jrnlRelAction | with_reducible apply wf_queuePair | (refine wf_of_eq (by assumption) ?_)
    | dsimp only | simp only [wf_mk] | split

theorem wf_setShadow (r : Req) (a : Nat) (v : Option W) {s : State} (hs : s.wf = true) :
    State.wf (setShadow r a v s) = true := by
  unfold setShadow
  repeat' first
    | intro _ | with_reducible assumption | with_reducible apply wf_loShadowSet | dsimp only | simp only [wf_mk]

theorem wf_commitHi (r : Req) (l : Loc) (v : W) {s : State} (hs : s.wf = true) :
    State.wf (commitHi r l v s).1 = true := by
  unfold commitHi
  repeat' first
    | intro _ | with_reducible assumption | with_reducible apply wf_setShadow | with_reducible apply wf_pairWrite
    | with_reducible apply wf_ite | with_reducible apply wf_ite_fst | dsimp only | simp only [wf_mk] | split

theorem wf_writeAt (r : Req) (l : Loc) (v : W) {s : State} (hs : s.wf = true) :
    State.wf (writeAt r l v s).1 = true := by
  unfold writeAt
  repeat' first
    | intro _ | with_reducible assumption | with_reducible apply wf_setShadow | with_reducible apply wf_tallyAdd
    | with_reducible apply wf_commitHi | with_reducible apply wf_headerWrite | with_reducible apply wf_blockWrite
    | with_reducible apply wf_ite | with_reducible apply wf_ite_fst | (refine wf_of_eq (by assumption) ?_) | dsimp only
    | simp only [wf_mk] | split

theorem wf_regWrite (r : Req) (a : Nat) (width : Nat) (v : W) {s : State} (hs : s.wf = true) :
    State.wf (regWrite r a width v s).1 = true := by
  unfold regWrite
  repeat' first
    | intro _ | with_reducible assumption | with_reducible apply wf_wakeNow | with_reducible apply wf_recAccess
    | with_reducible apply wf_writeAt | with_reducible apply wf_csSettle | with_reducible apply wf_ite
    | with_reducible apply wf_ite_fst | (refine wf_of_eq (by assumption) ?_) | dsimp only | simp only [wf_mk] | split

theorem wf_regWr (r : Req) (a : Nat) (v : W) {s : State} (hs : s.wf = true) :
    State.wf (regWr r a v s) = true := by
  unfold regWr
  repeat' first
    | intro _ | with_reducible assumption | with_reducible apply wf_regWrite | dsimp only

theorem wf_regWr64 (r : Req) (a : Nat) (v : D) {s : State} (hs : s.wf = true) :
    State.wf (regWr64 r a v s) = true := by
  unfold regWr64
  repeat' first
    | intro _ | with_reducible assumption | with_reducible apply wf_regWr | dsimp only

end Sys2Proof.Machine
end

