-- ==== Sys2Proof/Laws/WfRows.lean ====
section
/-!
SUPPORT. Laws/WfRows.lean: what Machine/Rows.lean changes of the sparse maps of the package keeps their canonical form.
-/
namespace Sys2Proof.Machine

theorem wf_ask (r : Req) (p : Nat) (f : Fld) (n : Nat) (keep : List Fld) {s : State} (hs : s.wf = true) :
    State.wf (ask r p f n keep s) = true := by
  unfold ask
  repeat' first
    | intro _ | with_reducible assumption | with_reducible apply wf_regWr | dsimp only

theorem wf_doTickEn (r : Req) (d : DieId) (en : Bool) {s : State} (hs : s.wf = true) :
    State.wf (doTickEn r d en s) = true := by
  unfold doTickEn
  repeat' first
    | intro _ | with_reducible assumption | with_reducible apply wf_ask | dsimp only

theorem wf_doRun (r : Req) (d : DieId) (v : Bool) {s : State} (hs : s.wf = true) :
    State.wf (doRun r d v s) = true := by
  unfold doRun
  repeat' first
    | intro _ | with_reducible assumption | with_reducible apply wf_ask | dsimp only

theorem wf_doResume (r : Req) (d : DieId) {s : State} (hs : s.wf = true) :
    State.wf (doResume r d s) = true := by
  unfold doResume
  repeat' first
    | intro _ | with_reducible assumption | with_reducible apply wf_ask | dsimp only

theorem wf_doStop (r : Req) (d : DieId) {s : State} (hs : s.wf = true) :
    State.wf (doStop r d s) = true := by
  unfold doStop
  repeat' first
    | intro _ | with_reducible assumption | with_reducible apply wf_ask | dsimp only

theorem wf_dispCmd (r : Req) (d : DieId) (op : Nat) (slot : Fin 2) {s : State} (hs : s.wf = true) :
    State.wf (dispCmd r d op slot s) = true := by
  unfold dispCmd
  repeat' first
    | intro _ | with_reducible assumption | with_reducible apply wf_regWr | dsimp only

theorem wf_doLpEnable (r : Req) (p : PortId) (en : Bool) {s : State} (hs : s.wf = true) :
    State.wf (doLpEnable r p en s) = true := by
  unfold doLpEnable
  repeat' first
    | intro _ | with_reducible assumption | with_reducible apply wf_ask | dsimp only

theorem wf_doLpRetrain (r : Req) (p : PortId) {s : State} (hs : s.wf = true) :
    State.wf (doLpRetrain r p s) = true := by
  unfold doLpRetrain
  repeat' first
    | intro _ | with_reducible assumption | with_reducible apply wf_ask | dsimp only

theorem wf_doSwRetrain (r : Req) (d : DieId) (e : SideId) {s : State} (hs : s.wf = true) :
    State.wf (doSwRetrain r d e s) = true := by
  unfold doSwRetrain
  repeat' first
    | intro _ | with_reducible assumption | with_reducible apply wf_ask | dsimp only

theorem wf_doDieReset (r : Req) (h : DieId) (k : ResetKind) {s : State} (hs : s.wf = true) :
    State.wf (doDieReset r h k s) = true := by
  unfold doDieReset
  repeat' first
    | intro _ | with_reducible assumption | with_reducible apply wf_regWr | (refine wf_of_eq (by assumption) ?_)
    | dsimp only | simp only [wf_mk] | split

theorem wf_doRejoin (r : Req) (h : DieId) {s : State} (hs : s.wf = true) :
    State.wf (doRejoin r h s) = true := by
  unfold doRejoin
  repeat' first
    | intro _ | with_reducible assumption | with_reducible apply wf_ask | dsimp only

theorem wf_doInjArm (r : Req) (d : DieId) (syms : Fin 4) {s : State} (hs : s.wf = true) :
    State.wf (doInjArm r d syms s) = true := by
  unfold doInjArm
  repeat' first
    | intro _ | with_reducible assumption | with_reducible apply wf_regWr | dsimp only

theorem wf_doReshardArm (r : Req) (d : DieId) (epoch : Nat) {s : State} (hs : s.wf = true) :
    State.wf (doReshardArm r d epoch s) = true := by
  unfold doReshardArm
  repeat' first
    | intro _ | with_reducible assumption | with_reducible apply wf_regWr | dsimp only

theorem wf_doReshardDisarm (r : Req) (d : DieId) {s : State} (hs : s.wf = true) :
    State.wf (doReshardDisarm r d s) = true := by
  unfold doReshardDisarm
  repeat' first
    | intro _ | with_reducible assumption | with_reducible apply wf_ask | dsimp only

theorem wf_doJrnlRelWrite (r : Req) (d : DieId) (v : D) {s : State} (hs : s.wf = true) :
    State.wf (doJrnlRelWrite r d v s) = true := by
  unfold doJrnlRelWrite
  repeat' first
    | intro _ | with_reducible assumption | with_reducible apply wf_regWr64 | dsimp only

theorem wf_doQEn (r : Req) (q : Fin 32) (en : Bool) {s : State} (hs : s.wf = true) :
    State.wf (doQEn r q en s) = true := by
  unfold doQEn
  repeat' first
    | intro _ | with_reducible assumption | with_reducible apply wf_ask | dsimp only

theorem wf_qAct (f : Fld) (r : Req) (q : Fin 32) {s : State} (hs : s.wf = true) :
    State.wf (qAct f r q s) = true := by
  unfold qAct
  repeat' first
    | intro _ | with_reducible assumption | with_reducible apply wf_ask | dsimp only

theorem wf_svcReq (r : Req) (d : DieId) (op pageNum : Nat) {s : State} (hs : s.wf = true) :
    State.wf (svcReq r d op pageNum s) = true := by
  unfold svcReq
  repeat' first
    | intro _ | with_reducible assumption | with_reducible apply wf_regWr | dsimp only

theorem wf_doCsLoad (r : Req) (d : DieId) (slot : Fin 2) {s : State} (hs : s.wf = true) :
    State.wf (doCsLoad r d slot s) = true := by
  unfold doCsLoad
  repeat' first
    | intro _ | with_reducible assumption | with_reducible apply wf_regWr | dsimp only

theorem wf_cfgCmd (r : Req) (op : Nat) (slot : Fin 2) {s : State} (hs : s.wf = true) :
    State.wf (cfgCmd r op slot s) = true := by
  unfold cfgCmd
  repeat' first
    | intro _ | with_reducible assumption | with_reducible apply wf_regWr | dsimp only

theorem wf_doTallyClrAll (r : Req) (page : Nat) {s : State} (hs : s.wf = true) :
    State.wf (doTallyClrAll r page s) = true := by
  unfold doTallyClrAll
  repeat' first
    | intro _ | with_reducible assumption | with_reducible apply wf_regWr | dsimp only

theorem wf_doRegisterWrite (r : Req) (addr width : Nat) (v : W) {s : State} (hs : s.wf = true) :
    State.wf (doRegisterWrite r addr width v s) = true := by
  unfold doRegisterWrite
  repeat' first
    | intro _ | with_reducible assumption | with_reducible apply wf_tallyAdd | with_reducible apply wf_regWrite
    | with_reducible apply wf_ite | with_reducible apply wf_ite_fst | (refine wf_of_eq (by assumption) ?_)
    | dsimp only | split

theorem wf_doReadLoLatch (r : Req) (addr : Nat) {s : State} (hs : s.wf = true) :
    State.wf (doReadLoLatch r addr s) = true := by
  unfold doReadLoLatch
  repeat' first
    | intro _ | with_reducible assumption | with_reducible apply wf_regRead | with_reducible apply wf_ite
    | with_reducible apply wf_ite_fst | dsimp only | split

end Sys2Proof.Machine
end

