-- ==== Sys2Proof/Laws/WfHostIf.lean ====
section
/-!
SUPPORT. Laws/WfHostIf.lean: what Machine/HostIf.lean changes of the sparse maps of the package keeps their canonical form.
-/
namespace Sys2Proof.Machine

theorem wf_abortHost {s : State} (hs : s.wf = true) :
    State.wf (abortHost s) = true := by
  unfold abortHost
  repeat' first
    | intro _ | with_reducible assumption | with_reducible apply wf_emit | with_reducible apply wf_onStw | dsimp only
    | simp only [wf_mk]

theorem wf_doBar0Read (off : Nat) (width : Nat) {s : State} (hs : s.wf = true) :
    State.wf (doBar0Read off width s) = true := by
  unfold doBar0Read
  repeat' first
    | intro _ | with_reducible assumption | with_reducible apply wf_emit | with_reducible apply wf_onStw
    | with_reducible apply wf_tallyAdd | with_reducible apply wf_regRead | with_reducible apply wf_abortHost
    | with_reducible apply wf_ite | with_reducible apply wf_ite_fst | (refine wf_of_eq (by assumption) ?_) | dsimp only
    | simp only [wf_mk] | split

theorem wf_doQPop (r : Req) (q : Fin 32) {s : State} (hs : s.wf = true) :
    State.wf (doQPop r q s) = true := by
  unfold doQPop
  repeat' first
    | intro _ | with_reducible assumption | with_reducible apply wf_doBar0Read | with_reducible apply wf_regRead
    | with_reducible apply wf_ite | with_reducible apply wf_ite_fst | (refine wf_of_eq (by assumption) ?_)
    | dsimp only | split

theorem wf_bar2Fails (a code : Nat) (write : Bool) {s : State} (hs : s.wf = true) :
    State.wf (bar2Fails a code write s) = true := by
  unfold bar2Fails
  repeat' first
    | intro _ | with_reducible assumption | with_reducible apply wf_wr64 | with_reducible apply wf_sf
    | with_reducible apply wf_raise | with_reducible apply wf_tallyAdd | dsimp only

theorem wf_doBar2Read (off : Nat) (len : Nat) {s : State} (hs : s.wf = true) :
    State.wf (doBar2Read off len s) = true := by
  unfold doBar2Read
  repeat' first
    | intro _ | with_reducible assumption | with_reducible apply wf_wakeNow | with_reducible apply wf_memRead
    | with_reducible apply wf_emit | with_reducible apply wf_abortHost | with_reducible apply wf_bar2Fails
    | with_reducible apply wf_ite | with_reducible apply wf_ite_fst | (refine wf_of_eq (by assumption) ?_) | dsimp only
    | simp only [wf_mk] | split

theorem wf_doBar2Write (off : Nat) (data : List Byte) {s : State} (hs : s.wf = true) :
    State.wf (doBar2Write off data s) = true := by
  unfold doBar2Write
  repeat' first
    | intro _ | with_reducible assumption | with_reducible apply wf_wakeNow | with_reducible apply wf_memWrite
    | with_reducible apply wf_bar2Fails | with_reducible apply wf_ite | with_reducible apply wf_ite_fst
    | (refine wf_of_eq (by assumption) ?_) | dsimp only | simp only [wf_mk] | split

theorem wf_complete (c : Cmd) (status detail : Nat) {s : State} (hs : s.wf = true) :
    State.wf (complete c status detail s) = true := by
  unfold complete
  repeat' first
    | intro _ | with_reducible assumption | with_reducible apply wf_qPush | with_reducible apply wf_tallyAdd
    | with_reducible apply wf_releaseTo | with_reducible apply wf_onStw | with_reducible apply wf_ite
    | with_reducible apply wf_ite_fst | dsimp only | simp only [wf_mk] | split

theorem wf_doSubmissionFetch {s : State} (hs : s.wf = true) :
    State.wf (doSubmissionFetch s) = true := by
  unfold doSubmissionFetch
  repeat' first
    | intro _ | with_reducible assumption | with_reducible apply wf_onStw | with_reducible apply wf_setRd
    | with_reducible apply wf_complete | with_reducible apply wf_ite | with_reducible apply wf_ite_fst | dsimp only
    | simp only [wf_mk] | split

theorem wf_command (op : Nat) (argOk : Cmd → State → Bool) (work : Cmd → State → State × Nat × Nat) {s : State} (hwork : ∀ (u1 : Cmd) (u2 : State), u2.wf = true → State.wf (work u1 u2).1 = true) (hs : s.wf = true) :
    State.wf (command op argOk work s) = true := by
  unfold command
  repeat' first
    | intro _ | with_reducible assumption | with_reducible apply wf_complete | with_reducible apply hwork
    | with_reducible apply wf_ite | with_reducible apply wf_ite_fst | (refine wf_of_eq (by assumption) ?_)
    | dsimp only | split

theorem wf_doCmdNop {s : State} (hs : s.wf = true) :
    State.wf (doCmdNop s) = true := by
  unfold doCmdNop
  repeat' first
    | intro _ | with_reducible assumption | with_reducible apply wf_command | dsimp only

theorem wf_pairAsHost (off : Nat) (v : W) {s : State} (hs : s.wf = true) :
    State.wf (pairAsHost off v s).1 = true := by
  unfold pairAsHost
  repeat' first
    | intro _ | with_reducible assumption | with_reducible apply wf_tallyAdd | with_reducible apply wf_regWrite
    | with_reducible apply wf_ite | with_reducible apply wf_ite_fst | dsimp only | split

theorem wf_pairs (c : Cmd) (n : Nat) : ∀ (i : Nat) {s : State}, s.wf = true → State.wf (pairs c i n s).1 = true := by
  induction n with
  | zero => intro i s h; exact h
  | succ n ih =>
    intro i s h
    unfold pairs
    split
    · rename_i s1 e
      have h1 := wf_of_eq e (wf_pairAsHost _ _ h)
      split
      · exact h1
      · exact ih _ h1
    · rename_i e; exact wf_of_eq e (wf_pairAsHost _ _ h)

theorem wf_doRegWrite {s : State} (hs : s.wf = true) :
    State.wf (doRegWrite s) = true := by
  unfold doRegWrite
  repeat' first
    | intro _ | with_reducible assumption | with_reducible apply wf_command | with_reducible apply wf_pairs
    | dsimp only

theorem wf_movePieces (f : Nat → Nat → State → State × Nat) (v1 : List (Nat × Nat)) (v2 : Nat) {v3 : State} (hf : ∀ (u1 : Nat) (u2 : Nat) (u3 : State), u3.wf = true → State.wf (f u1 u2 u3).1 = true) (hv3 : v3.wf = true) :
    State.wf (movePieces f v1 v2 v3).1 = true := by
  induction v1 generalizing v2 v3 hv3 with
  | nil =>
    unfold movePieces
    repeat' first
      | intro _ | with_reducible assumption | with_reducible apply hf | (refine wf_of_eq (by assumption) ?_)
      | dsimp only | split
  | cons x xs ih =>
    unfold movePieces
    repeat' first
      | intro _ | with_reducible assumption | with_reducible apply ih | with_reducible apply hf | (refine wf_of_eq (by assumption) ?_)
      | dsimp only | split

theorem wf_copyWork (c : Cmd) (write : Bool) (t : Nat) (f : Nat → Nat → State → State × Nat) (hf : ∀ (u1 : Nat) (u2 : Nat)
    (u3 : State), u3.wf = true → State.wf (f u1 u2 u3).1 = true) {s : State} (hs : s.wf = true) :
    State.wf (copyWork c write t f s).1 = true := by
  unfold copyWork
  repeat' first
    | intro _ | with_reducible assumption | with_reducible apply hf | with_reducible apply wf_wakeNow
    | with_reducible apply wf_movePieces | with_reducible apply wf_tallyQty | with_reducible apply wf_ite
    | with_reducible apply wf_ite_fst | (refine wf_of_eq (by assumption) ?_) | dsimp only | simp only [wf_mk] | split

theorem wf_doCopyIn {s : State} (hs : s.wf = true) :
    State.wf (doCopyIn s) = true := by
  unfold doCopyIn
  repeat' first
    | intro _ | with_reducible assumption | with_reducible apply wf_command | with_reducible apply wf_copyWork
    | with_reducible apply wf_memWrite | dsimp only

theorem wf_doCopyOut {s : State} (hs : s.wf = true) :
    State.wf (doCopyOut s) = true := by
  unfold doCopyOut
  repeat' first
    | intro _ | with_reducible assumption | with_reducible apply wf_command | with_reducible apply wf_copyWork
    | with_reducible apply wf_memRead | with_reducible apply wf_hostPoke | (refine wf_of_eq (by assumption) ?_)
    | dsimp only | split

theorem wf_feedPushWork (c : Cmd) {s : State} (hs : s.wf = true) :
    State.wf (feedPushWork c s).1 = true := by
  unfold feedPushWork
  repeat' first
    | intro _ | with_reducible assumption | with_reducible apply wf_wakeNow | with_reducible apply wf_feedItem
    | with_reducible apply wf_qIrq | with_reducible apply wf_ite | with_reducible apply wf_ite_fst
    | (refine wf_of_eq (by assumption) ?_) | dsimp only | simp only [wf_mk] | split

theorem wf_doFeedPush {s : State} (hs : s.wf = true) :
    State.wf (doFeedPush s) = true := by
  unfold doFeedPush
  repeat' first
    | intro _ | with_reducible assumption | with_reducible apply wf_command | with_reducible apply wf_feedPushWork
    | dsimp only

theorem wf_doQueueIrqDelay (q : Fin 32) {s : State} (hs : s.wf = true) :
    State.wf (doQueueIrqDelay q s) = true := by
  unfold doQueueIrqDelay
  repeat' first
    | intro _ | with_reducible assumption | with_reducible apply wf_emit | with_reducible apply wf_onQueue
    | with_reducible apply wf_ite | with_reducible apply wf_ite_fst | dsimp only | simp only [wf_mk] | split

end Sys2Proof.Machine
end

