-- ==== Sys2Proof/Laws/WfMgmt.lean ====
section
/-!
SUPPORT. Laws/WfMgmt.lean: what Machine/Mgmt.lean changes of the sparse maps of the package keeps their canonical form.
-/
namespace Sys2Proof.Machine

theorem wf_mgmtCmd (pecOk : Bool) (f : State → State) {s : State} (hf : ∀ (u1 : State), u1.wf = true → State.wf (f u1) = true) (hs : s.wf = true) :
    State.wf (mgmtCmd pecOk f s) = true := by
  unfold mgmtCmd
  repeat' first
    | intro _ | with_reducible assumption | with_reducible apply wf_raise | with_reducible apply wf_tallyAdd
    | with_reducible apply hf | with_reducible apply wf_ite | with_reducible apply wf_ite_fst | dsimp only | split

theorem wf_mgmtDone {s : State} (hs : s.wf = true) :
    State.wf (mgmtDone s) = true := by
  unfold mgmtDone
  repeat' first
    | intro _ | with_reducible assumption | with_reducible apply wf_tallyAdd | dsimp only

theorem wf_doSmbAddr (addr : W) (pecOk : Bool) {s : State} (hs : s.wf = true) :
    State.wf (doSmbAddr addr pecOk s) = true := by
  unfold doSmbAddr
  repeat' first
    | intro _ | with_reducible assumption | with_reducible apply wf_mgmtCmd | with_reducible apply wf_mgmtDone
    | with_reducible apply wf_onStw | with_reducible apply wf_emit | with_reducible apply wf_ite
    | with_reducible apply wf_ite_fst | dsimp only | simp only [wf_mk] | split

theorem wf_mgmtLast (code : Nat) (write : Bool) {s : State} (hs : s.wf = true) :
    State.wf (mgmtLast code write s) = true := by
  unfold mgmtLast
  repeat' first
    | intro _ | with_reducible assumption | with_reducible apply wf_sf | with_reducible apply wf_mgmtDone
    | with_reducible apply wf_tallyAdd | with_reducible apply wf_ite | with_reducible apply wf_ite_fst | dsimp only
    | split

theorem wf_doSmbDataRead (pecOk : Bool) {s : State} (hs : s.wf = true) :
    State.wf (doSmbDataRead pecOk s) = true := by
  unfold doSmbDataRead
  repeat' first
    | intro _ | with_reducible assumption | with_reducible apply wf_mgmtCmd | with_reducible apply wf_regRead
    | with_reducible apply wf_emit | with_reducible apply wf_mgmtLast | with_reducible apply wf_ite
    | with_reducible apply wf_ite_fst | (refine wf_of_eq (by assumption) ?_) | dsimp only | split

theorem wf_doSmbDataWrite (v : W) (pecOk : Bool) {s : State} (hs : s.wf = true) :
    State.wf (doSmbDataWrite v pecOk s) = true := by
  unfold doSmbDataWrite
  repeat' first
    | intro _ | with_reducible assumption | with_reducible apply wf_mgmtCmd | with_reducible apply wf_regWrite
    | with_reducible apply wf_mgmtLast | (refine wf_of_eq (by assumption) ?_) | dsimp only | split

theorem wf_doSmbStatus (pecOk : Bool) {s : State} (hs : s.wf = true) :
    State.wf (doSmbStatus pecOk s) = true := by
  unfold doSmbStatus
  repeat' first
    | intro _ | with_reducible assumption | with_reducible apply wf_mgmtCmd | with_reducible apply wf_emit
    | with_reducible apply wf_mgmtDone | dsimp only

theorem wf_doIdent (pecOk : Bool) {s : State} (hs : s.wf = true) :
    State.wf (doIdent pecOk s) = true := by
  unfold doIdent
  repeat' first
    | intro _ | with_reducible assumption | with_reducible apply wf_mgmtCmd | with_reducible apply wf_emit
    | with_reducible apply wf_mgmtDone | dsimp only

theorem wf_doAlertResponse {s : State} (hs : s.wf = true) :
    State.wf (doAlertResponse s) = true := by
  unfold doAlertResponse
  repeat' first
    | intro _ | with_reducible assumption | with_reducible apply wf_emit | with_reducible apply wf_ite
    | with_reducible apply wf_ite_fst | dsimp only | split

theorem wf_doVrAlert (mask : Fin 16) {s : State} (hs : s.wf = true) :
    State.wf (doVrAlert mask s) = true := by
  unfold doVrAlert
  repeat' first
    | intro _ | with_reducible assumption | with_reducible apply wf_raise | with_reducible apply wf_tallyAdd
    | with_reducible apply wf_forEach | with_reducible apply wf_orBit | with_reducible apply wf_ite
    | with_reducible apply wf_ite_fst | dsimp only | split

end Sys2Proof.Machine
end

