-- ==== Sys2Proof/Laws/WfEvents.lean ====
section
/-!
SUPPORT. Laws/WfEvents.lean: what Machine/Events.lean changes of the sparse maps of the package keeps their canonical form.
-/
namespace Sys2Proof.Machine

theorem wf_arrives (p : PortId) (m : LinkMsg) {s : State} (hs : s.wf = true) :
    State.wf (arrives p m s) = true := by
  unfold arrives
  repeat' first
    | intro _ | with_reducible assumption | with_reducible apply wf_wakeNow | with_reducible apply wf_ite
    | with_reducible apply wf_ite_fst | dsimp only | split

theorem wf_settled (f : State → State) {s : State} (hf : ∀ (u1 : State), u1.wf = true → State.wf (f u1) = true) (hs : s.wf = true) :
    State.wf (settled f s) = true := by
  unfold settled
  repeat' first
    | intro _ | with_reducible assumption | with_reducible apply wf_csSettle | with_reducible apply hf | dsimp only

theorem wf_onEdge (d : DieId) (e : SideId) (f : State → State) {s : State} (hf : ∀ (u1 : State), u1.wf = true → State.wf (f u1) = true) (hs : s.wf = true) :
    State.wf (onEdge d e f s) = true := by
  unfold onEdge
  repeat' first
    | intro _ | with_reducible assumption | with_reducible apply wf_csSettle | with_reducible apply wf_edgeFault
    | with_reducible apply hf | with_reducible apply wf_ite | with_reducible apply wf_ite_fst | dsimp only | split

end Sys2Proof.Machine
end

