-- ==== Sys2Proof/Laws/WfStep.lean ====
section
/-!
SUPPORT. Laws/WfStep.lean: what Machine/Step.lean changes of the sparse maps of the package keeps their canonical form.
-/
namespace Sys2Proof.Machine

theorem wf_stretchClock (d : DieId) {s : State} (hs : s.wf = true) :
    State.wf (stretchClock d s) = true := by
  unfold stretchClock
  repeat' first
    | intro _ | with_reducible assumption | with_reducible apply wf_tallyQty | with_reducible apply wf_ite
    | with_reducible apply wf_ite_fst | dsimp only | split

theorem wf_dieClock (d : DieId) {s : State} (hs : s.wf = true) :
    State.wf (dieClock d s) = true := by
  unfold dieClock
  repeat' first
    | intro _ | with_reducible assumption | with_reducible apply wf_tickRelease | with_reducible apply wf_chargeShadow
    | with_reducible apply wf_chargePhase | with_reducible apply wf_stretchClock | dsimp only

theorem wf_idleStep {s : State} (hs : s.wf = true) :
    State.wf (idleStep s) = true := by
  unfold idleStep
  repeat' first
    | intro _ | with_reducible assumption | with_reducible apply wf_clocked | with_reducible apply wf_forEach
    | with_reducible apply wf_dieClock | with_reducible apply wf_ite | with_reducible apply wf_ite_fst
    | with_reducible apply wf_chargePhase | dsimp only | simp only [wf_mk] | split

theorem wf_State.withFetchWord {s : State} (nbits w : Nat) (hs : s.wf = true) :
    State.wf (State.withFetchWord s nbits w) = true := by
  unfold State.withFetchWord
  repeat' first
    | intro _ | with_reducible assumption | (refine wf_of_eq (by assumption) ?_) | dsimp only | simp only [wf_mk]
    | split

end Sys2Proof.Machine
end

