-- ==== Sys2Proof/Tests/Slice0.lean ====
section
/-!
SUPPORT. Slice0.lean: the author's tests. A state and operands that meet the hypotheses of every statement, clause by clause; commands
that WellFormed refuses, one for each of its checks; and values of the manual's own tables.
-/
open Sys2Proof Sys2Proof.Machine
namespace Sys2Proof.Tests
set_option Elab.async false

/-! ### States to stand on -/

/-- Fields set one after another. -/
def sets (l : List (Nat × Fld × Nat)) (s : State) : State := l.foldl (fun s e => sf e.1 e.2.1 e.2.2 s) s

/-- A package in READY with every die live. -/
def up : State := sets ((pgBOOT, BOOT_STAT_STAGE, 4) :: (List.finRange 4).map fun d => (pgHTSof d, HTS_DIE_STATE, 2)) State.reset

/-- A write passes, as a Bool. -/
def mayWriteB (r : Req) (a : Nat) (v : W) (s : State) : Bool :=
  reqActs s r && !wakesWrite r a v s && s.stw.csJob.isNone &&
    match checkAccess r a 4 true s with
    | .ok l => !sealBars s l v && formOk l.spec v
    | .error _ => false

/-- The Bool says what the statements' premise says. -/
theorem mayWrite_of {r : Req} {a : Nat} {v : W} {s : State} (h : mayWriteB r a v s = true) : mayWrite r a v s := by
  unfold mayWriteB at h
  cases hc : checkAccess r a 4 true s with
  | error e => simp [hc] at h
  | ok l =>
    simp [hc] at h
    exact ⟨h.1.1.1, h.1.1.2, h.1.2, l, hc, h.2.1, h.2.2⟩

/-- The same for a write of one field. -/
theorem mayAsk_of {r : Req} {p : Nat} {f : Fld} {n : Nat} {keep : List Fld} {s : State}
    (h : mayWriteB r (p + f.off) (setFld (keeping s p keep) f n) s = true) : mayAsk r p f n keep s := mayWrite_of h

/-- The location an access reaches when it passes every check of R40. -/
def loc? (r : Req) (a w : Nat) (write : Bool) (s : State) : Option Loc :=
  match checkAccess r a w write s with
  | .ok l => some l
  | .error _ => none

/-- A location reached is an access that passes. -/
theorem loc?_ok {r : Req} {a w : Nat} {write : Bool} {s : State} {l : Loc} (h : loc? r a w write s = some l) :
    checkAccess r a w write s = .ok l := by
  unfold loc? at h
  split at h
  · next m e => rw [e]; exact congrArg _ (Option.some.inj h)
  · cases h

/-- An access that passes reaches a location. -/
theorem ok_of_isSome {r : Req} {a w : Nat} {write : Bool} {s : State} (h : (loc? r a w write s).isSome = true) :
    ∃ l, checkAccess r a w write s = .ok l := by
  obtain ⟨l, hl⟩ := Option.isSome_iff_exists.mp h
  exact ⟨l, loc?_ok hl⟩

/-- A pair with a known second part. -/
theorem pair_of {α β : Type} {x : α × β} {b : β} (h : x.2 = b) : ∃ a, x = (a, b) := ⟨x.1, by rw [← h]⟩

/-- A triple with a known second part. -/
theorem triple_of {α β γ : Type} {x : α × β × γ} {b : β} (h : x.2.1 = b) : ∃ a c, x = (a, b, c) := ⟨x.1, x.2.2, by rw [← h]⟩

/-- Changes one die. -/
def die (d : DieId) (f : Die → Die) (s : State) : State := { s with dies := s.dies.set d (f s.dies[d]) }

/-- Changes what the steward keeps. -/
def stw (f : Steward → Steward) (s : State) : State := { s with stw := f s.stw }

/-- Little-endian fields in package memory: address, bytes, value. -/
def mems (l : List (Nat × Nat × Nat)) (s : State) : State :=
  { s with mem := l.foldl (fun m e => ssetList zb m e.1 (leBytes e.2.1 e.2.2)) s.mem }

/-- Fields of task `t` of a test graph (R94). -/
def task (t : Nat) (l : List (Nat × Nat × Nat)) : List (Nat × Nat × Nat) := l.map fun e => (0x140 + 128 * t + e.1, e.2.1, e.2.2)

/-- Tensor `k` of a test graph (R98): 256 rows of 1,024 elements in format `fmt`, with GSIZE and GAXIS in `group`, and its class. -/
def tensor (k fmt group cls : Nat) : List (Nat × Nat × Nat) :=
  [(0, 8, 0x100000000000 + 0x800000 + 0x100000 * k), (8, 1, fmt), (9, 1, group), (10, 1, cls), (11, 1, 2), (16, 4, 1024), (20, 4, 256),
    (24, 4, 1), (28, 4, 1), (32, 4, 4096), (44, 2, 0xFFFF), (46, 2, 0xFFFF),
    (48, 8, if group = 0 then 0 else 0x100000000000 + 0x400000 + 0x40000 * k)].map fun e => (0x1000 + 64 * k + e.1, e.2.1, e.2.2)

/-- A graph of one compute frame in slot A of die `d`, ACTIVE, with its frame open (R92): `tasks` tasks and `tensors` tensors, and the
fields listed by their place in the image, which lies in die 0's store room. -/
def graph (d : DieId) (tasks tensors : Nat) (l : List (Nat × Nat × Nat)) (s : State) : State :=
  die d (fun k => { k with disp := { k.disp with slotA := { k.disp.slotA with base := storeBase 0, len := 0x2000 }, frameOpen := true } })
    (sets [(pgDISP d, DISP_ACTIVE_VALID, 1), (pgUPD d, UPD_VCTL_VALID, 1)]
      (mems (([(12, 4, 0x2000), (16, 2, 1), (20, 4, tasks), (24, 4, tensors), (68, 4, 0x100), (72, 4, 0x140), (76, 4, 0x1000), (80, 4, 0x1800),
          (0x100, 1, 1)] ++ l).map fun (e : Nat × Nat × Nat) => (storeBase 0 + e.1, e.2)) s))

/-- The image in force on a die, when one is. -/
def img (s : State) (d : DieId) : Img := (activeImg s d).getD (readImg s 0)

/-- It is the image in force. -/
theorem img_of {s : State} {d : DieId} (h : (activeImg s d).isSome = true) : activeImg s d = some (img s d) := by
  obtain ⟨i, hi⟩ := Option.isSome_iff_exists.mp h
  simp [img, hi]

/-! ### Witnesses: the block as a whole -/

theorem witness_CommandsRunInOrder : ({ up with pending := [.perst, .brake] } : State).pending = .perst :: [.brake] ∧ up.pending = [] :=
  ⟨rfl, by decide +kernel⟩

theorem witness_StepsKeep : State.reset.wf = true ∧ up.wf = true ∧ ∃ u, step { up with pending := [.perst] } = .next u :=
  ⟨by decide +kernel, by decide +kernel, _, rfl⟩

theorem witness_UnmappedAccesses :
    (∃ k, k < 2 ∧ mapped (storeBase 0 + storeSize - 1 + k) = false) ∧
    ∃ j k, j < 2 ∧ k < 2 ∧ regionAt (storeBase 0 + storeSize - 1 + j) ≠ regionAt (storeBase 0 + storeSize - 1 + k) :=
  ⟨⟨1, by decide +kernel⟩, 0, 1, by decide +kernel⟩

theorem witness_OddWidths :
    (∃ l, checkAccess .host (pgTICK 0 + 0x110) 4 true up = .ok l) ∧
    (∃ l, locate (pgTICK 0 + 0x110) = some l ∧ (restricted up .host = true → bootPage l = true) ∧ pageAnswers up l = true ∧
      wakesBy .host (pgTICK 0 + 0x110) up = false ∧ hostUp up = true ∧ reqActs up .host = true ∧
      wakesWrite .host (pgTICK 0 + 0x110) 0 up = false) ∧
    ∃ l, locate (pgTICK 0 + 0x111) = some l ∧ (restricted up .host = true → bootPage l = true) ∧ pageAnswers up l = true ∧
      wakesBy .host (pgTICK 0 + 0x111) up = false ∧ (pgTICK 0 + 0x111) % 4 ≠ 0 :=
  ⟨ok_of_isSome (by decide +kernel), ⟨(locate (pgTICK 0 + 0x110)).get (by decide +kernel), by decide +kernel⟩,
    (locate (pgTICK 0 + 0x111)).get (by decide +kernel), by decide +kernel⟩

/-- At the ends of the ranges of R125, R127 and R129. -/
theorem witness_Formats : (0x80 < 256 ∧ elemVal 3 0 0x80 = .nan) ∧ (15 < 16 ∧ 254 < 255 ∧ 255 ≠ 254) ∧ elemVal 6 15 0 = .fin true 15 0 := by
  decide +kernel

/-! ### Witnesses: vector engines -/

/-- An instruction word (R179). -/
def word (op vd va vb msk imm : Nat) (me : Bool) : D :=
  BitVec.ofNat 64 (op * 2 ^ 56 + vd * 2 ^ 50 + va * 2 ^ 44 + vb * 2 ^ 38 + msk * 2 ^ 28 + b2n me * 2 ^ 27 + imm)

/-- Engine `x` of die `d` at instruction `pc` of program `prog`, in task 0, with `f` applied to it. -/
def engine (d : DieId) (x : Fin 2) (prog : List D) (pc : Nat) (f : Vx → Vx) (s : State) : State :=
  die d (fun k => { k with prog := prog, vx := k.vx.set x (f { k.vx[x] with task := some 0, pc := pc }) }) s

/-- Engine 1 of die 2 at its first instruction `w`, with one instruction after it. -/
def atWord (w : D) : State := engine 2 1 [w, 0] 0 id up

theorem witness_Arithmetic : (∀ e ∈ arithOps 2 1, vxAt (atWord (word e.2.1 63 1 2 15 0 true)) 2 1 e.2.1 0 0 (vdecode (word e.2.1 63 1 2 15 0 true))) ∧
    ∀ e ∈ intOps 2 1, vxAt (atWord (word e.2.1 63 1 2 15 0 true)) 2 1 e.2.1 0 0 (vdecode (word e.2.1 63 1 2 15 0 true)) := by
  unfold vxAt; decide +kernel

theorem witness_Masks : (∀ e ∈ compareOps 2 1, vxAt (atWord (word e.2.1 15 1 2 0 0 false)) 2 1 e.2.1 0 0 (vdecode (word e.2.1 15 1 2 0 0 false))) ∧
    ∀ e ∈ maskOps 2 1, vxAt (atWord (word e.2.1 15 1 2 0 0 false)) 2 1 e.2.1 0 0 (vdecode (word e.2.1 15 1 2 0 0 false)) := by
  unfold vxAt; decide +kernel

/-- The opcodes of the moves, the address and scalar instructions, the selections and reductions, CVTFI, VRAND and the loads and stores. -/
theorem witness_OtherInstructions :
    ∀ op ∈ [0x11, 0x12, 0x14, 0x31, 0x59, 0x10, 0x08, 0x09, 0x0A, 0x0B, 0x0C, 0x0D, 0x13, 0x50, 0x51, 0x58, 0x30, 0x6B, 0x00, 0x02, 0x60, 0x64,
      0x67, 0x61, 0x65, 0x66, 0x62, 0x63, 0x69, 0x6A], vxAt (atWord (word op 3 1 2 0 1 false)) 2 1 op 0 0 (vdecode (word op 3 1 2 0 1 false)) := by
  unfold vxAt; decide +kernel

theorem witness_ScalarInputs :
    let s := engine 2 1 [word 0x10 3 1 2 0 7 false, 0] 0 (fun k => { k with sin := List.replicate 8 (some 5) }) up
    vxAt s 2 1 0x10 0 0 (vdecode (word 0x10 3 1 2 0 7 false)) ∧ s.dies[2].vx[1].sin.getD (7 % 8) none = some 5 := by
  unfold vxAt; decide +kernel

/-- A task with an X32 operand, one grouped along DIM0, one grouped along DIM1, and a mask, on a die with the engine at `w` and one lane set in
M0. -/
def mem1 (op o : Nat) : D := word op 3 1 2 0 (o * 2 ^ 21) true

/-- No lane is active under a mask register without a bit set. -/
theorem none_active {k : Vx} {w : VIn} (hm : k.m = []) (he : w.me = true) (j : Nat) : (active k w).getD j false = false := by
  unfold active mget
  rw [if_pos he, hm]
  by_cases h : j < 1024
  · rw [getD_sgetList _ _ _ _ _ _ h]; rfl
  · rw [List.getD_eq_getElem?_getD, List.getElem?_eq_none (by rw [length_sgetList]; omega)]; rfl

theorem none_eq {k : Vx} {w : VIn} (hm : k.m = []) (he : w.me = true) (j : Nat) (b : Bool) :
    ((active k w).getD j false == b) = (false == b) := by rw [none_active hm he]

theorem load_noLanes {d : DieId} {x : Fin 2} {t : Nat} {w : VIn} {k : Vx} {s : State} {v : View} (hm : k.m = []) (he : w.me = true)
    (hv : slotView s d t (vSlot w) false = .ok v) (hl : loadable w.ty v.fmt = true) (pos : List VPos) :
    ∃ n, vLoad d x t w (active k w) pos s = (countSuppressed d x n s, .next, []) := by
  have hf : (pos.filter fun _ => false == true) = [] := List.filter_eq_nil_iff.mpr (by simp)
  simp only [vLoad, hv, hl, none_eq hm he, hf]
  exact ⟨_, rfl⟩

theorem store_noLanes {d : DieId} {x : Fin 2} {t : Nat} {w : VIn} {k : Vx} {s : State} {v : View} (hm : k.m = []) (he : w.me = true)
    (hv : slotView s d t (vSlot w) true = .ok v) (hl : storable w.ty v.fmt = true) (pos : List VPos) (src : List W) :
    ∃ n, vStore d x t w (active k w) pos src s = (countSuppressed d x n s, .next) := by
  have hf : (pos.filter fun _ => false == true) = [] := List.filter_eq_nil_iff.mpr (by simp)
  simp only [vStore, hv, hl, none_eq hm he, hf]
  exact ⟨_, rfl⟩

/-- Engine 1 of die 0, in a task with an X32 operand, one grouped along DIM0, one grouped along DIM1, and a mask. -/
def atMem (w : D) : State :=
  engine 0 1 [w, 0] 0 id
    (graph 0 1 4 (task 0 [(2, 1, 7), (4, 2, 1), (32, 4, 0x30000), (36, 4, 0x30001), (40, 4, 0x30002), (44, 4, 0x30003), (66, 2, 1)] ++ tensor 0 0 0 0 ++
      tensor 1 3 1 0 ++ tensor 2 2 5 0 ++ tensor 3 9 0 0) up)

/-- The view of an operand, where it is one. -/
def view (s : State) (o : Nat) (write : Bool) : View := match slotView s 0 0 o write with | .ok v => v | .error _ => ⟨readTensor s (img s 0) 0, 0, 0, 0, 0⟩

/-- Operand `o` of the task is readable or writable. -/
def viewed (s : State) (o : Nat) (write : Bool) : Bool := match slotView s 0 0 o write with | .ok _ => true | .error _ => false

theorem view_of {s : State} {o : Nat} {write : Bool} (h : viewed s o write = true) : slotView s 0 0 o write = .ok (view s o write) := by
  unfold viewed view at *
  split at h
  · next v e => simp [e]
  · cases h

/-- Operand `o` is a mask that the mask instructions reach. -/
def masked (s : State) (w : VIn) (write : Bool) : Bool :=
  match maskView s 0 1 0 w write with | .ok v => v == view s (vSlot w) write | .error _ => false

theorem maskView_of {s : State} {w : VIn} {write : Bool} (h : masked s w write = true) : maskView s 0 1 0 w write = .ok (view s (vSlot w) write) := by
  unfold masked at h
  split at h
  · next v e => rw [e]; simpa using h
  · cases h

theorem lanesOf_nil {k : Vx} {w : VIn} (hm : k.m = []) (he : w.me = true) (pos : List VPos) : lanesOf (active k w) true pos = [] := by
  simp only [lanesOf, none_eq hm he]
  exact List.filter_eq_nil_iff.mpr (by simp)

theorem mld_noLanes {d : DieId} {x : Fin 2} {t : Nat} {w : VIn} {s : State} {v : View} (hm : s.dies[d].vx[x].m = []) (he : w.me = true)
    (hv : maskView s d x t w false = .ok v) : (mldBody d x t w s).2 = .next := by
  simp only [mldBody, hv, lanesOf_nil hm he]
  rfl

theorem mst_noLanes {d : DieId} {x : Fin 2} {t : Nat} {w : VIn} {s : State} {v : View} (hm : s.dies[d].vx[x].m = []) (he : w.me = true)
    (hv : maskView s d x t w true = .ok v) : (mstBody d x t w s).2 = .next := by
  have ht : ((List.range 128).filter fun q => (List.range 8).any fun j => (active s.dies[d].vx[x] w).getD (8 * q + j) false) = [] := by
    simp only [none_active hm he]
    exact List.filter_eq_nil_iff.mpr (by simp)
  simp only [mstBody, hv, lanesOf_nil hm he, ht]
  rfl

theorem vget_nil {k : Vx} (hv : k.v = []) (r : Nat) : vget k r = List.replicate 1024 0 := by
  refine List.eq_replicate_iff.mpr ⟨length_vget _ _, fun b hb => ?_⟩
  obtain ⟨j, hj, rfl⟩ := List.mem_iff_getElem.mp hb
  have h := getD_vget k r j 0 (by simpa using hj)
  rw [List.getD_eq_getElem?_getD, List.getElem?_eq_getElem hj, Option.getD_some] at h
  rw [h, vlane, hv]
  rfl

/-- VSTGX of registers at 0, with groups of 32. -/
theorem vstgx_zero {d : DieId} {x : Fin 2} {t : Nat} {w : VIn} {s : State} {v : View} (hz : s.dies[d].vx[x].v = [])
    (hv : slotView s d t (vSlot w) true = .ok v) (hg : v.t.gcode = 1) (hf : v.t.fmt ≠ 6) (hi : vIdx s.dies[d].vx[x] (vPair w) = (0, 0))
    (ha : w.va ≤ 56) :
    vstgxBody d x t w s = groupStore d x t v ((List.range 256).map fun n => (((n : Nat) : Int), 0, n, List.replicate 32 0)) s := by
  have hg' : v.t.g = 32 := by rw [Tensor.g, hg]; rfl
  have h1 : ¬(v.t.gcode = 0 ∨ v.t.fmt = 6) := by omega
  have h2 : ¬((0 : Int) % ((32 : Nat) : Int) ≠ 0 ∨ 63 < w.va + 32 / 4 - 1) := by omega
  have hd (j : Nat) : (List.replicate 1024 (0 : W)).getD j 0 = 0 := by
    rw [List.getD_eq_getElem?_getD, List.getElem?_replicate]; split <;> rfl
  simp only [vstgxBody, hv, hi, hg', vget_nil hz]
  rw [if_neg h1, if_neg h2]
  refine congrArg (fun l => groupStore d x t v l s) (List.map_congr_left fun n _ => ?_)
  simp only [List.flatMap_map, hd, Int.zero_add]
  rfl

theorem suppressed_dies (n : Nat) (s : State) : (countSuppressed 0 1 n s).dies = s.dies := by
  show (tallyAdd (pgVXof 0 1) 9 n s).dies = s.dies
  rw [(booked_tallyAdd (pgVXof 0 1) 9 n (ps := [pgVXof 0 1]) (by simp) (by decide +kernel) (by decide) s).1]

theorem witness_MaskStores :
    (vxAt (atMem (mem1 0x62 1)) 0 1 0x62 0 0 (vdecode (mem1 0x62 1)) ∧ (vstgBody 0 1 0 (vdecode (mem1 0x62 1)) (atMem (mem1 0x62 1))).2 = .next) ∧
    (vxAt (atMem (mem1 0x69 3)) 0 1 0x69 0 0 (vdecode (mem1 0x69 3)) ∧ (mldBody 0 1 0 (vdecode (mem1 0x69 3)) (atMem (mem1 0x69 3))).2 = .next) ∧
    vxAt (atMem (mem1 0x6A 3)) 0 1 0x6A 0 0 (vdecode (mem1 0x6A 3)) ∧ (mstBody 0 1 0 (vdecode (mem1 0x6A 3)) (atMem (mem1 0x6A 3))).2 = .next := by
  refine ⟨by unfold vxAt; decide +kernel, ⟨by unfold vxAt; decide +kernel, ?_⟩, by unfold vxAt; decide +kernel, ?_⟩
  · exact mld_noLanes (by decide +kernel) (by decide +kernel) (maskView_of (by decide +kernel))
  · exact mst_noLanes (by decide +kernel) (by decide +kernel) (maskView_of (by decide +kernel))

theorem witness_GroupStores : vxAt (atMem (mem1 0x63 2)) 0 1 0x63 0 0 (vdecode (mem1 0x63 2)) ∧
    (vstgxBody 0 1 0 (vdecode (mem1 0x63 2)) (atMem (mem1 0x63 2))).2 = .next := by
  refine ⟨by unfold vxAt; decide +kernel, ?_⟩
  rw [vstgx_zero (by decide +kernel) (view_of (by decide +kernel)) (by decide +kernel) (by decide +kernel) (by decide +kernel) (by decide +kernel)]
  decide +kernel

theorem witness_Loads : ∀ op ∈ [0x60, 0x64, 0x67], ∀ pos : List VPos,
    let w := vdecode (mem1 op 0)
    let s := atMem (mem1 op 0)
    vxAt s 0 1 op 0 0 w ∧ ∃ s1 xs, vLoad 0 1 0 w (active s.dies[0].vx[1] w) pos s = (s1, .next, xs) ∧ 0 + 1 < s1.dies[0].prog.length := by
  have h : ∀ op ∈ [0x60, 0x64, 0x67], let w := vdecode (mem1 op 0)
      let s := atMem (mem1 op 0)
      vxAt s 0 1 op 0 0 w ∧ s.dies[0].vx[1].m = [] ∧ w.me = true ∧ viewed s (vSlot w) false = true ∧
        loadable w.ty (view s (vSlot w) false).fmt = true := by unfold vxAt; decide +kernel
  intro op ho pos
  obtain ⟨h1, h2, h3, h4, h5⟩ := h op ho
  obtain ⟨n, hn⟩ := load_noLanes h2 h3 (view_of h4) h5 pos
  exact ⟨h1, _, _, hn, by rw [suppressed_dies]; exact h1.2.2.2.2.1⟩

theorem witness_Stores : (∀ op ∈ [0x61, 0x65, 0x66], ∀ (pos : List VPos) (src : List W),
    let w := vdecode (mem1 op 0)
    let s := atMem (mem1 op 0)
    vxAt s 0 1 op 0 0 w ∧ ∃ s1, vStore 0 1 0 w (active s.dies[0].vx[1] w) pos src s = (s1, .next) ∧ 0 + 1 < s1.dies[0].prog.length) := by
  have h : ∀ op ∈ [0x61, 0x65, 0x66], let w := vdecode (mem1 op 0)
      let s := atMem (mem1 op 0)
      vxAt s 0 1 op 0 0 w ∧ s.dies[0].vx[1].m = [] ∧ w.me = true ∧ viewed s (vSlot w) true = true ∧
        storable w.ty (view s (vSlot w) true).fmt = true := by unfold vxAt; decide +kernel
  intro op ho pos src
  obtain ⟨h1, h2, h3, h4, h5⟩ := h op ho
  obtain ⟨n, hn⟩ := store_noLanes h2 h3 (view_of h4) h5 pos src
  exact ⟨h1, _, hn, by rw [suppressed_dies]; exact h1.2.2.2.2.1⟩

/-- No slot of a package holds an image that protects its words. -/
def slotsFree (s : State) : Bool := allDies.all fun d => gf s (pgDISP d) DISP_SLOT_A_STATE == 0 && gf s (pgDISP d) DISP_SLOT_B_STATE == 0

theorem unprotected {s : State} (h : slotsFree s = true) (a n : Nat) : imageProtected s a n = false := by
  simp only [slotsFree, List.all_eq_true, Bool.and_eq_true, beq_iff_eq] at h
  simp only [imageProtected, List.any_eq_false]
  intro d hd
  simp [h d hd]

/-- The engines of die 0 may access any bytes of its store room. -/
theorem room_open {s : State} {a n : Nat} {write : Bool} (hl : dieLive s 0 = true) (hs : slotsFree s = true) (h0 : 0 < n)
    (h1 : 0x100000000000 ≤ a) (h2 : a + n ≤ 0x10000C000000) : accessCheck (.engine 0) a n write s = eOK := by
  have hr (b : Nat) (hb1 : 0x100000000000 ≤ b) (hb2 : b < 0x10000C000000) : regionAt b = some (.store 0) := by
    have e1 : ¬ b < 0x10000000000 := by omega
    have e2 : b < 0x100100000000 := by omega
    have e3 : b % 0x40000000 < storeSize := by unfold storeSize; omega
    have e4 : (b - 0x100000000000) / 0x40000000 % 4 = 0 := by omega
    simp only [regionAt, e1, e2, e3, hb1, if_true, if_false, and_self, Option.some.injEq, Region.store.injEq]
    exact Fin.ext e4
  have ho : regionOf a n = some (.store 0) := by
    have : n ≤ 0x40000000000 := by omega
    simp [regionOf, hr a h1 (by omega), hr (a + (n - 1)) (by omega) (by omega), this, pagesListed]
  have hi : inSteward a n = false := by simp only [inSteward]; simp; omega
  simp [accessCheck, ho, Region.home, hl, hi, unprotected hs, MemReq.reaches, MemReq.die, routeCheck]

/-- A view of 256 rows of 1,024 elements in die 0's store room, as the tensors of the test graph have it: ungrouped, or in groups of 32 along
DIM0 whose scales lie there too. -/
def roomy (v : View) : Bool :=
  v.t.dims == [1024, 256, 1, 1] && v.t.strides.getD 0 0 == 4096 && decide (fmtBits v.fmt ≤ 32) && decide (0x100000000000 ≤ v.base) &&
    decide (v.base + 0x100000 ≤ 0x10000C000000) &&
    (!v.grouped || (v.gaxis == 0 && v.t.gcode == 1 && v.fmt != 6 && decide (0x100000000000 ≤ v.scaleBase) &&
      decide (v.scaleBase + 0x40000 ≤ 0x10000C000000)))

theorem roomy_rows {v : View} (h : roomy v = true) : v.t.rows = 256 ∧ v.t.dim 0 = 1024 := by
  simp only [roomy, Bool.and_eq_true, beq_iff_eq] at h
  have hd := h.1.1.1.1.1
  simp [Tensor.rows, Tensor.dim, hd]

theorem roomy_rowAddr {v : View} (h : roomy v = true) {row : Nat} (hr : row < 256) : v.rowAddr row = v.base + row * 4096 := by
  simp only [roomy, Bool.and_eq_true, beq_iff_eq] at h
  obtain ⟨⟨⟨⟨⟨hd, hs⟩, -⟩, -⟩, -⟩, -⟩ := h
  have e1 : row % 256 = row := Nat.mod_eq_of_lt hr
  have e2 : row / 256 = 0 := Nat.div_eq_of_lt hr
  simp only [View.rowAddr, Tensor.coord, Tensor.dim, hd, hs, List.getD_cons_zero, List.getD_cons_succ, Nat.mul_one, e1, e2, Nat.zero_mod,
    Nat.zero_mul, Nat.add_zero]

theorem roomy_open {v : View} {s : State} {write : Bool} (hl : dieLive s 0 = true) (hs : slotsFree s = true) (h : roomy v = true) :
    viewOpen 0 v write s := by
  obtain ⟨hR, hD⟩ := roomy_rows h
  intro row i n hrow hn hin x hx
  rw [hR] at hrow
  rw [hD] at hin
  have ha := roomy_rowAddr h hrow
  simp only [roomy, Bool.and_eq_true, beq_iff_eq, decide_eq_true_eq, Bool.or_eq_true, Bool.not_eq_true', bne_iff_ne] at h
  obtain ⟨⟨⟨⟨⟨hd, -⟩, hf⟩, hb1⟩, hb2⟩, hg⟩ := h
  have hspan : accessCheck (.engine 0) (v.span row i n).1 (v.span row i n).2 write s = eOK := by
    have hm : i * fmtBits v.fmt + n * fmtBits v.fmt ≤ 32768 := by
      rw [← Nat.add_mul]; exact Nat.mul_le_mul hin hf
    have hp : 0 < fmtBits v.fmt := by
      unfold fmtBits; split <;> decide
    have hq : 0 < n * fmtBits v.fmt := Nat.mul_pos hn hp
    simp only [View.span, ha, cdiv]
    exact room_open hl hs (by omega) (by omega) (by omega)
  simp only [View.spans, List.mem_cons] at hx
  rcases hx with rfl | hx
  · exact hspan
  · split at hx
    · next hgr =>
      obtain ⟨⟨⟨⟨hga, hgc⟩, h6⟩, hs1⟩, hs2⟩ := hg.resolve_left (by simp [hgr])
      have hg32 : v.t.g = 32 := by rw [Tensor.g, hgc]; rfl
      have hgrp (j : Nat) (hj : j < 1024) : v.group row j = j / 32 + 32 * row := by
        have e1 : row % 256 = row := Nat.mod_eq_of_lt hrow
        have e2 : row / 256 = 0 := Nat.div_eq_of_lt hrow
        simp [View.group, Tensor.coord, Tensor.dim, hd, hga, hg32, e1, e2]
      simp only [h6, if_false, List.mem_cons, List.not_mem_nil, or_false] at hx
      subst hx
      have hi : i < 1024 := by clear hs1 hs2 hb1 hb2; omega
      have hj : i + n - 1 < 1024 := by clear hs1 hs2 hb1 hb2; omega
      show accessCheck (.engine 0) (v.scaleBase + v.group row i) (v.group row (i + n - 1) - v.group row i + 1) write s = eOK
      rw [hgrp i hi, hgrp (i + n - 1) hj]
      exact room_open hl hs (by omega) (by omega) (by omega)
    · cases hx

theorem roomy_inView {v : View} (h : roomy v = true) {n : Nat} {p : VPos} (h1 : 0 ≤ p.row) (h2 : p.row < 256) (h3 : 0 ≤ p.idx)
    (h4 : p.idx + n ≤ 1024) : inView v n p = true := by
  obtain ⟨hR, hD⟩ := roomy_rows h
  simp only [inView, hR, hD, Bool.and_eq_true, decide_eq_true_eq]
  exact ⟨⟨⟨h1, h2⟩, h3⟩, h4⟩

/-- The same instruction with every lane active. -/
def memAll (op o : Nat) : D := word op 3 1 2 0 (o * 2 ^ 21) false

/-- What the statements of stores and loads ask of a state on the test graph, but for the lanes' places. -/
def storesAt (op o : Nat) (write : Bool) : Bool :=
  let s := atMem (memAll op o)
  let w := vdecode (memAll op o)
  s.errs.isEmpty && (allDies.all fun h => gf s (pgINTEG h) INJ_CTRL_ARM == 0) && dieLive s 0 && slotsFree s && viewed s (vSlot w) write &&
    roomy (view s (vSlot w) write) && vIdx s.dies[(0 : DieId)].vx[(1 : Fin 2)] (vPair w) == (0, 0) && s.dies[(0 : DieId)].vx[(1 : Fin 2)].v.isEmpty

theorem storesAt_clean {op o : Nat} {write : Bool} (h : storesAt op o write = true) : clean (atMem (memAll op o)) := by
  simp only [storesAt, Bool.and_eq_true, List.all_eq_true, beq_iff_eq, List.isEmpty_iff] at h
  exact ⟨h.1.1.1.1.1.1.1, fun d => h.1.1.1.1.1.1.2 d (List.mem_finRange d)⟩

theorem storesAt_open {op o : Nat} {write : Bool} (h : storesAt op o write = true) :
    let s := atMem (memAll op o)
    viewOpen 0 (view s (vSlot (vdecode (memAll op o))) write) write s := by
  simp only [storesAt, Bool.and_eq_true] at h
  exact roomy_open h.1.1.1.1.1.2 h.1.1.1.1.2 h.1.1.2

theorem storesAt_positions {op o n : Nat} {write : Bool} (h : storesAt op o write = true) (hn : n = 1) (hty : (vdecode (memAll op o)).ty ≠ 1)
    (hs : vSeg (vdecode (memAll op o)) = 1024) {p : VPos} :
    let s := atMem (memAll op o)
    let w := vdecode (memAll op o)
    let k := s.dies[(0 : DieId)].vx[(1 : Fin 2)]
    p ∈ segPos k w ∨ p ∈ idxPos k w ∨ p ∈ packPos k w ∨ p ∈ maskPos k w → inView (view s (vSlot w) write) n p = true := by
  intro s w k hp
  simp only [storesAt, Bool.and_eq_true, beq_iff_eq, List.isEmpty_iff] at h
  obtain ⟨⟨⟨-, hr⟩, hi⟩, hv⟩ := h
  have h0 : vIdx k (vPair w) = (0, 0) := hi
  have hz : k.v = [] := hv
  subst hn
  simp only [segPos, idxPos, packPos, maskPos, h0, List.mem_map, List.mem_range, vget_nil hz] at hp
  rcases hp with ⟨j, hj, rfl⟩ | ⟨e, he, rfl⟩ | ⟨e, he, rfl⟩ | ⟨j, hj, rfl⟩
  · have e1 : j / vSeg w = 0 := by rw [show vSeg w = 1024 from hs]; omega
    have e2 : j % vSeg w = j := by rw [show vSeg w = 1024 from hs]; omega
    have e3 : w.ty ≠ 1 := hty
    simp only [e1, e2, e3, if_false]
    exact roomy_inView hr (by simp) (by simp) (by simp) (by simp; omega)
  · have : e.1 = 0 := by rw [(List.mem_zipIdx' he).2]; exact List.getElem_replicate _
    exact roomy_inView hr (by simp) (by simp) (by simp [this]) (by simp [this])
  · have : e.2 < 1024 := by
      have := (List.mem_zipIdx' he).1
      have hl : (activeLanes (active k w)).length ≤ 1024 :=
        Nat.le_trans (List.length_filter_le _ (List.range 1024)) (by simp)
      omega
    exact roomy_inView hr (by simp) (by simp) (by simp) (by simp; omega)
  · exact roomy_inView hr (by simp) (by simp) (by simp) (by simp; omega)

theorem of_lanes {act : List Bool} {a : Bool} {pos : List VPos} {p : VPos} (h : p ∈ lanesOf act a pos) : p ∈ pos := (List.mem_filter.mp h).1

/-- Every lane in its place, at the last element and at the first row, of an X32 operand: each load. -/
theorem witness_LoadForms : ∀ op ∈ [0x60, 0x64, 0x67],
    let s := atMem (memAll op 0)
    let w := vdecode (memAll op 0)
    let v := view s (vSlot w) false
    let k := s.dies[(0 : DieId)].vx[(1 : Fin 2)]
    vxAt s 0 1 op 0 0 w ∧ clean s ∧ slotView s 0 0 (vSlot w) false = .ok v ∧ viewOpen 0 v false s ∧ loadable w.ty v.fmt = true ∧ v.fmt = 0 ∧
      w.ty ≠ 1 ∧ (∀ p ∈ lanesOf (active k w) true (segPos k w), inView v 1 p = true) ∧
      (∀ p ∈ lanesOf (active k w) true (idxPos k w), inView v 1 p = true) ∧
      ∀ p ∈ lanesOf (active k w) true (packPos k w), inView v 1 p = true := by
  have h : ∀ op ∈ [0x60, 0x64, 0x67], let s := atMem (memAll op 0)
      let w := vdecode (memAll op 0)
      vxAt s 0 1 op 0 0 w ∧ storesAt op 0 false = true ∧ loadable w.ty (view s (vSlot w) false).fmt = true ∧ (view s (vSlot w) false).fmt = 0 ∧
        w.ty ≠ 1 ∧ vSeg w = 1024 ∧ viewed s (vSlot w) false = true := by unfold vxAt; decide +kernel
  intro op ho
  obtain ⟨ha, hs, hl, hf, ht, hv, hw⟩ := h op ho
  refine ⟨ha, storesAt_clean hs, view_of hw, storesAt_open hs, hl, hf, ht, fun p hp => ?_, fun p hp => ?_, fun p hp => ?_⟩
  · exact storesAt_positions hs rfl ht hv (.inl (of_lanes hp))
  · exact storesAt_positions hs rfl ht hv (.inr (.inl (of_lanes hp)))
  · exact storesAt_positions hs rfl ht hv (.inr (.inr (.inl (of_lanes hp))))

/-- Every lane in its place, at the last element and at the first row: the stores that convert, the grouped stores, and the masks. -/
theorem witness_StoreForms :
    (∀ op ∈ [0x61, 0x65, 0x66],
      let s := atMem (memAll op 0)
      let w := vdecode (memAll op 0)
      let v := view s (vSlot w) true
      let k := s.dies[(0 : DieId)].vx[(1 : Fin 2)]
      vxAt s 0 1 op 0 0 w ∧ clean s ∧ slotView s 0 0 (vSlot w) true = .ok v ∧ viewOpen 0 v true s ∧ storable w.ty v.fmt = true ∧ w.ty ≠ 1 ∧
        (∀ p ∈ lanesOf (active k w) true (segPos k w), inView v 1 p = true) ∧
        (∀ p ∈ lanesOf (active k w) true (idxPos k w), inView v 1 p = true) ∧ ∀ p ∈ packPos k w, inView v 1 p = true) ∧
    (∀ e ∈ [(0x62, 1), (0x63, 2)],
      let s := atMem (memAll e.1 e.2)
      let w := vdecode (memAll e.1 e.2)
      let v := view s (vSlot w) true
      let b := vIdx s.dies[(0 : DieId)].vx[(1 : Fin 2)] (vPair w)
      vxAt s 0 1 e.1 0 0 w ∧ clean s ∧ slotView s 0 0 (vSlot w) true = .ok v ∧ viewOpen 0 v true s ∧ v.t.gcode ≠ 0 ∧ v.t.fmt ≠ 6 ∧
        b.1 % v.t.g = 0 ∧ vSeg w % v.t.g = 0 ∧ w.va + v.t.g / 4 ≤ 64 ∧
        (∀ q : Nat, q < 1024 / vSeg w → inView v (vSeg w) ⟨0, b.2 + q, b.1⟩ = true) ∧
        ∀ q : Nat, q < 256 → inView v v.t.g ⟨0, b.2 + q, b.1⟩ = true) ∧
    ∀ e ∈ [(0x6A, true), (0x69, false)],
      let s := atMem (memAll e.1 3)
      let w := vdecode (memAll e.1 3)
      let v := view s (vSlot w) e.2
      let k := s.dies[(0 : DieId)].vx[(1 : Fin 2)]
      vxAt s 0 1 e.1 0 0 w ∧ clean s ∧ maskView s 0 1 0 w e.2 = .ok v ∧ viewOpen 0 v e.2 s ∧
        ∀ p ∈ lanesOf (active k w) true (maskPos k w), inView v 1 p = true := by
  have h1 : ∀ op ∈ [0x61, 0x65, 0x66], let s := atMem (memAll op 0)
      let w := vdecode (memAll op 0)
      vxAt s 0 1 op 0 0 w ∧ storesAt op 0 true = true ∧ storable w.ty (view s (vSlot w) true).fmt = true ∧ w.ty ≠ 1 ∧ vSeg w = 1024 ∧
        viewed s (vSlot w) true = true := by unfold vxAt; decide +kernel
  have h2 : ∀ e ∈ [(0x62, 1), (0x63, 2)], let s := atMem (memAll e.1 e.2)
      let w := vdecode (memAll e.1 e.2)
      let v := view s (vSlot w) true
      vxAt s 0 1 e.1 0 0 w ∧ storesAt e.1 e.2 true = true ∧ viewed s (vSlot w) true = true ∧ v.t.gcode = 1 ∧ v.t.fmt ≠ 6 ∧ w.va = 1 ∧
        vSeg w = 1024 := by unfold vxAt; decide +kernel
  have h3 : ∀ e ∈ [(0x6A, true), (0x69, false)], let s := atMem (memAll e.1 3)
      let w := vdecode (memAll e.1 3)
      vxAt s 0 1 e.1 0 0 w ∧ storesAt e.1 3 e.2 = true ∧ masked s w e.2 = true ∧ w.ty ≠ 1 ∧ vSeg w = 1024 := by unfold vxAt; decide +kernel
  refine ⟨fun op ho => ?_, fun e he => ?_, fun e he => ?_⟩
  · obtain ⟨ha, hs, hst, ht, hv, hw⟩ := h1 op ho
    refine ⟨ha, storesAt_clean hs, view_of hw, storesAt_open hs, hst, ht, fun p hp => ?_, fun p hp => ?_, fun p hp => ?_⟩
    · exact storesAt_positions hs rfl ht hv (.inl (of_lanes hp))
    · exact storesAt_positions hs rfl ht hv (.inr (.inl (of_lanes hp)))
    · exact storesAt_positions hs rfl ht hv (.inr (.inr (.inl hp)))
  · obtain ⟨ha, hs, hw, hg, h6, hva, hv⟩ := h2 e he
    have hg32 : (view (atMem (memAll e.1 e.2)) (vSlot (vdecode (memAll e.1 e.2))) true).t.g = 32 := by rw [Tensor.g, hg]; rfl
    have hr := hs
    simp only [storesAt, Bool.and_eq_true, beq_iff_eq] at hr
    have hb := hr.1.2
    refine ⟨ha, storesAt_clean hs, view_of hw, storesAt_open hs, by omega, h6, by rw [hb, hg32]; rfl, by rw [hv, hg32], by rw [hva, hg32]; omega,
      fun q hq => ?_, fun q hq => ?_⟩
    · rw [hv] at hq
      rw [hb, hv]
      exact roomy_inView hr.1.1.2 (by simp) (by simp; omega) (by simp) (by simp)
    · rw [hb, hg32]
      exact roomy_inView hr.1.1.2 (by simp) (by simp; omega) (by simp) (by simp)
  · obtain ⟨ha, hs, hm, ht, hv⟩ := h3 e he
    exact ⟨ha, storesAt_clean hs, maskView_of hm, storesAt_open hs, fun p hp => storesAt_positions hs rfl ht hv (.inr (.inr (.inr (of_lanes hp))))⟩

/-- A RUN task that vector engine 0 is about to take. -/
def atRun : State := graph 0 1 0 (task 0 [(2, 1, 6), (4, 2, 1)]) up

theorem witness_VldaccAndVrand : 
    let w := vdecode (word 0x68 3 0 0 0 0 false)
    let s := engine 0 0 [word 0x68 3 0 0 0 0 false, 0] 0 id (graph 0 1 1 (task 0 [(2, 1, 6), (4, 2, 1), (32, 4, 0x30000), (66, 2, 1)] ++ tensor 0 0 0 0) up)
    vxAt s 0 0 0x68 0 0 w ∧ bit ((readTask s (img s 0) 0).p 66 2) 0 = true ∧ 0 ≤ (aget s.dies[0].vx[0] 1).toInt ∧
      (aget s.dies[0].vx[0] 1).toInt + 3 ≤ 255 ∧ rankArray s 0 (bits w.imm 21 3) = some 0 ∧ (readTask s (img s 0) 0).role (vSlot w) ≠ 0 ∧
      (activeImg s 0).isSome = true := by
  unfold vxAt; decide +kernel

/-- A loop with one instruction in its body, and the end. -/
def looped (n pc : Nat) (l : List (Nat × Nat)) : State :=
  engine 2 1 [word 0x02 0 0 0 0 n false, word 0x00 0 0 0 0 0 false, word 0x03 0 0 0 0 0 false, word 0x01 0 0 0 0 0 false] pc (fun k => { k with loops := l }) up

theorem witness_Loops :
    (∀ n ∈ [0, 1], let s := looped n 0 []
      vxAt s 2 1 0x02 0 0 (vdecode (word 0x02 0 0 0 0 n false)) ∧ matchEndl s.dies[2].prog 0 = some 2 ∧ 2 + 1 < s.dies[2].prog.length) ∧
    (∀ n ∈ [1, 2], let s := looped 2 2 [(1, n)]
      vxAt s 2 1 0x03 0 2 (vdecode (word 0x03 0 0 0 0 0 false)) ∧ s.dies[2].vx[1].loops = [(1, n)] ∧ 1 < s.dies[2].prog.length) ∧
    (let s := engine 2 1 [word 0x01 0 0 0 0 0 false] 0 id up
     s.stw.halt = .none ∧ dieUp s 2 = true ∧ clean s ∧ s.dies[(2 : DieId)].vx[(1 : Fin 2)].trunkErr = 0 ∧ vxNext s 2 1 = some (0, 0, vdecode (word 0x01 0 0 0 0 0 false)) ∧ (vdecode (word 0x01 0 0 0 0 0 false)).op = 0x01 ∧
       (forUntil (fun u s => trunkWriteWord 2 u s)
         (s.dies[2].trunk.filter fun u => u.vx == 1 && u.serial == s.dies[(2 : DieId)].vx[(1 : Fin 2)].serial) s).2 = eOK) :=
  ⟨by unfold vxAt; decide +kernel, by unfold vxAt; decide +kernel, by unfold clean; decide +kernel⟩

/-! ### Witnesses: power, temperature and scan -/

theorem witness_TripAndTestAccess : up.stw.halt = .none ∧ (stw (fun x => { x with tripPend := some (3, 15) }) up).stw.tripPend = some (3, 15) ∧
    255 < 256 ∧ 255 ∉ [0x00, 0x01, 0x02, 0x04, 0x05] := by decide +kernel

/-- A control interval with `n` samples of sum `sum`, at cap rate `rate`, every die at `hot` degrees. -/
def capAt (sum n rate hot : Nat) : State :=
  stw (fun x => { x with psum := sum, pcnt := n })
    (sets ((pgPCAP, PCAP_STATE_RATE, rate) :: (List.finRange 4).map fun d => (pgPWR d, PWR_STATE_HOT, hot)) up)

/-- The four cases of R468: above the target to rate 1, hot, cool with room, and neither. -/
theorem witness_CapRate : (∀ s ∈ [capAt 500000 2 5 50, capAt 4000 2 30 110, capAt 4000 2 30 50, capAt 6400 2 30 50], s.stw.halt ≠ .off ∧ s.stw.pcnt ≠ 0) ∧
    gf up pgTRAY CTRL_FREEZE = 0 ∧ (sget zt up.tally (pgTRAY + 3)).count.toNat + 1 < 2 ^ 48 ∧
    gf (capAt 500000 2 5 50) pgPCAP PCAP_CAP_V * 2 < 500000 ∧
    gf (capAt 4000 2 30 110) pgPCAP PCAP_THERM_THERM_LIMIT ≤ hotDie (capAt 4000 2 30 110) ∧
    (let s := capAt 4000 2 30 50
     4000 < (gf s pgPCAP PCAP_CAP_V - gf s pgPCAP PCAP_CTL_HYST_W) * 2 ∧ hotDie s + 2 < gf s pgPCAP PCAP_THERM_THERM_LIMIT ∧
       hotStack s + 2 < gf s pgPCAP PCAP_THERM_STACK_LIMIT) := by decide +kernel

theorem witness_Sensors : up.stw.halt = .none ∧ dieLive up 3 = true ∧ (List.replicate 16 (800 : Int)).length = 16 ∧ runs up 3 ∧ liveDies up ≠ [] := by
  unfold runs; decide +kernel

theorem witness_BrakeAndCoolant :
    (up.stw.halt ≠ .off ∧ gf up pgPCAP PCAP_STATE_BRAKED = 0 ∧ gf up pgTRAY TRAY_STOP_STOPPED = 0) ∧
    let s := sets [(pgTRAY, TRAY_STOP_STOPPED, 1), (pgTRAY, TRAY_STOP_OK_STABLE, 1)] up
    mayWrite .host (pgTRAY + 0x108) 1 s ∧ gf s pgTRAY TRAY_STOP_STOPPED = 1 ∧ gf s pgTRAY TRAY_STOP_OK_STABLE = 1 :=
  ⟨by decide +kernel, mayWrite_of (by decide +kernel), by decide +kernel, by decide +kernel⟩

/-- Each state at the latency that reaches it and just below the next. -/
theorem witness_Idle :
    (∀ e ∈ [(1, 1), (1, 49), (2, 50), (2, 1999), (3, 2000), (3, 39999), (4, 40000), (4, 65535)], let s := sets [(pgPCAP, PCAP_LTR_V, e.2)] up
      s.stw.halt = .none ∧ isIdle s = true ∧ pState s = 0 ∧ 0 < e.1 ∧ e.1 ≤ 4 ∧ [0, 1, 50, 2000, 40000].getD e.1 0 ≤ gf s pgPCAP PCAP_LTR_V ∧
        (e.1 < 4 → gf s pgPCAP PCAP_LTR_V < [0, 1, 50, 2000, 40000].getD (e.1 + 1) 0)) ∧
    ∀ st ∈ [1, 2, 4], let s := stw (fun x => { x with waking := true }) (setPState st up)
      pState s ≠ 0 ∧ stopped s = false ∧ s.stw.waking = true ∧ s.stw.halt = .none := by decide +kernel

/-! ### Witnesses: boot, configuration and security -/

/-- What a power-on finds: nothing wrong, `bad` fuses or not. -/
def env (bad : Bool) : BootEnv := { State.reset.stw.env with fuseBad := bad }

/-- With erased flash no slot passes; that one does rests on the uninterpreted signatures and is no closed fact of the model. -/
theorem witness_PowerOn : (env true).fuseBad = true ∧ (env false).fuseBad = false ∧ bootSlot up = none ∧
    ∃ d : DieId, ∀ x ∈ (env false).checkerFail, x.1 ≠ d.val := by decide +kernel

/-- A package in the DIES stage that waits for dies 1 and 2. -/
def waiting : State := sets [(pgBOOT, BOOT_STAT_STAGE, 3), (pgHTSof 1, HTS_DIE_STATE, 1), (pgHTSof 2, HTS_DIE_STATE, 1)] State.reset

theorem witness_SamplesAndReports :
    (waiting.stw.halt = .none ∧ dieUp waiting 1 = true ∧ gf waiting (pgHTSof 1) HTS_DIE_STATE = 1 ∧ waiting.stw.straps[(1 : DieId)].length < 2) ∧
    (∀ e ∈ [(3, 3), (0, 3)], let s := stw (fun x => { x with straps := x.straps.set 1 [e.1, e.2] }) waiting
      s.stw.halt = .none ∧ dieUp s 1 = true ∧ gf s (pgHTSof 1) HTS_DIE_STATE = 1 ∧ s.stw.straps[(1 : DieId)] = [e.1, e.2] ∧ e.1 < 4 ∧ e.2 < 4) ∧
    (waiting.stw.halt ≠ .off ∧ gf waiting pgBOOT BOOT_STAT_STAGE = 3 ∧ (∀ x ∈ waiting.stw.reports, x.1 ≠ 1 ∧ x.2 ≠ 1) ∧ (2 : Fin 4) ≠ 1) ∧
    let s := sets [(pgHTSof 2, HTS_DIE_STATE, 0)] waiting
    gf s (pgHTSof 1) HTS_DIE_STATE = 1 ∧ ∀ d : DieId, d ≠ 1 → gf s (pgHTSof d) HTS_DIE_STATE ≠ 1 := by decide +kernel

theorem witness_Fills :
    let s := stw (fun x => { x with reports := [(1, 1)] }) (sets [(pgHTSof 2, HTS_DIE_STATE, 0)] waiting)
    s.stw.halt = .none ∧ dieUp s 1 = true ∧ gf s (pgHTSof 1) HTS_DIE_STATE = 1 ∧ gf s (pgINTEG 1) INTEG_STAT_FILL_DONE = 0 ∧
      gf s pgBOOT BOOT_STAT_STAGE = 3 ∧ (∃ x ∈ s.stw.reports, x.1 = 1) ∧
      (∀ h : DieId, h ≠ 1 → gf s (pgHTSof h) HTS_DIE_STATE = 1 → dieReady s h = true) ∧ up.stw.halt ≠ .off := by decide +kernel

theorem witness_FlashCommands :
    (∀ len ∈ [8192, 15728640], let s := sets [(pgBOOT, BOOT_STAT_SLOT, 1), (pgCFG, CFG_LEN_V, len)] up
      gf s pgCFG CFG_STAT_BUSY = 0 ∧ gf s pgBOOT BOOT_STAT_SLOT ≠ 0 ∧ 8192 ≤ gf s pgCFG CFG_LEN_V ∧ gf s pgCFG CFG_LEN_V ≤ 15728640 ∧
        ∀ op ∈ [1, 2, 3], mayWrite .host (pgCFG + 0x100) (setFld (setFld 0 CFG_CMD_OP op) CFG_CMD_SLOT 0) s) ∧
    ∀ op ∈ [1, 2, 3], let j : CfgJob := ⟨op, 1, 0, 0xF00000⟩
      let s := stw (fun x => { x with cfgJob := some j }) up
      s.stw.halt ≠ .off ∧ s.stw.cfgJob = some j ∧ j.slot < 2 ∧ j.len ≤ 0xF00000 ∧ 1 ≤ j.op ∧ j.op ≤ 3 := by
  refine ⟨fun len hl => ⟨?_, ?_, ?_, ?_, fun op ho => mayWrite_of ?_⟩, by decide +kernel⟩
  · revert len; decide +kernel
  · revert len; decide +kernel
  · revert len; decide +kernel
  · revert len; decide +kernel
  · revert len op; decide +kernel

theorem witness_Security :
    (mayWrite .host (pgSEC + 0x110) 1 up ∧ gf up pgSEC SEC_ATT_CTRL_BUSY = 0 ∧ lmsIndex up < 2 ^ 20) ∧
    (let s := stw (fun x => { x with lmsA := some (2 ^ 20) }) up
     mayWrite .host (pgSEC + 0x110) 1 s ∧ gf s pgSEC SEC_ATT_CTRL_BUSY = 0 ∧ 2 ^ 20 ≤ lmsIndex s) ∧
    (let s := stw (fun x => { x with att := some [1, 2, 3] }) up
     s.stw.halt ≠ .off ∧ s.stw.att = some [1, 2, 3] ∧ gf s (pgQ 2) Q_CTRL_EN = 0) ∧
    (let s := sets [(pgSEC, SEC_SVN_SVN, 63)] up
     mayWrite .host (pgSEC + 0x10C) (BitVec.ofNat 32 63) s ∧ s.stw.floor < 63 ∧ 63 ≤ gf s pgSEC SEC_SVN_SVN) ∧
    mayWrite .host (pgBOOT + 0x118) 1 up ∧ mayWrite .host (pgBOOT + 0x118) 2 up ∧
    (∀ d ∈ liveDies up, gf up (pgTICK d) TICK_CTRL_EN = 0) ∧ gf up pgBOOT BOOT_STAT_STAGE ≠ 6 ∧ bootSlot up = none :=
  ⟨⟨mayWrite_of (by decide +kernel), by decide +kernel⟩, ⟨mayWrite_of (by decide +kernel), by decide +kernel⟩, by decide +kernel,
    ⟨mayWrite_of (by decide +kernel), by decide +kernel⟩, mayWrite_of (by decide +kernel), mayWrite_of (by decide +kernel), by decide +kernel⟩

/-! ### Witnesses: registers and the host interface -/

theorem witness_Registers :
    (pageOk (pgTICK 3) = true ∧ mayWrite .host (pgTICK 3 + 0x1C) 1 up) ∧
    (∀ a ∈ [0x5000000, 0x7FFFFFF], 0x5000000 ≤ a ∧ a < 0x8000000 ∧ up.stw.halt ≠ .off ∧ gf up pgHOST CTRL_FREEZE = 0 ∧
      (sget zt up.tally (pgHOST + 5)).count.toNat + 1 < 2 ^ 48) ∧
    (∃ l, reqActs up (.cc 0) = true ∧ wakesBy (.cc 0) (pgCC 0 + 0x3F8) up = false ∧ checkAccess (.cc 0) (pgCC 0 + 0x3F8) 4 false up = .ok l ∧
      l.lo = true ∧ l.off ≠ 0x150 ∧ (readEffect l up).2 = eOK) ∧
    (∃ l, reqActs up .host = true ∧ wakesWrite .host (pgCC 0 + 0x200) 0 up = false ∧ up.stw.csJob = none ∧
      checkAccess .host (pgCC 0 + 0x200) 4 true up = .ok l ∧ l.lo = true ∧ l.spec.rw ≠ 0 ∧ loGate up .host l = eOK) ∧
    ∀ n ∈ [0, 63], mayWrite .host (pgCC 0 + 0x204 + 8 * n) 5 up ∧ gf up (pgTICK 0) TICK_CTRL_EN = 0 := by
  refine ⟨⟨by decide, mayWrite_of (by decide +kernel)⟩, by decide +kernel, ?_, ?_, fun n hn => ⟨mayWrite_of ?_, by decide +kernel⟩⟩
  · exact ⟨(loc? (.cc 0) (pgCC 0 + 0x3F8) 4 false up).get (by decide +kernel), by decide +kernel, by decide +kernel, loc?_ok (by simp), by decide +kernel⟩
  · exact ⟨(loc? .host (pgCC 0 + 0x200) 4 true up).get (by decide +kernel), by decide +kernel, by decide +kernel, by decide +kernel,
      loc?_ok (by simp), by decide +kernel⟩
  · revert n; decide +kernel

theorem witness_PagesAndFences :
    (pageOk (pgMXof 2 6) = true ∧ mayWrite .host (pgMXof 2 6 + 0x20) 1 up ∧ bit (selOf up .host (pgMXof 2 6 + 0x28)).toNat 8 = false ∧
      mayWrite .host (pgMXof 2 6 + 0x30) 0x80000000 up ∧ mayWrite .host (pgMXof 2 6 + 0x0C) (rd up (pgMXof 2 6 + 0x0C) ||| 4) up ∧
      mayWrite .host (pgMXof 2 6 + LAST_ERR_V.off) 0x80000000 up) ∧
    (∀ en ∈ [0, 1], let s := sets [(pgTICK 1, TICK_CTRL_EN, en)] up
      pgVXof 1 0 ∈ fencePages 1 ∧ mayWrite .host (pgVXof 1 0 + FENCE_REQ.off) (BitVec.ofNat 32 (b2n true)) s ∧
        gf s (pgVXof 1 0) FENCE_FENCED ≠ b2n true ∧ gf s (pgTICK 1) TICK_CTRL_EN = en) ∧
    ∀ en ∈ [0, 1], let s := sets [(pgTICK 1, TICK_CTRL_EN, en), (pgVXof 1 0, FENCE_REQ, 1), (pgVXof 1 0, FENCE_FENCED, 1)] up
      mayWrite .host (pgVXof 1 0 + FENCE_REQ.off) (BitVec.ofNat 32 (b2n false)) s ∧ gf s (pgVXof 1 0) FENCE_FENCED ≠ b2n false ∧
        unitReady s (pgVXof 1 0) = true ∧ inService s (pgVXof 1 0) = false := by
  refine ⟨⟨by decide, mayWrite_of (by decide +kernel), by decide +kernel, mayWrite_of (by decide +kernel), mayWrite_of (by decide +kernel),
    mayWrite_of (by decide +kernel)⟩, fun en he => ⟨by decide +kernel, mayWrite_of ?_, ?_⟩, fun en he => ⟨mayWrite_of ?_, ?_⟩⟩
  all_goals revert en; decide +kernel

/-- Queue `q` enabled after negotiation, with PROD 20, RD 15, MARK 12 and REL 10. -/
def queued (q : Nat) : State :=
  sets [(pgHOST, HOST_NEG_NEGOTIATED, 1), (pgHOST, HOST_NEG_MINOR, 1), (pgQ q, Q_CTRL_EN, 1), (pgQ q, Q_CFG_SIZE, 16), (pgQ q, Q_PROD_LO_V, 20),
    (pgQ q, Q_RD_LO_V, 15), (pgQ q, Q_MARK_LO_V, 12), (pgQ q, Q_REL_LO_V, 10), (pgQ q, Q_IRQ_EN, 1)] up

theorem witness_Negotiation :
    (∀ v : W, v ∈ ([0x100, 0x101] : List W) → mayWrite .host (pgHOST + 0x104) v up ∧ v.toNat / 256 % 256 = 1 ∧ v.toNat % 256 ≤ 1) ∧
    (∀ q, q < 32 → isFeed q = false → gf up (pgQ q) Q_CTRL_EN = 0) ∧
    let s := sets [(pgHOST, HOST_NEG_NEGOTIATED, 1), (pgHOST, HOST_NEG_MINOR, 1)] up
    mayAsk .host (pgQ 7) Q_CTRL_EN (b2n true) [Q_CTRL_MIRROR] s ∧ mayAsk .host (pgQ 31) Q_CTRL_EN (b2n false) [Q_CTRL_MIRROR] s ∧
      isFeed 7 = false ∧ gf s pgHOST HOST_NEG_NEGOTIATED = 1 ∧ gf s (pgQ 7) Q_CTRL_EN = 0 := by
  refine ⟨fun v hv => ⟨mayWrite_of ?_, ?_⟩, by decide +kernel, mayAsk_of (by decide +kernel), mayAsk_of (by decide +kernel), by decide +kernel⟩
  all_goals simp only [List.mem_cons, List.not_mem_nil, or_false] at hv; obtain rfl | rfl := hv
  all_goals decide +kernel

theorem witness_QueuePositions : ∀ q : Fin 32, q ∈ ([1, 15] : List (Fin 32)) →
    (∀ f ∈ [Q_CTRL_MARK, Q_CTRL_REWIND], mayAsk .host (pgQ q) f 1 [Q_CTRL_EN, Q_CTRL_MIRROR] (queued q) ∧
      qCtrlCheck (queued q) q (setFld (keeping (queued q) (pgQ q) [Q_CTRL_EN, Q_CTRL_MIRROR]) f 1).toNat = eOK) ∧
    (q = 15 → isFeed q = true ∧ mayAsk .host (pgQ q) Q_CTRL_TRUNCATE 1 [Q_CTRL_EN, Q_CTRL_MIRROR] (queued q) ∧
      qCtrlCheck (queued q) q (setFld (keeping (queued q) (pgQ q) [Q_CTRL_EN, Q_CTRL_MIRROR]) Q_CTRL_TRUNCATE 1).toNat = eOK) ∧
    (q = 1 → isFeed q = false ∧ reqActs (queued q) .host = true ∧ (queued q).stw.csJob = none ∧ pState (queued q) = 0 ∧
      (∃ l, checkAccess .host (pgQ q + 0x128) 4 true (queued q) = .ok l) ∧ (∃ l, checkAccess .host (pgQ q + 0x138) 4 true (queued q) = .ok l) ∧
      qMark (queued q) q ≤ 20 ∧ 20 ≤ qProd (queued q) q ∧ qRel (queued q) q ≤ 15 ∧ 15 ≤ qRd (queued q) q) := by
  intro q hq
  simp only [List.mem_cons, List.not_mem_nil, or_false] at hq
  obtain rfl | rfl := hq
  · refine ⟨fun f hf => ⟨mayAsk_of ?_, ?_⟩, fun h => absurd h (by decide), fun _ => ⟨by decide, by decide +kernel, by decide +kernel, by decide +kernel,
      ok_of_isSome (by decide +kernel), ok_of_isSome (by decide +kernel), by decide +kernel⟩⟩
    all_goals revert f; decide +kernel
  · refine ⟨fun f hf => ⟨mayAsk_of ?_, ?_⟩, fun _ => ⟨by decide, mayAsk_of (by decide +kernel), by decide +kernel⟩, fun h => absurd h (by decide)⟩
    all_goals revert f; decide +kernel

theorem witness_DoorbellsAndPops :
    (mayWrite .host (pgQ 0 + 0x148) 6 (queued 0) ∧ qProd (queued 0) 0 + 6 ≤ qRel (queued 0) 0 + gf (queued 0) (pgQ 0) Q_CFG_SIZE) ∧
    (mayWrite .host (pgQ 7 + 0x148) 5 (queued 7) ∧ 5 ≤ qProd (queued 7) 7 - qRd (queued 7) 7) ∧
    (∃ l, checkAccess .host (pgQ 7 + 0x150) 4 false (queued 7) = .ok l) ∧ reqActs (queued 7) .host = true ∧ pState (queued 7) = 0 ∧
    qRd (queued 7) 7 < qProd (queued 7) 7 ∧ (queued 7).stw.halt ≠ .off ∧ gf (queued 7) (pgQ 7) Q_IRQ_EN = 1 ∧
    (queued 7).queues[(7 : Fin 32)].irqSent = false :=
  ⟨⟨mayWrite_of (by decide +kernel), by decide +kernel⟩, ⟨mayWrite_of (by decide +kernel), by decide +kernel⟩, ok_of_isSome (by decide +kernel),
    by decide +kernel⟩

/-- The submission and completion queues enabled, with entry `bs` (R426) in execution. -/
def inCmd (bs : List Byte) : State :=
  stw (fun x => { x with cmd := some ⟨bs⟩ })
    (sets [(pgQ 0, Q_CTRL_EN, 1), (pgQ 0, Q_CFG_SIZE, 16), (pgQ 0, Q_PROD_LO_V, 20), (pgQ 0, Q_RD_LO_V, 15), (pgQ 0, Q_REL_LO_V, 10),
      (pgQ 0, Q_BASE_LO_V, 0x1000), (pgQ 1, Q_CTRL_EN, 1), (pgQ 1, Q_CFG_SIZE, 8), (pgQ 1, Q_BASE_LO_V, 0x8000)] up)

/-- A submission entry: opcode, argument, addresses and length (R426). -/
def entryOf (op arg haddr daddr len : Nat) : List Byte :=
  leBytes 1 op ++ leBytes 1 arg ++ leBytes 2 0 ++ leBytes 4 77 ++ leBytes 8 haddr ++ leBytes 8 daddr ++ leBytes 8 len ++ List.replicate 32 0

/-- What `completed` asks of the rings. -/
theorem witness_Submissions :
    (let s := stw (fun x => { x with cmd := none }) (inCmd [])
     s.stw.halt ≠ .off ∧ gf s pgBOOT BOOT_STAT_STAGE = 4 ∧ s.stw.cmd = none ∧ gf s (pgQ 0) Q_CTRL_EN = 1 ∧ gf s (pgQ 1) Q_CTRL_EN = 1 ∧
       qRd s 0 < qProd s 0 ∧ 2 ≤ qFree s 1 ∧ gf s (pgQ 2) Q_CTRL_EN = 0 ∧ qDrops s 1 = 0 ∧ qDrops s 0 = 0 ∧ rd64 s (pgQ 1 + Q_SHADOW_LO_V.off) = 0 ∧
       Cmd.opcode ⟨hostPeek s (rd64 s (pgQ 0 + Q_BASE_LO_V.off) + qRd s 0 % max 1 (gf s (pgQ 0) Q_CFG_SIZE) * 64) 64⟩ ≤ 4) ∧
    (let c : Cmd := ⟨entryOf 0 0 0 0 0⟩
     c.opcode = 0 ∧ c.formOk = true ∧ c.arg = 0 ∧ (inCmd c.bytes).stw.cmd = some c) ∧
    ∀ bs ∈ [leBytes 1 1 ++ leBytes 1 1 ++ leBytes 2 0 ++ leBytes 4 9 ++ leBytes 4 (pgTICK 0 + 0x1C) ++ leBytes 4 1 ++ List.replicate 48 0],
      let c : Cmd := ⟨bs⟩
      c.opcode = 1 ∧ c.formOk = true ∧ 1 ≤ c.arg ∧ c.arg ≤ 7 ∧ (pairs c 0 c.arg (inCmd bs)).1.stw.cmd = some c := by decide +kernel

theorem witness_HostBytes :
    (∀ op ∈ [2, 3], let c : Cmd := ⟨entryOf op 0 0x40003 0x10045 200⟩
      let s := inCmd c.bytes
      s.stw.halt = .none ∧ pState s = 0 ∧ stopped s = false ∧ s.errs = [] ∧ s.stw.cmd = some c ∧ c.opcode = op ∧ c.formOk = true ∧ c.arg = 0 ∧ 1 ≤ c.len ∧
        c.len < 2 ^ 40 ∧ accessCheck .host c.daddr c.len (op == 2) s = eOK ∧ gf s (pgQ 2) Q_CTRL_EN = 0 ∧ qDrops s 0 = 0 ∧ qDrops s 1 = 0 ∧
        rd64 s (pgQ 1 + Q_SHADOW_LO_V.off) = 0) ∧
    (accessCheck .host (bar2Addr up 0) 1 true up = eOK ∧ accessCheck .host (bar2Addr up 0) 64 false up = eOK ∧ up.errs = [] ∧ stopped up = false) ∧
    (∃ l, pgTICK 0 + 0x110 < 0x5000000 ∧ checkAccess .host (pgTICK 0 + 0x110) 4 false up = .ok l ∧ l.kind ≠ .queue ∧ (readEffect l up).2 = eOK) := by
  refine ⟨by decide +kernel, by decide +kernel, (loc? .host (pgTICK 0 + 0x110) 4 false up).get (by decide +kernel), by decide, loc?_ok (by simp), by decide +kernel⟩

theorem witness_FeedPush :
    let c : Cmd := ⟨entryOf 4 0 0x40000 0 100⟩
    let s := sets [(pgQ 8, Q_CTRL_EN, 1), (pgQ 8, Q_CFG_SIZE, 4), (pgQ 8, Q_BASE_LO_V, 0x20000)] (inCmd c.bytes)
    s.stw.halt = .none ∧ pState s = 0 ∧ stopped s = false ∧ clean s ∧ s.stw.cmd = some c ∧ c.opcode = 4 ∧ c.formOk = true ∧ c.arg ≤ 7 ∧ gf s (pgQ 8) Q_CTRL_EN = 1 ∧
      c.len + 64 ≤ feedSlotSize s 8 ∧ dieLive s (feedHome s 8) = true ∧ qDrops s 8 = 0 ∧ 2 ≤ qFree s 8 ∧
      isStore (feedAddr s 8 (qProd s 8)) = false ∧ accessCheck .steward (feedAddr s 8 (qProd s 8)) (c.len + 64) true s = eOK := by unfold clean; decide +kernel

/-! ### Witnesses: service, management and link ports -/

theorem witness_Service :
    (let s := sets [(pgMXof 0 0, FENCE_REQ, 1), (pgMXof 0 0, FENCE_FENCED, 1)] up
     let n := pgMXof 0 0 / 0x1000
     n < 2 ^ 12 ∧ pageAt (pgMXof 0 0) = some (.mx, 0) ∧ PageKind.mx.caps.2.2 = true ∧
       mayWrite .host (pgSVC 0 + 0x100) (BitVec.ofNat 32 (n + 1 * 2 ^ 12)) s ∧ gf s (pgSVC 0) SVC_STAT_BUSY = 0 ∧ stopped s = false ∧
       gf s (pgMXof 0 0) FENCE_FENCED = 1 ∧ gf s (pgMXof 0 0) FENCE_DRAINING = 0) ∧
    (let p := pgSWof 0 0
     let s := sets [(p, FENCE_REQ, 1), (p, FENCE_FENCED, 1), (peerSide p, FENCE_FENCED, 1)] up
     let n := p / 0x1000
     n < 2 ^ 12 ∧ pageAt p = some (.sw, 0) ∧ gf s (peerSide p) FENCE_FENCED = 1 ∧
       mayWrite .host (pgSVC 0 + 0x100) (BitVec.ofNat 32 (n + 2 * 2 ^ 12)) s ∧ gf s (pgSVC 0) SVC_STAT_BUSY = 0 ∧ stopped s = false ∧
       gf s p FENCE_FENCED = 1 ∧ gf s p FENCE_DRAINING = 0) ∧
    (∀ used ∈ [3, 4], let p := pgMXof 3 6
      let s := sets [(pgSVC 3, SVC_STAT_BUSY, 1), (pgSVC 3, SVC_STAT_OP, 1), (pgSVC 3, SVC_STAT_PAGE_NUM, p / 0x1000 % 2 ^ 12), (p, MX_ROWS_USED, used)] up
      runs s 3 ∧ gf s (pgSVC 3) SVC_STAT_BUSY = 1 ∧ 3 * 0x1000000 + gf s (pgSVC 3) SVC_STAT_PAGE_NUM * 0x1000 = p ∧ pageAt p = some (.mx, 6) ∧
        (4 < gf s p MX_ROWS_USED + ([255] : List Nat).length ↔ used = 4)) ∧
    ∀ op ∈ [1, 2], let s := sets [(pgSVC 3, SVC_STAT_BUSY, 1), (pgSVC 3, SVC_STAT_OP, op), (pgSVC 3, SVC_STAT_PAGE_NUM, pgRE 3 / 0x1000 % 2 ^ 12)] up
      runs s 3 ∧ gf s (pgSVC 3) SVC_STAT_BUSY = 1 ∧ gf s (pgSVC 3) SVC_STAT_OP = op ∧
        pageAt (3 * 0x1000000 + gf s (pgSVC 3) SVC_STAT_PAGE_NUM * 0x1000) = some (.re, 0) := by
  refine ⟨⟨by decide +kernel, by decide +kernel, by decide +kernel, mayWrite_of (by decide +kernel), by decide +kernel⟩,
    ⟨by decide +kernel, by decide +kernel, by decide +kernel, mayWrite_of (by decide +kernel), by decide +kernel⟩, by unfold runs; decide +kernel,
    by unfold runs; decide +kernel⟩

/-- That a slot's firmware passes rests on the uninterpreted signatures, so the witness of a control-store load takes it as given. -/
theorem witness_LoadsAndRecords :
    (∀ e ∈ [(2, 0), (3, 1)], let s := sets [(pgHTSof 3, HTS_DIE_STATE, e.1), (pgHTSof 3, HTS_DIE_LOSS_CAUSE, e.2)] up
      mayWrite .host (pgSSVC + 0x100) (setFld (setFld (setFld 0 CS_CMD_LOAD 1) CS_CMD_DIE 3) CS_CMD_SLOT 1) s ∧ gf s pgSSVC CS_STAT_BUSY = 0 ∧
        gf s pgCFG CFG_STAT_BUSY = 0 ∧ (∀ h ∈ liveDies s, gf s (pgTICK h) TICK_CTRL_EN = 0) ∧
        (gf s (pgHTSof 3) HTS_DIE_STATE = 2 ∨ gf s (pgHTSof 3) HTS_DIE_STATE = 3 ∧ gf s (pgHTSof 3) HTS_DIE_LOSS_CAUSE ≠ 3)) ∧
    (mayWrite .host (pgSSVC + 0x10C) 1 up ∧ gf up pgBOOT BOOT_STAT_STAGE = 4) ∧
    let s := sets [(pgSSVC, RMA_STAT_BUSY, 1)] up
    s.stw.halt ≠ .off ∧ gf s pgSSVC RMA_STAT_BUSY = 1 := by
  refine ⟨fun e he => ⟨mayWrite_of ?_, ?_⟩, ⟨mayWrite_of (by decide +kernel), by decide +kernel⟩, by decide +kernel⟩
  all_goals revert e; decide +kernel

theorem witness_Management :
    (mgmtOn up = true ∧ (gf up pgMGMT MGMT_CFG_PEC_REQ = 1 → true = true) ∧ (0x4FFFFFC : W).toNat < 0x5000000 ∧ (0x4FFFFFC : W).toNat % 4 = 0) ∧
    let s := sets [(pgMGMT, MGMT_ALERT_SEL_VR, 1), (pgMGMT, MGMT_VR_FAULT, 2)] up
    mgmtOn s = true ∧ alertLow s = true ∧ bit 8 3 = true ∧ bit (gf s pgMGMT MGMT_VR_FAULT) 3 = false := by decide +kernel

/-- Port `p` ACTIVE with full credits. -/
def active (p : PortId) (s : State) : State :=
  { sets [(pgLPof p, LP_STATE_STATE, 5), (pgLPof p, LP_CTRL_ENABLE, 1)] s with ports := s.ports.set p { s.ports[p] with credits := #v[16, 64, 96, 256] } }

/-- A flit of a message of its own. -/
def flit (seq : Nat) : Flit :=
  { payload := List.replicate 256 7, seq := seq, ack := 0, cls := 0, null := false, nak := false, first := true, last := true, hops := 1, kind := 2,
    cred := [0, 0, 0, 0], slice := 3, dst := 7, src := 9, flow := 4, epoch := 5, pgen := 6, oseq := 0, fo := false, orig := 0, use := .other }

theorem leBytes_length (n v : Nat) : (leBytes n v).length = n := by
  induction n generalizing v with
  | zero => rfl
  | succ n ih => simp [leBytes, ih]

theorem leNat_leBytes (n v : Nat) : leNat (leBytes n v) = v % 256 ^ n := by
  induction n generalizing v with
  | zero => simp [leBytes, leNat, Nat.mod_one]
  | succ n ih =>
    have h : (256 : Nat) ^ (n + 1) = 256 * 256 ^ n := Nat.pow_succ'
    rw [leBytes, leNat, ih, BitVec.toNat_ofNat, h, Nat.mod_mul]

theorem padTo_length (n : Nat) (bs : List Byte) : (padTo n bs).length = n := by simp [padTo]

/-- The bytes of a flit carry its CRC. -/
theorem flit_crc (f : Flit) : flitCrcOk f.bytes = true := by
  have hb : (padTo 256 f.payload ++ f.trailer).length = 284 := by simp [Flit.trailer, padTo_length, leBytes_length]
  have h : field f.bytes 284 4 = (crc32c (padTo 256 f.payload ++ f.trailer)).toNat := by
    simp only [field, Flit.bytes]
    rw [List.drop_left' hb, List.take_of_length_le (by simp [leBytes_length]), leNat_leBytes]
    exact Nat.mod_eq_of_lt (crc32c (padTo 256 f.payload ++ f.trailer)).isLt
  have ht : f.bytes.take 284 = padTo 256 f.payload ++ f.trailer := List.take_left' hb
  have hl : f.bytes.length = 288 := by simp only [Flit.bytes, List.length_append, leBytes_length]; simp only [List.length_append] at hb; omega
  simp [flitCrcOk, h, ht, hl]

theorem witness_Flits :
    let s := { active 15 up with ports := (active 15 up).ports.set 15 { (active 15 up).ports[15] with rxNext := 65535, replay := [⟨flit 0, 5⟩] } }
    flitCrcOk (flit 65535).bytes = true ∧ (runs s (portDie 15) ∧ portActive s 15 = true) ∧
    (∀ fec ∈ [Fec.clean, ⟨true, 64, 0, 0⟩], fec.lost + (s.ports[15].unc.filter fun t => decide (s.time - t < 1000000)).length ≤ 64) ∧
    (let f := readFlit (flit 65535).bytes
     flitFormOk (flit 65535).bytes = true ∧ f.null = false ∧ f.nak = false ∧ f.fo = false ∧ f.seq = s.ports[15].rxNext ∧ f.first = true ∧ f.last = true) ∧
    flitCrcOk [] = false ∧
    (s.ports[15].nakSeq = 0 ∧ 0 < s.ports[15].nakCount → s.ports[15].nakCount < gf s (pgLPof 15) LP_CFG_REPLAY_MAX) ∧
    0 < gf s (pgLPof 15) LP_CFG_REPLAY_MAX ∧ seqGe ((0 + 65535) % 65536) 0 = false := by
  refine ⟨flit_crc _, ?_⟩
  unfold runs; decide +kernel

/-- Port 13 in state `st`, enabled, with automatic retraining. -/
def lpAt (st : Nat) : State := sets [(pgLPof 13, LP_STATE_STATE, st), (pgLPof 13, LP_CTRL_ENABLE, 1), (pgLPof 13, LP_CTRL_AUTO_RETRAIN, 1)] up

theorem witness_Ports :
    (mayAsk .host (pgLPof 13) LP_CTRL_ENABLE 1 [LP_CTRL_AUTO_RETRAIN] up ∧ portState up 13 = 0 ∧ gf up (pgLPof 13) FENCE_REQ = 0) ∧
    mayAsk .host (pgLPof 13) LP_CTRL_ENABLE 0 [LP_CTRL_AUTO_RETRAIN] (lpAt 5) ∧
    (mayAsk .host (pgLPof 13) LP_CTRL_RETRAIN 1 [LP_CTRL_ENABLE, LP_CTRL_AUTO_RETRAIN] (lpAt 6) ∧ gf (lpAt 6) (pgLPof 13) LP_CTRL_ENABLE = 1) ∧
    (∀ st ∈ [1, 2, 3, 4, 5, 6], runs (lpAt st) (portDie 13) ∧ portState (lpAt st) 13 = st ∧ gf (lpAt st) (pgLPof 13) LP_CTRL_AUTO_RETRAIN = 1) ∧
    portActive (active 13 up) 13 = true ∧
    (∀ n ∈ [0, 15], let s := { lpAt 4 with ports := (lpAt 4).ports.set 13 { (lpAt 4).ports[13] with probes := List.replicate n 5 } }
      (4 :: s.ports[13].probes).length = n + 1) ∧
    let s := sets [(pgLPof 13, LP_EXPECT_CHECK, 1), (pgLPof 13, LP_EXPECT_PEER, 5)] (lpAt 3)
    portState s 13 = 3 ∧ gf s (pgLPof 13) LP_EXPECT_CHECK = 1 ∧ gf s (pgLPof 13) LP_EXPECT_PEER = 5 := by
  refine ⟨⟨mayAsk_of (by decide +kernel), by decide +kernel⟩, mayAsk_of (by decide +kernel), ⟨mayAsk_of (by decide +kernel), by decide +kernel⟩, ?_⟩
  unfold runs; decide +kernel

/-- Port 1 of a package that is member 8 of slice 3, with a route to member 7 by port 2. -/
def routed : State :=
  let d := portDie 1
  die d (fun x => { x with rt := sset z32 [] 7 0xFFFF })
    (sets [(pgLP d, LS_SLICE_SLICE_ID, 3), (pgLP d, LS_SLICE_MEMBER, 8), (pgLP d, LS_PGEN_CUR, 6), (pgLP d, LS_CFG_HOP_MAX, 9)] (active 2 (active 1 up)))

theorem witness_Messages :
    (runs routed (portDie 1) ∧ pState routed = 0 ∧ portState routed 1 = 5 ∧ (∀ r ∈ routed.ports[(1 : PortId)].inbox, r.msg ≠ ⟨2, 2, 1, 4, 7, 9, 4, 5, 6, []⟩) ∧
      4 ≠ gf routed (pgLP (portDie 1)) LS_SLICE_SLICE_ID ∧ gf routed (pgLPof 1) CTRL_FREEZE = 0) ∧
    (3 = gf routed (pgLP (portDie 1)) LS_SLICE_SLICE_ID ∧ 7 ≠ ownMember routed (portDie 1) ∧ 6 % 65536 = gf routed (pgLP (portDie 1)) LS_PGEN_CUR ∧
      7 + 1 < gf routed (pgLP (portDie 1)) LS_CFG_HOP_MAX ∧ (routePort routed (portDie 1) 7 4).isSome = true) ∧
    mayWrite .host (pgLP 3 + 0x214) 1 up ∧ mayWrite .host (pgLP 3 + 0x214) 2 up ∧ gf up (pgLP 3) RT_CTRL_PENDING = 0 :=
  ⟨by unfold runs; decide +kernel, by decide +kernel, mayWrite_of (by decide +kernel), mayWrite_of (by decide +kernel), by decide +kernel⟩

/-! ### Witnesses: the stairway, the hatches and the loss of a die -/

/-- Side 1 of die 3 in state `st` at epoch `ep`, its width words as `f` leaves them. -/
def sideAt (st ep : Nat) (f : Side → Side) : State :=
  die 3 (fun x => { x with sides := x.sides.set 1 (f x.sides[1]) })
    (sets [(pgSWof 3 1, SW_STATE_STATE, st), (pgSWof 3 1, SW_EPOCH_OWN, ep), (pgSWof 3 1, SW_CTRL_AUTO, 1)] up)

theorem witness_Sides :
    (∀ st ∈ [0, 1, 3, 4, 5], runs (sideAt st 65535 id) 3 ∧ (sideAt st 65535 id).stw.csJob = none ∧ swState (sideAt st 65535 id) 3 1 = st ∧
      swState (sideAt st 65535 id) 3 1 ≠ 6) ∧
    (epHigher 0 (swEp (sideAt 5 65535 id) 3 1) = true ∧ epHigher 65535 (swEp (sideAt 5 65535 id) 3 1) = false) ∧
    (let s := sideAt 3 9 (fun x => { x with aw := some 0xAAAAAAAA })
     swState s 3 1 = 3 ∧ 9 = swEp s 3 1 ∧ s.dies[(3 : DieId)].sides[(1 : SideId)].aw = some 0xAAAAAAAA ∧ (0xAAAAAAAA : W) ≠ 0 ∧ epHigher 9 (swEp s 3 1) = false) ∧
    (sideAt 1 9 id).dies[(3 : DieId)].sides[(1 : SideId)].peerRxw = none ∧
    (let s := sideAt 1 9 (fun x => { x with peerRxw := some 5 })
     s.dies[(3 : DieId)].sides[(1 : SideId)].peerRxw = some 5 ∧ s.dies[(3 : DieId)].sides[(1 : SideId)].peerAw = none) ∧
    (let s := wr (pgSWof 3 1 + SW_WIDTH_AW.off) 0xAAAAAAAA (sets [(pgSWof (across 3 1) (1 - 1), SW_STATE_STATE, 5)]
       (sideAt 4 9 (fun x => { x with held := x.held.set 15 [⟨4095, ⟨2, true, true, 0, List.replicate 256 7⟩⟩] })))
     swState s 3 1 = 4 ∧ swState s (across 3 1) (1 - 1) = 5 ∧ 15 ∈ flightsUsed s 3 1 ∧ s.dies[(3 : DieId)].sides[(1 : SideId)].held[(15 : Fin 16)] ≠ []) ∧
    (List.replicate 16 3).length = 16 ∧ gf (sideAt 5 9 id) (pgSWof 3 1) SW_CTRL_AUTO = 1 ∧
    mayAsk .host (pgSWof 3 1) SW_CTRL_RETRAIN 1 [SW_CTRL_AUTO] (sideAt 6 9 id) ∧ gf (sideAt 6 9 id) (pgSWof 3 1) FENCE_REQ = 0 := by
  refine ⟨by unfold runs; decide +kernel, by decide +kernel, by decide +kernel, by decide +kernel, by decide +kernel, by decide +kernel, by decide +kernel,
    by decide +kernel, mayAsk_of (by decide +kernel), by decide +kernel⟩

/-- A unit of a flight with sequence number 4,095 and the CRC `c`. -/
def unit (data : List Byte) (c : BitVec 16) : SwUnit := ⟨data, BitVec.ofNat 32 (4095 + 65536 * c.toNat)⟩

theorem unit_track (data : List Byte) (c : BitVec 16) : (unit data c).track.toNat = 4095 + 65536 * c.toNat := by
  have := c.isLt
  simp only [unit, BitVec.toNat_ofNat]
  omega

theorem unit_bytes (data : List Byte) (c : BitVec 16) : leBytes 2 (unit data c).track.toNat = leBytes 2 4095 := by
  rw [unit_track]
  simp only [leBytes]
  congr 1
  · apply BitVec.eq_of_toNat_eq; simp only [BitVec.toNat_ofNat]; omega
  · congr 1; apply BitVec.eq_of_toNat_eq; simp only [BitVec.toNat_ofNat]; omega

/-- A unit is whole with the CRC of its bytes, and with no other. -/
theorem witness_Units (data : List Byte) (c : BitVec 16) :
    ((crc16 (data ++ leBytes 2 (unit data c).track.toNat)).toNat = (unit data c).track.toNat / 65536 ↔ c = crc16 (data ++ leBytes 2 4095)) ∧
      (unit data c).track.toNat % 4096 = 4095 := by
  rw [unit_bytes, unit_track]
  refine ⟨⟨fun h => BitVec.eq_of_toNat_eq (by omega), fun h => by rw [← h]; omega⟩, by omega⟩

theorem witness_Edges :
    (let s := wr (pgSWof 3 1 + SW_WIDTH_AW.off) 0xAAAAAAAA (sideAt 5 9 (fun x => { x with rxSeq := Vector.replicate 16 4095 }))
     runs s 3 ∧ s.stw.csJob = none ∧ swState s 3 1 = 5 ∧ flightCode (rd s (pgSWof 3 1 + SW_WIDTH_AW.off)) 15 ≠ 0 ∧
       s.dies[(3 : DieId)].sides[(1 : SideId)].rxSeq[(15 : Fin 16)] = 4095) ∧
    (dieLive (sideAt 3 9 id) (across 3 1) = true ∧ swState (sideAt 3 9 id) 3 1 ≠ 5 ∧ swState (sideAt 3 9 id) 3 1 ≠ 6) := by
  unfold runs; decide +kernel

theorem witness_Losses :
    (up.stw.halt = .none ∧ up.stw.csJob = none ∧ dieLive up 0 = true ∧ (∀ q ∈ [cwDie 0, ccwDie 0], dieLive up q = true) ∧ 0 ∉ up.stw.notices) ∧
    (let s := stw (fun x => { x with drops := [((ccwDie 0).val, 0)] }) up
     ((ccwDie 0).val, 0) ∈ s.stw.drops ∧ ((cwDie 0).val, 0) ∉ s.stw.drops ∧ ∃ x ∈ s.stw.drops, x.2 = 0) ∧
    (let s := sets [(pgHTSof 0, HT_STATE_MOD0, 5), (pgHTSof 0, HT_STATE_MOD1, 5), (pgHT 0, HT_STATE_MOD0, 5), (pgHT 0, HT_STATE_MOD1, 5)] up
     gf s (pgHTSof 0) HT_STATE_MOD0 = 5 ∧ gf s (pgHTSof 0) HT_STATE_MOD1 = 5 ∧ gf s (pgHT 0) HT_STATE_MOD0 = 5 ∧ gf s (pgHT 0) HT_STATE_MOD1 = 5) := by decide +kernel

theorem witness_Rejoins :
    (∀ e ∈ [(2, 0), (3, 1)], ∀ k ∈ [ResetKind.warm, .cold], let s := sets [(pgHTSof 1, HTS_DIE_STATE, e.1), (pgHTSof 1, HTS_DIE_LOSS_CAUSE, e.2)] up
      mayWrite .host (pgHTSof 1 + 0x110) (setFld (setFld 0 HTS_CTRL_RESET 1) HTS_CTRL_KIND (if k = ResetKind.warm then 0 else 1)) s ∧
        (gf s (pgHTSof 1) HTS_DIE_STATE = 2 ∨ gf s (pgHTSof 1) HTS_DIE_STATE = 3 ∧ gf s (pgHTSof 1) HTS_DIE_LOSS_CAUSE ≠ 3)) ∧
    (∀ e ∈ [(5, 5), (6, 1)], let s := sets [(pgHTSof 1, HTS_DIE_STATE, 4), (pgSWof 1 0, SW_STATE_STATE, e.1), (pgSWof 1 1, SW_STATE_STATE, e.2)] up
      s.stw.halt = .none ∧ s.stw.csJob = none ∧ gf s (pgHTSof 1) HTS_DIE_STATE = 4 ∧ swState s 1 0 = e.1 ∧ swState s 1 1 = e.2) ∧
    let s := sets [(pgHTSof 1, HTS_DIE_STATE, 5)] up
    mayAsk .host (pgHTSof 1) HTS_CTRL_REJOIN 1 [HTS_CTRL_KIND] s ∧ gf s (pgHTSof 1) HTS_DIE_STATE = 5 ∧
      ∀ d ∈ liveDies s, gf s (pgTICK d) TICK_CTRL_EN = 0 := by
  refine ⟨fun e he k hk => ⟨mayWrite_of ?_, ?_⟩, by decide +kernel, mayAsk_of (by decide +kernel), by decide +kernel⟩
  all_goals
    simp only [List.mem_cons, List.not_mem_nil, or_false] at he hk
    obtain rfl | rfl := he <;> obtain rfl | rfl := hk <;> decide +kernel

/-! ### Witnesses: memory integrity, line requests, tables and arrays -/

theorem witness_Scrubbing :
    (∀ e ∈ [(0, 2), (lapWords - 1, 3)], let s := { sets [(pgINTEG 3, INTEG_CFG_SCRUB_EN, 1)]
        (die 3 (fun x => { x with integ := { x.integ with next := e.1 } }) up) with errs := [(lapAddr 3 e.1 / 64, e.2)] }
      s.wf = true ∧ runs s 3 ∧ gf s (pgINTEG 3) INTEG_CFG_SCRUB_EN = 1 ∧ pState s < 3 ∧ stopped s = false ∧ s.dies[(3 : DieId)].trunk = [] ∧
        s.dies[(3 : DieId)].integ.next = e.1 ∧ e.1 < lapWords ∧ wordErr s (lapAddr 3 e.1) = e.2) ∧
    (let s := wr (pgINTEG 3 + SCRUB_AGE_MAX_V.off) 7 up
     rd s (pgINTEG 3 + SCRUB_AGE_MAX_V.off) ≠ 0 ∧ s.dies[(3 : DieId)].integ.slowRaised = false) ∧
    (die 3 (fun x => { x with integ := { x.integ with slowRaised := true } }) up).dies[(3 : DieId)].integ.slowRaised = true := by
  unfold runs; decide +kernel

theorem witness_Injection :
    let s := wr64 (pgINTEG 2 + INJ_ADDR_LO_V.off) (storeBase 2 + 64) up
    (∀ n : Fin 4, n ∈ ([1, 3] : List (Fin 4)) → mayWrite .host (pgINTEG 2 + 0x138) (setFld (setFld 0 INJ_CTRL_ARM 1) INJ_CTRL_SYMS n.val) s ∧ 0 < n.val) ∧
      injAddrOk 2 (rd64 s (pgINTEG 2 + INJ_ADDR_LO_V.off) % 2 ^ 52) = true ∧
    let s := sets [(pgINTEG 2, INJ_CTRL_ARM, 1), (pgINTEG 2, INJ_CTRL_SYMS, 3)] s
    (storeBase 2 + 64) % 64 = 0 ∧ homeDie (storeBase 2 + 64) = 2 ∧ gf s (pgINTEG 2) INJ_CTRL_ARM = 1 ∧
      rd64 s (pgINTEG 2 + INJ_ADDR_LO_V.off) / 64 = (storeBase 2 + 64) / 64 := by
  refine ⟨fun n hn => ⟨mayWrite_of ?_, ?_⟩, by decide +kernel, by decide +kernel⟩
  all_goals simp only [List.mem_cons, List.not_mem_nil, or_false] at hn; obtain rfl | rfl := hn <;> decide +kernel

theorem witness_Lines :
    (∀ e ∈ [(cellarBase 3 + 255, 1), (storeBase 3, 256)], runs up 3 ∧ dieLive up 0 = true ∧ (0 : DieId) ≠ 3 ∧ fabricHeld up 0 3 = false ∧ clean up ∧ up.dies[(3 : DieId)].trunk = [] ∧
      homeDie e.1 = 3 ∧ 0 < e.2 ∧ accessCheck (.mover 0) e.1 e.2 false up = eOK ∧ accessCheck (.mover 0) e.1 e.2 true up = eOK) ∧
    (∀ killed ∈ [false, true], let q : LineReq := ⟨cellarBase 0 + 512, true, false, killed, []⟩
      let s := sets [(pgLOFT 3, LOFT_CFG_ENABLE, 1)] (die 3 (fun x => { x with lineReqs := [q] }) up)
      gf s (pgLOFT 3) LOFT_CFG_ENABLE = 1 ∧ s.dies[(3 : DieId)].lineReqs.find? (fun r => r.addr == q.addr) = some q ∧ q.uncached = false ∧ q.addr % 256 = 0) ∧
    mayWrite .host (pgLOFT 3 + 0x104) 1 up :=
  ⟨by unfold runs clean; decide +kernel, by decide +kernel, mayWrite_of (by decide +kernel)⟩

theorem witness_Tables : gf up (pgTICK 2) TICK_CTRL_EN = 0 ∧ mayWrite .host (pgUPD 2 + 0x110) 1 up ∧ mayWrite .host (pgUPD 2 + 0x110) 2 up ∧
    mayWrite .host (pgUPD 2 + 0x110) 4 up ∧ mayWrite .host (pgWATCH 2 + 0x10C) 1 up ∧ mayWrite .host (pgWATCH 2 + 0x10C) 2 up :=
  ⟨by decide +kernel, mayWrite_of (by decide +kernel), mayWrite_of (by decide +kernel), mayWrite_of (by decide +kernel), mayWrite_of (by decide +kernel),
    mayWrite_of (by decide +kernel)⟩

/-- A product executing on rank 5's array of die 0. -/
def atMatrix : State := die 0 (fun k => { k with disp := { k.disp with tstat := [(0, .executing)] } }) (graph 0 1 0 (task 0 [(2, 1, 5), (4, 2, 1)]) up)

theorem witness_Arrays :
    (runs up 3 ∧ ∀ r ∈ [0, 5], rankArray up 3 r = some r) ∧
    (runs atMatrix 0 ∧ (activeImg atMatrix 0).isSome = true ∧ gf atMatrix (pgMXof 0 5) MX_STATE_STATE = 0 ∧
      execOn atMatrix 0 (img atMatrix 0) (gf atMatrix (pgMXof 0 5) MX_STATE_RANK) = [0]) ∧
    (let x : Shadow := ⟨0, 1, [], 2, 1, 0, []⟩
     let xs : List Shadow := [⟨0, 0, [], 2, 1, 0, [(4, true)]⟩]
     let s := die 0 (fun k => { k with shadow := x :: xs }) (graph 0 1 0 [] up)
     runs s 0 ∧ (activeImg s 0).isSome = true ∧ s.dies[(0 : DieId)].shadow = x :: xs ∧ x.wait = [] ∧ activeSpare s 0 = some 6) := by
  unfold runs; decide +kernel

/-! ### Witnesses: graph slots -/

/-- Die 0 with slot B in state `st`, its watch digest as at validation, and image range and activation step written. -/
def atSlot (st : Nat) : State :=
  let s := sets [(pgDISP 0, slotFld 1, st), (pgDISP 0, DISP_IMG_LEN_V, 0xFFFF)] (wr64 (pgDISP 0 + DISP_ACT_STEP_LO_V.off) 9
    (wr64 (pgDISP 0 + DISP_IMG_LO_V.off) (cellarBase 0) up))
  die 0 (fun k => { k with watch := { k.watch with digB := watchDigest s 0 } }) s

/-- The least image that passes: a commit frame and one RUN task of one END. -/
def leastImage (len : Nat) : State :=
  die 0 (fun k => { k with disp := { k.disp with slotB := { k.disp.slotB with base := cellarBase 0, len := 4096 } } })
    (mems ([(0, 4, 0x58474E59), (5, 1, 1), (12, 4, len), (16, 2, 1), (20, 4, 1), (32, 4, 8), (68, 4, 0x100), (72, 4, 0x140), (76, 4, 0x1C0),
      (80, 4, 0x1C0), (84, 4, 0x1C0), (0x100, 1, 2), (0x108, 4, 1), (0x142, 1, 6), (0x144, 2, 1), (0x1C0, 8, 0)].map
        fun (e : Nat × Nat × Nat) => (cellarBase 0 + e.1, e.2)) (atSlot 1))

theorem witness_Slots :
    (∀ e ∈ [(1, 0), (1, 2), (2, 2), (3, 3), (4, 1), (4, 2), (1, 4), (2, 4), (3, 4), (4, 4)],
      mayWrite .host (pgDISP 0 + 0x104) (BitVec.ofNat 32 (e.1 + 16 * (1 : Fin 2).val)) (atSlot e.2) ∧ slotState (atSlot e.2) 0 1 = e.2) ∧
    (rd64 (atSlot 0) (pgDISP 0 + DISP_IMG_LO_V.off) % 4096 = 0 ∧ 0 < gf (atSlot 0) (pgDISP 0) DISP_IMG_LEN_V) ∧
    (slotState (atSlot 2) 0 (1 - 1) ≠ 3 ∧ gf (atSlot 2) (pgTICK 0) TICK_CTRL_EN = 0 ∧ (atSlot 2).dies[(0 : DieId)].watch.digB = watchDigest (atSlot 2) 0) ∧
    (let s := leastImage 0x200
     runs s 0 ∧ slotState s 0 1 = 1 ∧ (validate 0 (slotOf s 0 1).base (slotOf s 0 1).len s).2 = none) ∧
    (let s := leastImage 255
     runs s 0 ∧ slotState s 0 1 = 1 ∧ (validate 0 (slotOf s 0 1).base (slotOf s 0 1).len s).2 = some ⟨eBAD_DESCRIPTOR, 0, 12⟩) := by
  refine ⟨fun e he => ⟨mayWrite_of ?_, ?_⟩, by decide +kernel, by decide +kernel,
    by unfold runs; decide +kernel, by unfold runs; decide +kernel⟩
  all_goals
    simp only [List.mem_cons, List.not_mem_nil, or_false] at he
    obtain rfl | rfl | rfl | rfl | rfl | rfl | rfl | rfl | rfl | rfl := he <;> decide +kernel

/-! ### Witnesses: the beat -/

/-- A package of one member that is the master of its slice, with EN set or not. -/
def beating (en : Nat) : State :=
  sets ((List.finRange 4).flatMap fun d => [(pgCE d, CE_CFG_GSIZE, 1), (pgTICK d, TICK_CFG_IS_MASTER, 1), (pgTICK d, TICK_CTRL_EN, en)]) up

/-- The master in state `st`. -/
def master (st : MState) (f : Master → Master) (s : State) : State := { s with master := f { s.master with st := st } }

/-- RUN set on every die. -/
def running (s : State) : State := sets ((List.finRange 4).map fun d => (pgTICK d, TICK_CTRL_RUN, 1)) s

/-- Dies without routes have the same routing digest. -/
theorem same_routes {s : State} (h : ∀ x : DieId, s.dies[x].rt = []) (d : DieId) :
    (liveDies s).all (fun h => rtDigest s h == rtDigest s d) = true := by
  rw [List.all_eq_true]
  intro x _
  unfold rtDigest
  rw [h x, h d]
  exact beq_self_eq_true _

/-- Dies with the same registers and no routes may be enabled. -/
theorem enabled : enableOk (beating 0) 3 = true := by
  unfold enableOk
  dsimp only
  rw [same_routes (by decide +kernel) 3]
  decide +kernel

theorem witness_MasterRuns :
    (mayAsk .host (pgTICK 3) TICK_CTRL_EN 1 [TICK_CTRL_RUN] (beating 0) ∧
      tickCtrlOk (beating 0) 3 (setFld (keeping (beating 0) (pgTICK 3) [TICK_CTRL_RUN]) TICK_CTRL_EN 1).toNat = true) ∧
    (∀ e ∈ [(beating 1, TICK_CTRL_EN, 0, [TICK_CTRL_RUN]), (beating 1, TICK_CTRL_RUN, 1, [TICK_CTRL_EN]),
        (master .held id (running (beating 1)), TICK_CTRL_RUN, 0, [TICK_CTRL_EN]),
        (master .held id (running (beating 1)), TICK_CTRL_RESUME, 1, [TICK_CTRL_EN, TICK_CTRL_RUN]),
        (master .running id (running (beating 1)), TICK_CTRL_STOP, 1, [TICK_CTRL_EN, TICK_CTRL_RUN])],
      mayAsk .host (pgTICK 3) e.2.1 e.2.2.1 e.2.2.2 e.1 ∧ isMaster e.1 3 = true ∧
        tickCtrlOk e.1 3 (setFld (keeping e.1 (pgTICK 3) e.2.2.2) e.2.1 e.2.2.1).toNat = true) ∧
    (beating 1).master.st = .off ∧ gf (beating 1) (pgTICK 3) TICK_CTRL_RUN = 0 ∧ gf (running (beating 1)) (pgTICK 3) TICK_CTRL_RUN = 1 := by
  refine ⟨⟨mayAsk_of (by decide +kernel), ?_⟩, fun e he => ⟨mayAsk_of ?_, ?_⟩, by decide +kernel⟩
  · unfold tickCtrlOk
    rw [enabled]
    decide +kernel
  all_goals
    simp only [List.mem_cons, List.not_mem_nil, or_false] at he
    obtain rfl | rfl | rfl | rfl | rfl := he <;> decide +kernel

/-- A report of member `m` for frame 2 opened by tick 9. -/
def reportOf (m : Nat) : Report := ⟨m, 2, 9, true, true, false, false, 0, 0, 0⟩

/-- The master in a frame of members 0 and 4095, with the reports listed. -/
def inFrame (min : Bool) (rs : List Nat) (type : Nat) : State :=
  master .running (fun m => { m with tick := 9, frame := 2, type := type, members := [0, 4095], reports := rs.map reportOf, minPassed := min }) (beating 1)

theorem witness_MasterEnds :
    (∀ e ∈ [(false, ([] : List Nat)), (true, [0])], let s := inFrame e.1 e.2 1
      s.stw.halt = .none ∧ masterDie s = some 0 ∧ masterOpen s = true ∧ replaying s 0 = false ∧ 4095 ∈ s.master.members ∧
        4095 ∉ s.master.excluded ∧ ∀ x ∈ s.master.reports, x.member ≠ 4095) ∧
    (∀ x ∈ (inFrame true [0] 1).master.members, x ∈ (inFrame true [0] 1).master.excluded ∨ x = 4095 ∨
      ∃ y ∈ (inFrame true [0] 1).master.reports, y.member = x) ∧
    (let m := (inFrame true [0] 1).master
     let late := m.members.filter fun x => !(m.contrib.contains x || m.excluded.contains x || m.reports.any fun y => y.member == x)
     late = [4095] ∧ allOnRecord { m with excluded := m.excluded ++ late } = true) ∧
    ((pkgTickDie (inFrame true [] 0)).filter (isMaster (inFrame true [] 0)) = some 0 ∧ allOnRecord (inFrame true [] 0).master = false ∧
      allOnRecord (inFrame true [0, 4095] 0).master = true ∧ enAll (inFrame true [] 0) = true ∧ enAll (beating 0) = false) := by decide +kernel

/-- A tick of slice 0. -/
def aTick (hold : Bool) (slice : Nat) : Tick :=
  ⟨2 ^ 64 - 1, 5, 4095, 1, false, false, false, false, hold, true, 0, false, 65535, slice, 0, 0, 0, []⟩

/-- Dies that are not the master, with EN set; port 11 is ACTIVE and the parent port, and die 3 keeps of the beat as `f` has it. -/
def following (f : TickDie → TickDie) : State :=
  die 3 (fun k => { k with tick := f { k.tick with freeWait := false } })
    (sets ((List.finRange 4).flatMap fun d => [(pgTICK d, TICK_CTRL_EN, 1), (pgTICK d, TICK_PARENT_PARENT_PORT, 11), (pgTICK d, TICK_CFG_TICK_DIE, 3)])
      (sets [(pgLPof 11, LP_STATE_STATE, 5), (pgTICK 3, TICK_CFG_PIN_MODE, 1)] up))

theorem witness_Edge :
    let s := following fun x => { x with rx := [⟨aTick false 0, 7⟩, ⟨aTick true 0, 8⟩], pinEdge := true }
    runs s 3 ∧ s.dies[(3 : DieId)].tick.rx = ⟨aTick false 0, 7⟩ :: [⟨aTick true 0, 8⟩] ∧ enAll s = true ∧ pinTaken s 3 = true ∧
      s.dies[(3 : DieId)].tick.pinEdge = true := by unfold runs; decide +kernel

theorem witness_Ticks :
    (let s := following id
     runs s 3 ∧ portActive s 11 = true ∧ portDie 11 = 3 ∧ enAll s = true ∧ parentPort s 3 = some 11 ∧ (aTick false 0).slice = gf s (pgLP 3) LS_SLICE_SLICE_ID ∧
       (aTick false 1).slice ≠ gf s (pgLP 3) LS_SLICE_SLICE_ID ∧ pinTaken s 3 = true ∧ s.dies[(3 : DieId)].tick.rx = []) ∧
    (let s := sets [(pgSWof 3 0, SW_STATE_STATE, 1)] (following id)
     ∃ h ∈ liveDies s, fabricHeld s 3 h = true ∧ ∃ h ∈ liveDies s, fabricHeld s 3 h = false ∧ s.dies[h].tick.held = []) ∧
    (let s := following fun x => { x with last := some (aTick false 0) }
     runs s 3 ∧ s.dies[(3 : DieId)].tick.last = some (aTick false 0) ∧ enAll s = true ∧ isMaster s 3 = false ∧ s.dies[(3 : DieId)].tick.freeWait = false ∧
       s.dies[(3 : DieId)].tick.lost = false ∧ s.dies[(3 : DieId)].tick.rx = []) ∧
    (let s := following fun x => { x with last := some (aTick false 0) }
     runs s 3 ∧ openTick s 3 = some (aTick false 0) ∧ s.dies[(3 : DieId)].disp.later = [] ∧ s.done[(3 : DieId)].done = false ∧
       dieDone s 3 (aTick false 0) = true) := by unfold runs; decide +kernel

/-! ### Witnesses: tasks -/

/-- Tensor `k` of a test graph with one row of two X32 elements, of class `cls`, paired with `pair`. -/
def small (k cls pair : Nat) : List (Nat × Nat × Nat) :=
  [(1, 5, 0x1000000080 + 0x10 * k), (10, 1, cls), (11, 1, 2), (12, 4, b2n (cls == 1)), (16, 4, 2), (20, 4, 1), (24, 4, 1), (28, 4, 1), (44, 2, 0xFFFF),
    (46, 2, pair)].map fun e => (0x1000 + 64 * k + e.1, e.2.1, e.2.2)

/-- Die 0 in a frame with a task of opcode `op` on unit `u`, whose operand `k` is tensor `k` with the k-th role, and which has the PARAMS listed.
Tensors 1 and 2 are of classes `c1` and `c2`. A REDUCE of the same bucket stands beside it. -/
def atTask (u op : Nat) (roles : List Nat) (params : List (Nat × Nat × Nat)) (c1 c2 : Nat := 0) : State :=
  sets [(pgCE 0, CE_CFG_GSIZE, 1), (pgMXof 0 5, MX_ROLE_AFT, 127)]
    (graph 0 2 5 (task 0 ([(2, 1, u), (4, 2, op)] ++ roles.zipIdx.map (fun e => (32 + 4 * e.2, 4, if e.1 = 0 then 0 else e.1 * 65536 + e.2)) ++ params) ++
      task 1 [(0, 2, 1), (2, 1, 9), (4, 2, 1), (32, 4, 0x10000), (68, 4, 2)] ++
      small 0 0 0xFFFF ++ small 1 c1 0xFFFF ++ small 2 c2 (if c2 = 3 then 1 else 0xFFFF) ++ small 3 0 0xFFFF ++
      small 4 0 0xFFFF) up)

/-- Every unit of die 0 fenced, no array in use, and feed queues disabled. -/
def stuck (s : State) : State :=
  sets ((pgRE 0, FENCE_FENCED, 1) :: (pgCE 0, FENCE_FENCED, 1) :: (pgVXof 0 0, FENCE_FENCED, 1) :: (pgMVof 0 15, FENCE_FENCED, 1) :: (pgQ 15, Q_CTRL_EN, 0) ::
    (List.range 7).map fun m => (pgMXof 0 m, MX_STATE_STATE, 3)) s

/-- Task 0 of die 0 meets the premises of issue. -/
abbrev issuing (s : State) (depth : Nat) (ok : Img → Task → Bool) : Prop :=
  s.stw.halt = .none ∧ dieUp s 0 = true ∧ (activeImg s 0).isSome = true ∧
    issuable s 0 (img s 0) 0 (readTask s (img s 0) 0).unit depth = true ∧ ok (img s 0) (readTask s (img s 0) 0) = true

/-- It has no fault at issue, and its work none. -/
abbrev works (s : State) (extra : Img → Task → IssueExtra) (body : Img → Task → State → State × Nat) : Prop :=
  let tk := readTask s (img s 0) 0
  issueCode s 0 (img s 0) tk (extra (img s 0) tk) = eOK ∧ (body (img s 0) tk (beginTask 0 (img s 0) tk 0 s)).2 = eOK

/-- It has a fault at issue. -/
abbrev faults (s : State) (extra : Img → Task → IssueExtra) : Prop :=
  issueCode s 0 (img s 0) (readTask s (img s 0) 0) (extra (img s 0) (readTask s (img s 0) 0)) ≠ eOK

theorem witness_RowTasks : ∀ e ∈ [(1, lnFwd, [1, 2, 2]), (2, lnBwd, [1, 1, 1, 0, 2]), (3, rmsFwd, [1, 2, 2]), (4, rmsBwd, [1, 1, 1, 0, 2]),
      (5, smaxFwd, [1, 2, 2]), (6, smaxBwd, [1, 1, 1, 2]), (7, loss, [1, 1, 2, 2])],
    let s := atTask 8 e.1 e.2.2 [(64, 4, 1), (72, 4, 2), (76, 4, 0x3F800000), (80, 4, 0x3F800000)] 0 6
    issuing s 1 (fun _ tk => tk.unit == 8 && tk.opcode == e.1) ∧
      works s (fun _ _ => .none) (fun i tk s => e.2.1 ⟨0, 0, i, tk, rowP tk⟩ (wr (pgRE 0 + RE_ROW_DONE.off) 0 s)) ∧
      (e.1 = 1 → issuing (stuck s) 1 (fun _ tk => tk.unit == 8 && tk.opcode == e.1) ∧ faults (stuck s) fun _ _ => .none) := by
  decide +kernel

theorem witness_MoverTasks : ∀ e ∈ [(1, [1, 2]), (2, [1, 2, 1]), (3, [1, 2, 1])],
    let s := atTask 31 e.1 e.2 [(64, 4, 1), (68, 4, 2)]
    let ok (s : State) : Img → Task → Bool := fun i tk => decide (16 ≤ tk.unit) && tk.opcode == e.1 && !mvHeld s 0 i tk
    issuing s 2 (ok s) ∧ issuing (stuck s) 2 (ok (stuck s)) ∧
      works s (fun _ _ => .none) (mvWork 0 0 e.1) ∧ faults (stuck s) fun _ _ => .none := by decide +kernel

theorem witness_MatrixTasks : ∀ e ∈ [(1, false), (2, true)],
    let s := atTask 5 e.1 [1, 1] [(64, 2, 1), (66, 2, 1), (68, 4, if e.2 then 1 else 2), (88, 1, 2)]
    let x : Img → Task → IssueExtra := fun i tk => if e.2 then ⟨!rankAft s 0 i tk.unit, false, false⟩ else .none
    issuing s 2 (fun _ tk => matOk e.1 tk && rankAccepts s 0 0) ∧
      issuing (stuck s) 2 (fun _ tk => matOk e.1 tk && rankAccepts (stuck s) 0 0) ∧ works s x (matStart 0 0 e.2) ∧ faults (stuck s) x := by decide +kernel

theorem witness_VectorTasks :
    (let s := atTask 6 1 [] []
     let ok : Img → Task → Bool := fun _ tk => (tk.unit == 6 || tk.unit == 7) && tk.opcode == 1
     issuing s 1 ok ∧ issuing (stuck s) 1 ok ∧ faults (stuck s) (fun _ _ => .none) ∧
       works s (fun _ _ => .none) fun i tk s => ((orWait 0 0 (fun s => (s, eOK)) (startProgram 0 0 i tk s).1).1, eOK)) ∧
    ∀ e ∈ [(0x100, false, [1, 3, 3]), (0x101, true, [1, 3, 3, 3])],
      let s := atTask 6 e.1 e.2.2 [(64, 4, 1), (68, 4, 2), (80, 4, 2), (84, 2, 1), (88, 4, 0x3F800000), (100, 4, 0x3F800000), (108, 4, 0x3F800000)] 1 3
      let ok : Img → Task → Bool := fun _ tk => (tk.unit == 6 || tk.unit == 7) && tk.opcode == e.1
      issuing s 1 ok ∧ issuing (stuck s) 1 ok ∧ faults (stuck s) (fun _ tk => ⟨false, updBad (stuck s) 0 tk, false⟩) ∧
        works s (fun _ tk => ⟨false, updBad s 0 tk, false⟩) (updWork 0 0 e.2.1) := by decide +kernel

theorem witness_FeedTasks :
    let s := sets [(pgQ 15, Q_CTRL_EN, 1)] (wr64 (pgQ 15 + Q_BASE_LO_V.off) (storeBase 0 + 0x4000) (wr64 (pgQ 15 + Q_PROD_LO_V.off) 1
      (atTask 10 0x20 [2] [(64, 1, 7), (68, 4, 1), (72, 4, 64)])))
    let ok (s : State) : Img → Task → Bool := fun _ tk => tk.unit == 10 && tk.opcode == 0x20 && !feedHeld s (8 + tk.p 64 1 % 8) (tk.p 68 4)
    let x (s : State) : Img → Task → IssueExtra := fun _ tk => ⟨gf s (pgQ (8 + tk.p 64 1 % 8)) Q_CTRL_EN == 0 || feedHome s (8 + tk.p 64 1 % 8) != 0, false,
      feedGapAhead s (8 + tk.p 64 1 % 8) (tk.p 68 4)⟩
    issuing s 1 (ok s) ∧ issuing (stuck s) 1 (ok (stuck s)) ∧ works s (x s) (feedWork 0 0) ∧ faults (stuck s) (x (stuck s)) := by decide +kernel

theorem witness_CollectiveTasks :
    (∀ e ∈ [(1, [1]), (2, [2]), (3, [3, 2]), (4, [1, 2, 1]), (5, []), (6, []), (7, [1])],
      let s := atTask 9 e.1 e.2 [(68, 4, if e.1 = 1 ∨ e.1 = 3 then 2 else 0)]
      let ok (s : State) : Img → Task → Bool := fun i tk => tk.unit == 9 && tk.opcode == e.1 && (e.1 != 5 || sideReady s 0 i tk)
      issuing s 16 (ok s) ∧ issuing (stuck s) 16 (ok (stuck s)) ∧ faults (stuck s) (fun _ _ => .none)) ∧
    (let s := atTask 9 1 [1] [(68, 4, 2)]
     works s (fun i tk => ⟨(readTensor s i (tk.tensor 0)).elems != gsize s 0 * tk.clen, false, false⟩)
       fun i tk s => forUntil (sendShard 0 0 i tk) ((positions s 0).filter (· != ownPos s 0)) s) ∧
    works (atTask 9 2 [2] []) (fun _ _ => .none) (foldWork 0) ∧
    works (atTask 9 3 [3, 2] [(68, 4, 2)]) (fun _ _ => .none) (fun i tk s => treeAdvance 0 0 i tk s) ∧
    (let s := atTask 9 4 [1, 2, 1] []
     works s (fun i tk => ⟨(readTensor s i (tk.tensor 1)).high != gsize s 0 * (readTensor s i (tk.tensor 0)).high, false, false⟩) (gatherWork 0 0)) ∧
    works (atTask 9 5 [] []) (fun _ _ => .none) (fun _ tk s => sideWork 0 0 tk s) ∧
    works (atTask 9 7 [1] []) (fun _ _ => .none) (reshardWork 0 0) := by decide +kernel

theorem witness_Run : let s := atTask 7 1 [] [(64, 2, 3)]
    s.stw.halt = .none ∧ dieUp s 0 = true ∧ (activeImg s 0).isSome = true ∧ issuable s 0 (img s 0) 0 (readTask s (img s 0) 0).unit 1 = true ∧
      (readTask s (img s 0) 0).unit = 6 + (1 : Fin 2).val ∧ (readTask s (img s 0) 0).opcode = 1 ∧ issueCode s 0 (img s 0) (readTask s (img s 0) 0) .none = eOK := by decide +kernel

theorem witness_Products :
    let s := atTask 5 1 [1, 1] [(64, 2, 1), (66, 2, 1), (68, 4, 2), (88, 1, 2)]
    let i := img s 0
    let tk := readTask s i 0
    let p := matP tk
    let va := operView s 0 i tk 0 false
    let vb := operView s 0 i tk 1 false
    p.init = true ∧ p.m = 1 ∧ p.n = 1 ∧ rankArray s 0 tk.unit = some 5 ∧
      (readRows (memRead (.engine 0)) va p.kaOrg p.k ((List.range p.m).map (p.aOrg + ·)) s).2.1 = eOK ∧
      (readB 0 false vb p (readRows (memRead (.engine 0)) va p.kaOrg p.k ((List.range p.m).map (p.aOrg + ·)) s).1).2.1 = eOK ∧
      (matmul 0 0 false i tk s).2 = eOK := by decide +kernel

/-- The same frame with task 0 executing; it has task 1 as its successor. -/
def executing : State :=
  die 0 (fun k => { k with disp := { k.disp with tstat := [(0, .executing)] } })
    (atTask 8 1 [1, 2, 2] [(8, 4, 0), (12, 2, 1), (64, 4, 1), (72, 4, 2)] 0 6)

theorem witness_TasksEnd :
    (let s := mems [(storeBase 0 + 0x1800, 4, 1)] executing
     runs s 0 ∧ (activeImg s 0).isSome = true ∧ tstat s 0 0 = .executing ∧ unitDone s 0 0 (readTask s (img s 0) 0) = true ∧
       (lateWork 0 (img s 0) (readTask s (img s 0) 0) 0 s).2 = eOK ∧ frameRuns s 0 = true) ∧
    (let s := die 0 (fun k => { k with disp := { k.disp with tstat := [(0, .executing)], bankWait := [0] } })
       (mems [(storeBase 0 + 0x1000, 8, 0x180000000000)] (atTask 5 1 [1, 1] [(64, 2, 1), (66, 2, 1), (68, 4, 2), (88, 1, 2)]))
     runs s 0 ∧ (activeImg s 0).isSome = true ∧ tstat s 0 0 = .executing ∧ unitDone s 0 0 (readTask s (img s 0) 0) = true ∧
       (lateWork 0 (img s 0) (readTask s (img s 0) 0) 0 s).2 ≠ eOK) ∧
    (let s := die 3 (fun k => { k with disp := { k.disp with owed := [(5, 1)] } }) executing
     (3 : DieId) ≠ 0 ∧ sget zn s.dies[(3 : DieId)].disp.owed 5 ≠ 0 ∧ sget zn s.dies[(3 : DieId)].disp.owed 6 = 0 ∧
       s.dies[(0 : DieId)].disp.att = 0 ∧ (2 ^ 64 - 1 : Nat) ≠ s.dies[(0 : DieId)].disp.att) ∧
    (errCodes.head? = some 0x0101 ∧ executing.dies[(0 : DieId)].disp.later = []) ∧
    let l : List LateFrame := [⟨aTick false 0, false, 0, false, 0, 0⟩]
    let x : LateFrame := ⟨{ aTick false 0 with frame := 6 }, false, 0, false, 0, 0⟩
    let s := die 0 (fun k => { k with disp := { k.disp with later := l ++ [x] } }) executing
    runs s 0 ∧ s.dies[(0 : DieId)].disp.later = l ++ [x] ∧ ∀ h ∈ liveDies s, h ≠ 0 → s.dies[h].disp.frameOpen = false := by unfold runs; decide +kernel

/-! ### Witnesses: the collective engine -/

/-- The frame of a task's graph is open by a tick. -/
def hearing (s : State) : State := die 0 (fun k => { k with tick := { k.tick with last := some { aTick false 0 with frame := 0 } } }) s

/-- A message from member `src` at position `pos` of the group, of `count` elements at `off`. -/
def ceMsg (src pos bucket off count slen version : Nat) (data : List Byte) : CeMsg :=
  ⟨src, 0, 0, false, pos, 0, 0, 0, 0, bucket, off, count, version, 0, 0, 0, slen, data⟩

theorem witness_CollectiveMessages :
    (∀ e ∈ [(7, 1, 1), (1, 0, 2)], let s := hearing (atTask 9 1 [1, 2] [(68, 4, 2)])
      let m := ceMsg 9 e.1 0 e.2.1 e.2.2 2 0 (leBytes (4 * e.2.2) 0x3F800000)
      let tk := readTask s (img s 0) 0
      (activeImg s 0).isSome = true ∧ reduceOf s (img s 0) 0 = some (0, tk) ∧ tk.frame = 0 ∧ tk.clen = 2 ∧ ceNew s 0 1 m ∧ ceNew s 0 2 m ∧
        m.offset + m.count ≤ tk.clen ∧ m.srcPos ≠ ownPos s 0 ∧ clean s ∧
        accessCheck (.ce 0) (operBase s (img s 0) tk 1 + 4 * ((if ownPos s 0 < m.srcPos then m.srcPos - 1 else m.srcPos) * tk.clen + m.offset))
          (4 * m.count) true s = eOK) ∧
    (let s := sets [(pgCE 0 + 28, CE_TCHILD_VALID, 1), (pgCE 0 + 28, CE_TCHILD_MEMBER, 5), (pgCE 0, CE_TPARENT_VALID, 1), (pgCE 0, CE_TPARENT_MEMBER, 6)]
       (hearing (atTask 9 3 [3, 2] [(68, 4, 2)]))
     let m (src : Nat) := ceMsg src 0 0 1 1 2 0 (leBytes 4 0x3F800000)
     let tk := readTask s (img s 0) 0
     clean s ∧ (activeImg s 0).isSome = true ∧ treeOf s (img s 0) (m 5) = some (0, tk) ∧ tk.clen = 2 ∧ ceNew s 0 4 (m 5) ∧ ceNew s 0 5 (m 6) ∧
       (treeChildren s 0).find? (fun c => c.2 == 5) = some (7, 5) ∧ treeParent s 0 = some 6 ∧
       (m 5).offset + (m 5).count ≤ tk.clen ∧ accessCheck (.ce 0) (operBase s (img s 0) tk 1 + 4 * (7 * tk.clen + 1)) 4 true s = eOK ∧
       accessCheck (.ce 0) (operBase s (img s 0) tk 0 + 4) 4 true s = eOK) ∧
    let s := sets [(pgCE 0, CE_STATE_LSTATE, 1)] (atTask 9 7 [1] [] 1 0)
    let x := readTensor s (img s 0) 1
    let m := { ceMsg 9 0 1 0 2 0 7 (leBytes 8 1) with digest := moveForm x }
    let v := viewOf s 0 x (slotAddr s (img s 0) x (1 - b2n (ventry s 0 1).cur))
    clean s ∧ (activeImg s 0).isSome = true ∧ ceNew s 0 9 m ∧ gf s (pgCE 0) CE_STATE_LSTATE ≠ 0 ∧ 1 < (img s 0).tensors ∧ weightOf x = some 1 ∧
      2 ≤ x.elems ∧ cdiv (m.count * fmtBits v.fmt) 8 ≤ m.data.length ∧ (elemRuns v (m.count + 1) m.offset m.count).length = 1 ∧
      ∀ e ∈ elemRuns v (m.count + 1) m.offset m.count, accessCheck (.ce 0) (v.span e.1 e.2.1 e.2.2).1 (v.span e.1 e.2.1 e.2.2).2 true s = eOK := by
  refine ⟨?_, ?_, ?_⟩
  all_goals unfold ceNew runs clean; decide +kernel

theorem witness_Transfers :
    (∀ op ∈ [6, 7], ∀ n ∈ [63, 64], ∀ src ∈ [0, 5, 9],
      let s := sets [(pgCE 0 + 28, CE_TCHILD_VALID, 1), (pgCE 0 + 28, CE_TCHILD_MEMBER, 5)] (hearing up)
      let m := ceMsg src 0 0 0 0 0 0 (List.replicate n 0)
      let p := (addPart 0 op 0 m m.data m.data.length s).2
      ceNew s 0 op m ∧ (m.srcMember = ownMember s 0 ↔ src = 0) ∧ (fromChild s 0 m = true ↔ src = 5) ∧ p.head = true ∧ p.n = n ∧
        64 + 64 * leNat (sgetList zb p.bytes 16 2) = 64) ∧
    ∀ e ∈ [(1, 1), (0, 7), (0, 8)], let s := hearing (atTask 9 4 [1, 2, 1] [])
      let m := ceMsg 9 1 0 0 0 0 e.1 (List.replicate e.2 0)
      let tk := readTask s (img s 0) 0
      ceNew s 0 8 m ∧ (activeImg s 0).isSome = true ∧ tstat s 0 0 ≠ .executing ∧ gatherVersion s 0 tk = 0 ∧
        (ceTasks s (img s 0) 4).find? (fun e => e.2.bucket == m.bucket && e.2.frame == m.frame) = some (0, tk) ∧
        (addPart 0 8 0 m m.data m.data.length s).2.n = e.2 ∧ shardLen (operView s 0 (img s 0) tk 0 false) = 8 := by
  unfold ceNew runs; decide +kernel

theorem witness_Repeats :
    (∀ op ∈ [1, 2, 4, 5, 6, 7, 8, 9], let m := ceMsg 9 0 0 0 1 1 0 []
      let s := hearing up
      let s1 := die 0 (fun k => { k with ce := { k.ce with seen := [seenOf op m] } }) s
      let s2 := sets [(pgCE 0, CE_STATE_LSTATE, 1), (pgCE 0, CE_EPOCH_V, 5)] (die 0 (fun k => { k with ce := { k.ce with armEpoch := 5 } }) s)
      runs s 0 ∧ ceDrop s1 0 op m = none ∧ s1.dies[(0 : DieId)].ce.seen.contains (seenOf op m) = true ∧ runs s2 0 ∧ (ceDrop s2 0 op m).isSome = true) ∧
    let m := ceMsg 9 0 0 0 1 1 0 []
    let a := { m with ansOp := 1, reason := 7 }
    ∀ lost ∈ [false, true], let o : CeOut := ⟨1, 0, 9, m, lost⟩
    let s := die 0 (fun k => { k with ce := { k.ce with out := [o] } }) executing
    runs s 0 ∧ answerDrop s 0 a = none ∧ s.dies[(0 : DieId)].ce.out.find? (answers a) = some o ∧ tstat s 0 o.task = .executing ∧
      (activeImg s 0).isSome = true ∧ stopped s = false ∧ s.dies[(0 : DieId)].ce.out[0]? = some o := by
  unfold runs; decide +kernel

theorem witness_Reshard :
    (∀ e ∈ [(0, 1), (65535, 0)], ∀ busy ∈ [0, 1], let s := sets [(pgCE 3, CE_EPOCH_V, e.1), (pgCE 3, CE_STATE_OUTSTANDING, busy)] up
      e.2 = (gf s (pgCE 3) CE_EPOCH_V + 1) % 65536 ∧ mayWrite .host (pgCE 3 + 0x164) (BitVec.ofNat 32 (1 + e.2 * 2 ^ 16)) s ∧
        gf s (pgCE 3) CE_STATE_OUTSTANDING = busy) ∧
    ∀ st ∈ [1, 2], let s := sets [(pgCE 3, CE_STATE_LSTATE, st)] up
      mayAsk .host (pgCE 3) CE_RESHARD_DISARM 1 [CE_RESHARD_EPOCH] s ∧ gf s (pgCE 3) CE_STATE_LSTATE = st := by
  refine ⟨fun e he busy hb => ⟨?_, mayWrite_of ?_, ?_⟩, fun st hs => ⟨mayAsk_of ?_, ?_⟩⟩
  · simp only [List.mem_cons, List.not_mem_nil, or_false] at he hb
    obtain rfl | rfl := he <;> obtain rfl | rfl := hb <;> decide +kernel
  · simp only [List.mem_cons, List.not_mem_nil, or_false] at he hb
    obtain rfl | rfl := he <;> obtain rfl | rfl := hb <;> decide +kernel
  · simp only [List.mem_cons, List.not_mem_nil, or_false] at he hb
    obtain rfl | rfl := he <;> obtain rfl | rfl := hb <;> decide +kernel
  all_goals simp only [List.mem_cons, List.not_mem_nil, or_false] at hs; obtain rfl | rfl := hs <;> decide +kernel

/-! ### Witnesses: journal, replay, export and twin slices -/

theorem witness_Export :
    (∀ v ∈ ([0, 0x2001] : List W), let s := wr64 (pgJRNL 0 + JRNL_EXP_LO_V.off) 4096 (graph 0 1 0 [] up)
      mayWrite .host (pgJRNL 0 + 0x138) v s ∧ gf s (pgTICK 0) TICK_CTRL_EN = 0 ∧ windowOk 0 4096 (8 * (v.toNat % 2 ^ 13)) = eOK ∧
        rd64 s (pgJRNL 0 + JRNL_EXP_LO_V.off) = 4096 ∧ (activeImg s 0).isSome = true ∧ clean s ∧ accessCheck (.copier 0) 4096 8 false s = eOK) ∧
    (∀ e ∈ [(cellarBase 0 + 0x8000, eOK), (0x180000000000, eUNMAPPED)], ∀ wait ∈ [false, true],
      let s0 := mems [(storeBase 0 + 0x1000, 8, e.1)] (atTask 9 7 [1] [])
      let s := sets [(pgJRNL 0, JRNL_EXP_STAT_BUSY, 1)] (die 0 (fun k => { k with jrnl := { k.jrnl with entries := [0], streamWait := wait } }) s0)
      runs s 0 ∧ gf s (pgJRNL 0) JRNL_EXP_STAT_BUSY = 1 ∧ (activeImg s 0).isSome = true ∧
        (forUntil (exportCopy 0 (img s 0) (gf s (pgJRNL 0) JRNL_EXP_STAT_TARGET)) s.dies[(0 : DieId)].jrnl.entries s).2 = e.2) ∧
    let s := sets [(pgJRNL 0, JRNL_RX_LEN_V, 1)] up
    runs s 0 ∧ clean s ∧ (([1, 2] : List Byte).take (gf s (pgJRNL 0) JRNL_RX_LEN_V * 4096 - 4095)).length = 1 ∧
      accessCheck (.copier 0) (rd64 s (pgJRNL 0 + JRNL_RX_LO_V.off) + 4095) 1 true s = eOK := by
  refine ⟨fun v hv => ⟨mayWrite_of ?_, ?_⟩, by unfold runs; decide +kernel, by unfold runs clean; decide +kernel⟩
  all_goals simp only [List.mem_cons, List.not_mem_nil, or_false] at hv; obtain rfl | rfl := hv <;> (try unfold clean) <;> decide +kernel

/-- Die 0 with a twin behind port 11 that the comparison waits for. -/
def twinned (f : Jrnl → Jrnl) : State :=
  die 0 (fun k => { k with jrnl := f { k.jrnl with twinWait := true } })
    (sets [(pgJRNL 0, JRNL_TWIN_EN, 1), (pgJRNL 0, JRNL_TWIN_HOLD, 1), (pgJRNL 0, JRNL_TWIN_PORT, 11), (pgLPof 11, LP_STATE_STATE, 5)] up)

theorem witness_Replay :
    (∀ v ∈ ([0, 1] : List W), mayWrite .host (pgJRNL 3 + 0x12C) v up ∧ gf up (pgTICK 3) TICK_CTRL_EN = 0) ∧
    (reqActs up .host = true ∧ up.stw.csJob = none ∧ pState up = 0 ∧ ∃ l, checkAccess .host (pgJRNL 3 + 0x118) 4 true up = .ok l) ∧
    (∀ mine ∈ [List.replicate 16 0, List.replicate 16 1], let o : TwinDig := ⟨5, mine, 0⟩
      let s := twinned fun j => { j with own := some o }
      let m : LinkMsg := ⟨0, 12, 0, 0, 0, 0, 0, 0, 0, leBytes 8 1 ++ leBytes 8 5 ++ List.replicate 24 0⟩
      let x : TwinDig := ⟨field m.payload 8 8, (m.payload.drop 16).take 16, BitVec.ofNat 64 (field m.payload 32 8)⟩
      let kept := ((x :: s.dies[(0 : DieId)].jrnl.peer.filter fun y => y.step != x.step).mergeSort fun a b => decide (b.step ≤ a.step)).take 2
      s.stw.halt = .none ∧ pkgTickDie s = some 0 ∧ field m.payload 0 1 = 1 ∧ twinOn s 0 = true ∧ twinPortOk s 0 = true ∧
        s.dies[(0 : DieId)].jrnl.twinWait = true ∧ s.dies[(0 : DieId)].jrnl.own = some o ∧ kept.find? (fun y => y.step == o.step) = some x ∧
        (x.pkg = o.pkg ↔ mine = List.replicate 16 0)) ∧
    (let s := graph 0 1 0 [] (twinned id)
     s.stw.halt = .none ∧ pkgTickDie s = some 0 ∧ s.dies[(0 : DieId)].jrnl.twinWait = true ∧ gf s (pgJRNL 0) JRNL_TWIN_HOLD = 1 ∧
       (activeImg s 0).isSome = true ∧ s.dies[(0 : DieId)].disp.frameOpen = true ∧ s.dies[(0 : DieId)].disp.later = []) ∧
    let x : LateFrame := ⟨aTick false 0, false, 0, false, 0, 0⟩
    let s := die 0 (fun k => { k with disp := { k.disp with later := [] ++ [x] } }) (twinned id)
    s.stw.halt = .none ∧ pkgTickDie s = some 0 ∧ s.dies[(0 : DieId)].jrnl.twinWait = true ∧ gf s (pgJRNL 0) JRNL_TWIN_HOLD = 1 ∧
      s.dies[(0 : DieId)].disp.later = [] ++ [x] := by
  refine ⟨fun v hv => ⟨mayWrite_of ?_, by decide +kernel⟩, ⟨by decide +kernel, by decide +kernel, by decide +kernel, ok_of_isSome (w := 4) (by decide +kernel)⟩,
    by decide +kernel, by decide +kernel, by decide +kernel⟩
  simp only [List.mem_cons, List.not_mem_nil, or_false] at hv; obtain rfl | rfl := hv <;> decide +kernel

/-! ### Operands that are no command -/

/-- A power-on reset that finds nothing wrong. -/
def quiet : BootEnv := ⟨false, true, 0, [], [], [], [], []⟩

/-- A link message of one flit. -/
def oneFlit : LinkMsg := ⟨0, 1, 0, 0, 0, 0, 0, 0, 0, List.replicate 256 0⟩

theorem test_accepts : [Instr.powerOnReset quiet, .doneReport (reportOf 4095), .tickReceive 3 15 (aTick false 0), .contrib 0 (ceMsg 1 1 0 0 1 1 0 []),
    .lineRequest 3 0 (2 ^ 52 - 1) (.read 256 true false), .linkMessage 0 oneFlit, .hello 0 ⟨0, 4095, 15, 2, 0, 1, 0⟩, .probe 0 (.result 1 2 3),
    .fenceReq .host 0x1000 true, .bar0Read 8 8, .bar2Write (2 ^ 36 - 1) [0], .taskFault 0 (2 ^ 18 - 1) ePARITY].all wellFormed = true := by decide +kernel

theorem test_refuses_a_channel_of_no_die : wellFormed (.powerOnReset { quiet with checkerFail := [(4, 0, 0)] }) = false := by decide
theorem test_refuses_a_wire_past_the_last : wellFormed (.powerOnReset { quiet with wireFail := [(0, 0, 0, 70)] }) = false := by decide
theorem test_refuses_a_module_past_the_last : wellFormed (.powerOnReset { quiet with hatchFail := [(0, 2)] }) = false := by decide
theorem test_refuses_a_stack_past_the_last : wellFormed (.powerOnReset { quiet with stackFail := [(0, 3)] }) = false := by decide
theorem test_refuses_a_row_past_the_last : wellFormed (.powerOnReset { quiet with rowFaults := [(0, 0, 256)] }) = false := by decide
theorem test_refuses_a_power_beyond_its_width : wellFormed (.powerSample 65536) = false := by decide
theorem test_refuses_missing_sensors : wellFormed (.sensorRead 0 [] [0, 0, 0]) = false := by decide
theorem test_refuses_a_sensor_out_of_range : wellFormed (.sensorRead 0 (4096 :: List.replicate 15 0) [0, 0, 0]) = false := by decide
theorem test_refuses_a_stack_temperature_out_of_range : wellFormed (.sensorRead 0 (List.replicate 16 0) [0, 256, 0]) = false := by decide
theorem test_refuses_a_bypass_code_beyond_its_width : wellFormed (.bypass 0 256) = false := by decide
theorem test_refuses_a_report_of_no_member : wellFormed (.doneReport (reportOf 4096)) = false := by decide
theorem test_refuses_a_tick_beyond_its_width : wellFormed (.tickReceive 0 0 { aTick false 0 with tick := 2 ^ 64 }) = false := by decide
theorem test_refuses_members_out_of_order : wellFormed (.tickReceive 0 0 { aTick false 0 with excl := true, members := [2, 1] }) = false := by decide
theorem test_refuses_members_without_a_flag : wellFormed (.tickReceive 0 0 { aTick false 0 with members := [1] }) = false := by decide
theorem test_refuses_a_task_beyond_its_width : wellFormed (.runTask 0 (2 ^ 18)) = false := by decide
theorem test_refuses_a_tag_beyond_its_width : wellFormed (.remoteDecrement 0 1 0 0 (2 ^ 64)) = false := by decide
theorem test_refuses_a_fault_of_no_code : wellFormed (.taskFault 0 0 0x0800) = false := by decide
theorem test_refuses_a_result_of_no_code : wellFormed (.svcDone 0 0x0800 0 []) = false := by decide
theorem test_refuses_an_address_beyond_its_width : wellFormed (.lineRequest 0 1 (2 ^ 52) (.read 1 false false)) = false := by decide
theorem test_refuses_a_read_of_two_lines : wellFormed (.lineRequest 0 1 0 (.read 257 false false)) = false := by decide
theorem test_refuses_a_write_of_nothing : wellFormed (.lineRequest 0 1 0 (.write [])) = false := by decide
theorem test_refuses_a_wire_format_of_no_message : wellFormed (.contrib 0 { ceMsg 1 1 0 0 1 1 0 [] with wire := 2 }) = false := by decide
theorem test_refuses_a_message_of_no_die : wellFormed (.shard 0 { ceMsg 1 1 0 0 1 1 0 [] with srcDie := 4 }) = false := by decide
theorem test_refuses_an_epoch_beyond_its_width : wellFormed (.reshardArm .host 0 65536) = false := by decide
theorem test_refuses_a_short_flit : wellFormed (.flitReceive 0 [] .clean) = false := by decide
theorem test_refuses_a_codeword_of_too_many_symbols : wellFormed (.flitReceive 0 (List.replicate 288 0) ⟨false, 0, 1, 16⟩) = false := by decide +kernel
theorem test_refuses_a_sequence_number_beyond_its_width : wellFormed (.nak 0 65536) = false := by decide
theorem test_refuses_a_message_of_no_flit : wellFormed (.linkMessage 0 { oneFlit with payload := [] }) = false := by decide
theorem test_refuses_a_message_of_too_many_flits : wellFormed (.linkMessage 0 { oneFlit with payload := List.replicate 16640 0 }) = false := by
  decide +kernel
theorem test_refuses_a_message_of_no_class : wellFormed (.twinDigest { oneFlit with cls := 4 }) = false := by decide
theorem test_refuses_a_role_of_no_port : wellFormed (.hello 0 ⟨0, 0, 0, 3, 0, 1, 0⟩) = false := by decide
theorem test_refuses_a_stamp_beyond_its_width : wellFormed (.probe 0 (.request (2 ^ 64))) = false := by decide
theorem test_refuses_an_advert_beyond_its_width : wellFormed (.advert 0 0 ⟨65536, 0, false, 0⟩) = false := by decide
theorem test_refuses_a_calibration_of_too_few_flights : wellFormed (.calDone 0 0 []) = false := by decide
theorem test_refuses_a_measure_of_too_few_flights : wellFormed (.swMeasureDone 0 0 [1]) = false := by decide
theorem test_refuses_a_word_past_the_lap : wellFormed (.scrubRead 0 (2 ^ 46)) = false := by decide
theorem test_refuses_an_offset_beyond_its_width : wellFormed (.exportStreamReceive 0 (2 ^ 64) []) = false := by decide
theorem test_refuses_an_access_of_three_bytes : wellFormed (.bar0Read 0 3) = false := by decide
theorem test_refuses_a_register_beyond_the_window : wellFormed (.registerWrite .host 0x8000000 4 0) = false := by decide
theorem test_refuses_a_read_beyond_the_window : wellFormed (.bar2Read (2 ^ 36) 1) = false := by decide
theorem test_refuses_a_write_beyond_the_window : wellFormed (.bar2Write (2 ^ 36) [0]) = false := by decide
theorem test_refuses_a_page_off_its_boundary : wellFormed (.evtForce .host 0x800 0) = false := by decide
theorem test_refuses_a_page_beyond_the_last : wellFormed (.tallyClr .host 0x5000000) = false := by decide
theorem test_refuses_a_page_number_beyond_its_width : wellFormed (.selftest .host 0 4096) = false := by decide
theorem test_refuses_a_failed_row_past_the_last : wellFormed (.svcDone 0 0 0 [2048]) = false := by decide
theorem test_refuses_a_latch_past_the_last_page : wellFormed (.readLoLatch .host 0x5000000) = false := by decide
theorem test_refuses_a_short_unit : wellFormed (.stairwayUnitReceive 0 0 0 ⟨[], 0⟩) = false := by decide

/-! ### The manual's worked examples -/

/-- "X32 to H16 at the top of the range" (05_number_formats.md): code, and whether it is counted as saturated. -/
theorem test_top_of_h16 : ([0x4788B800, 0x477FF000, 0x477FEF00] : List W).map (fun w => ((convertElem 1 w).1, (convertElem 1 w).2.sat)) =
    [(0x7BFF, 1), (0x7BFF, 1), (0x7BFF, 0)] := by decide +kernel

/-- "A Q4 group in an LS-33 gradient": its scale code, its element codes, and one element counted as zero. -/
theorem test_q4_group :
    let g := encGroup 5 (([0x3D32FEC5, 0x3C271DE7, 0xBCB020C5, 0x3CA00000, 0x3AF9096C] : List W).map x32)
    (g.scale, g.codes, g.cnt.zero) = (0x78, [7, 3, 13, 4, 0], 1) := by decide +kernel

/-- "A U4Z group": scale code 124 and zero point 2, 0.90 encodes as 9 and −0.30 as 0. -/
theorem test_u4z_group : let g := encGroup 6 (([0xBE99999A, 0x3F666666] : List W).map x32)
    (g.scale, g.zp, g.codes) = (124, 2, [0, 9]) := by decide +kernel

/-- "A regroup in an LS-33 weight tile": four source codes with their source scales, and their new codes under scale 0x78. -/
theorem test_regroup : let g := encGroup 5 ([(0x78, 7), (0x77, 4), (0x76, 5), (0x73, 3)].map fun e => groupVal 5 0 e.1 e.2)
    (g.scale, g.codes) = (0x78, [7, 2, 2, 0]) := by decide +kernel

/-- "Why the group sum is rounded once": 1.0 and 32 products of sum 37.25 under the scales 0x6B and 0x76. -/
theorem test_group_sum : cellValue true 32 0x3F800000
    ((List.replicate 29 2 ++ [3, 3, 3]).map (groupVal 5 0 0x6B)) ((List.replicate 29 2 ++ [4, 4, 3]).map (groupVal 5 0 0x76)) = 0x3F800001 := by
  decide +kernel

/-- "A small update in a lean-keep table": the draw that keeps 0x3C24, and one whose upper bits are 1,073. -/
theorem test_stochastic : (stochastic 2 0x3A7FC2E1 0x3C23FBCE).1 = 0x3C24 ∧ (stochastic 2 (1073 * 65536) 0x3C23FBCE).1 = 0x3C23 := by decide

/-- "An export copy that runs off the end": the populated cellar of die 3, and the two copies of 1 MiB. -/
theorem test_populated_end : regionOf 0xF7E1100000 0x100000 = none ∧ regionOf 0xF7E1000000 0x100000 = some (.cellar 3) ∧
    regionAt 0xF7E119FFFF = some (.cellar 3) ∧ regionAt 0xF7E11A0000 = none := by decide +kernel

/-- "Finding LP9" and "reading a regroup-loss tally": the die and die-local number of LP9, and the page of MX3 on die 1. -/
theorem test_places : portDie 9 = 3 ∧ portLocal 9 = 1 ∧ pgMXof 1 3 = 0x200001013000 - 0x200000000000 := by decide

/-- "Tied embeddings": the second gradient tensor of one weight fails check 11. -/
theorem test_tied_weights : firstBad eWEIGHT_ALIASED 2 3 (tensorUnaliased (graph 0 1 3 (small 0 1 0xFFFF ++ small 1 2 0 ++ small 2 2 0) up) 0
    (img (graph 0 1 3 (small 0 1 0xFFFF ++ small 1 2 0 ++ small 2 2 0) up) 0)) = some ⟨0x010B, 2, 2⟩ := by decide +kernel

/-- Reset values of the register tables of 03_tick_and_frames.md and 04_task_graphs.md: TICK_CFG, TICK_MIN_PERIOD and DISP_VER. -/
theorem test_reset_values : rd State.reset (pgTICK 2 + 0x104) = 0x000C0A00 ∧ rd State.reset (pgTICK 3 + 0x110) = 0x000F4240 ∧
    rd State.reset (pgDISP 1 + 0x100) = 0x102 := by decide +kernel

end Sys2Proof.Tests
end

section
/-!
PROOFS. R24: a region that holds both ends of a range and its pages holds every byte of it, and an access of any other range fails
whole at the first check of R518.
-/
namespace Sys2Proof.Machine

/-! ### The region of an address (R20) -/

/-- The page index is looked up by page number, so the addresses of one page share their entry. -/
theorem pageAt_eq_of_page_eq {a b : Nat} (h : a / 4096 = b / 4096) : pageAt a = pageAt b := by
  have hhome : homeOf a = homeOf b := by unfold homeOf; omega
  have hpage : a % 0x1000000 / 0x1000 = b % 0x1000000 / 0x1000 := by omega
  unfold pageAt
  rw [hhome, hpage]

theorem regionAt_eq_cellar_iff {a : Nat} {d : DieId} :
    regionAt a = some (.cellar d) ↔ cellarBase d ≤ a ∧ a < cellarBase d + cellarSize := by
  have hd := d.isLt
  unfold regionAt cellarBase cellarSize
  repeat' split
  all_goals simp only [reduceCtorEq, Option.some.injEq, Region.cellar.injEq, Fin.ext_iff, false_iff]
  all_goals omega

theorem regionAt_eq_store_iff {a : Nat} {d : DieId} :
    regionAt a = some (.store d) ↔ storeBase d ≤ a ∧ a < storeBase d + storeSize := by
  have hd := d.isLt
  unfold regionAt storeBase storeSize
  repeat' split
  all_goals simp only [reduceCtorEq, Option.some.injEq, Region.store.injEq, Fin.ext_iff, false_iff]
  all_goals omega

theorem regionAt_eq_regs_iff {a h : Nat} :
    regionAt a = some (.regs h) ↔
      0x200000000000 ≤ a ∧ (a - 0x200000000000) / 0x1000000 = h ∧ (pageAt (a - 0x200000000000)).isSome = true := by
  constructor
  · intro hr
    unfold regionAt at hr
    repeat' split at hr
    all_goals simp only [reduceCtorEq, Option.some.injEq, Region.regs.injEq] at hr
    case isTrue ha hp => exact ⟨ha, hr, hp⟩
  · rintro ⟨ha, rfl, hp⟩
    have hcellar : ¬ a < 0x10000000000 := by omega
    have hstore : ¬ (0x100000000000 ≤ a ∧ a < 0x100100000000) := by omega
    unfold regionAt
    rw [if_neg hcellar, if_neg hstore, if_pos ha, if_pos hp]

/-! ### The pages of a range -/

/-- A range whose pages are listed lists the page of each of its bytes. -/
theorem pageAt_isSome_of_pagesListed {h a n k : Nat} (ha : 0x200000000000 ≤ a) (hk : k < n)
    (hl : pagesListed (.regs h) a n = true) : (pageAt (a + k - 0x200000000000)).isSome = true := by
  simp only [pagesListed, List.all_eq_true, List.mem_range] at hl
  have hmem := hl ((a + k) / 4096 - a / 4096) (by omega)
  rwa [pageAt_eq_of_page_eq (b := a + k - 0x200000000000) (by omega)] at hmem

theorem pagesListed_one_of_regionAt {a : Nat} {r : Region} (hr : regionAt a = some r) : pagesListed r a 1 = true := by
  cases r with
  | cellar d => rfl
  | store d => rfl
  | regs h =>
    obtain ⟨ha, -, hp⟩ := regionAt_eq_regs_iff.mp hr
    simp only [pagesListed, List.all_eq_true, List.mem_range]
    intro k hk
    rwa [pageAt_eq_of_page_eq (b := a - 0x200000000000) (by omega)]

/-- `regionAt` itself looks up the page of an address in a register space, so an address of a region is mapped. -/
theorem mapped_of_regionAt {a : Nat} {r : Region} (hr : regionAt a = some r) : mapped a = true := by
  simp only [mapped, hr, pagesListed_one_of_regionAt hr]

/-! ### The region of a range (R24) -/

theorem regionOf_eq_some {a n : Nat} {r : Region} (ho : regionOf a n = some r) :
    regionAt a = some r ∧ regionAt (a + (n - 1)) = some r ∧ pagesListed r a n = true := by
  unfold regionOf at ho
  split at ho
  case h_1 r₁ r₂ h₁ h₂ =>
    split at ho
    case isTrue hc =>
      obtain ⟨rfl, -, hl⟩ := hc
      cases ho
      exact ⟨h₁, h₂, hl⟩
    case isFalse => cases ho
  case h_2 => cases ho

/-- Windows are intervals, so the region that holds a range's first and last byte holds the bytes between. -/
theorem regionAt_of_regionOf {a n k : Nat} {r : Region} (ho : regionOf a n = some r) (hk : k < n) :
    regionAt (a + k) = some r := by
  obtain ⟨hfirst, hlast, hl⟩ := regionOf_eq_some ho
  cases r with
  | cellar d =>
    rw [regionAt_eq_cellar_iff] at hfirst hlast ⊢
    omega
  | store d =>
    rw [regionAt_eq_store_iff] at hfirst hlast ⊢
    omega
  | regs h =>
    have hp := pageAt_isSome_of_pagesListed (regionAt_eq_regs_iff.mp hfirst).1 hk hl
    rw [regionAt_eq_regs_iff] at hfirst hlast ⊢
    exact ⟨by omega, by omega, hp⟩

theorem regionOf_eq_none_of_unmapped {a n k : Nat} (hk : k < n) (hu : mapped (a + k) = false) : regionOf a n = none := by
  rw [Option.eq_none_iff_forall_ne_some]
  intro r ho
  rw [mapped_of_regionAt (regionAt_of_regionOf ho hk)] at hu
  cases hu

theorem regionOf_eq_none_of_crossing {a n j k : Nat} (hj : j < n) (hk : k < n)
    (hne : regionAt (a + j) ≠ regionAt (a + k)) : regionOf a n = none := by
  rw [Option.eq_none_iff_forall_ne_some]
  intro r ho
  exact hne ((regionAt_of_regionOf ho hj).trans (regionAt_of_regionOf ho hk).symm)

/-! ### Accesses that no region holds (R24, R518) -/

theorem accessCheck_of_regionOf_none {a n : Nat} (ho : regionOf a n = none) (w : MemReq) (write : Bool) (s : State) :
    accessCheck w a n write s = eUNMAPPED := by
  simp only [accessCheck, ho]

theorem memRead_of_regionOf_none {a n : Nat} (hn : 0 < n) (ho : regionOf a n = none) (w : MemReq) (s : State) :
    memRead w a n s = (s, eUNMAPPED, []) := by
  unfold memRead
  rw [if_neg (Nat.ne_of_gt hn), accessCheck_of_regionOf_none ho]
  rfl

theorem memWrite_of_regionOf_none {a : Nat} {bs : List Byte} (hn : 0 < bs.length) (ho : regionOf a bs.length = none)
    (w : MemReq) (s : State) : memWrite w a bs s = (s, eUNMAPPED) := by
  unfold memWrite
  rw [if_neg (Nat.ne_of_gt hn), accessCheck_of_regionOf_none ho]
  rfl

/-- Settles O4: either premise leaves the range without a region, which is the first check of R518 on both accesses. -/
theorem unmappedAccessesFailWhole : Obligations.UnmappedAccessesFailWhole := by
  intro w a n s hbad
  obtain ⟨hn, ho⟩ : 0 < n ∧ regionOf a n = none := by
    obtain ⟨k, hk, hu⟩ | ⟨j, k, hj, hk, hne⟩ := hbad
    · exact ⟨by omega, regionOf_eq_none_of_unmapped hk hu⟩
    · exact ⟨by omega, regionOf_eq_none_of_crossing hj hk hne⟩
  refine ⟨memRead_of_regionOf_none hn ho w s, ?_⟩
  rintro bs rfl
  exact memWrite_of_regionOf_none hn ho w s

end Sys2Proof.Machine
end

section
/-!
PROOFS. R125, R127, R129, R130: what an element code encodes, before and after its group scale.
-/
namespace Sys2Proof.Machine

/-! ### Integers as values -/

/-- An integer's sign and magnitude give the integer back. -/
theorem exists_ofInt_eq_fin (i : Int) : ∃ s m, ofInt i = .fin s m 0 ∧ (if s then -(m : Int) else m) = i := by
  refine ⟨decide (i < 0), i.natAbs, rfl, ?_⟩
  by_cases hi : i < 0
  · rw [decide_eq_true hi, if_pos rfl]
    omega
  · rw [decide_eq_false hi, if_neg Bool.false_ne_true]
    omega

theorem ofInt_natCast (n : Nat) : ofInt n = .fin false n 0 := by
  rw [ofInt, decide_eq_false (Int.not_lt.mpr (Int.natCast_nonneg n)), Int.natAbs_natCast]

/-- The common scale of m × 2^k and an integer is 2^0. -/
theorem fEq_fin_ofInt (m k : Nat) : fEq (.fin false m k) (ofInt (m * 2 ^ k : Nat)) = true := by
  have hscale : min (k : Int) 0 = 0 := by omega
  rw [ofInt_natCast]
  simp only [fEq, sMant, hscale, Int.sub_zero, Int.toNat_natCast, Int.toNat_zero, Nat.pow_zero, Nat.mul_one, decide_true]

/-! ### Exponent and fraction (R123) -/

theorem mag_of_subnormal {f : FFmt} {c : Nat} (hc : c < 2 ^ f.fb) (s : Bool) : f.mag s c = .fin s c f.qmin := by
  simp only [FFmt.mag, Nat.div_eq_of_lt hc, Nat.mod_eq_of_lt hc, if_true]

theorem mag_of_normal {f : FFmt} {c : Nat} (hc : 2 ^ f.fb ≤ c) (s : Bool) :
    f.mag s c = .fin s (2 ^ f.fb + c % 2 ^ f.fb) (f.qmin + (c / 2 ^ f.fb - 1 : Nat)) := by
  have hx : c / 2 ^ f.fb ≠ 0 := Nat.ne_of_gt (Nat.div_pos hc (Nat.two_pow_pos f.fb))
  simp only [FFmt.mag, if_neg hx]

/-- An exponent and fraction encode a finite value of the sign given, which is zero for the code 0 alone. -/
theorem exists_mag_eq_fin (f : FFmt) (s : Bool) (c : Nat) : ∃ m e, f.mag s c = .fin s m e ∧ (m = 0 ↔ c = 0) := by
  obtain hc | hc := Nat.lt_or_ge c (2 ^ f.fb)
  · exact ⟨_, _, mag_of_subnormal hc s, Iff.rfl⟩
  · have hpos := Nat.two_pow_pos f.fb
    exact ⟨_, _, mag_of_normal hc s, by omega⟩

/-! ### The quarter formats (R125) -/

/-- Both quarter formats read bit 7 as the sign and keep code 0x80, which would be the negative zero, for their NaN. -/
def readsAsQuarter (f : FFmt) (fmt : Nat) : Prop :=
  ∀ z c, elemVal fmt z c = if c = 0x80 then .nan else f.mag (bit c 7) (c % 128)

theorem readsAsQuarter_Q8M3 : readsAsQuarter fQ8M3 3 := fun _ _ => rfl

theorem readsAsQuarter_Q8M2 : readsAsQuarter fQ8M2 4 := fun _ _ => rfl

theorem elemVal_eq_nan_of_quarter {f : FFmt} {fmt : Nat} (hf : readsAsQuarter f fmt) (z : Nat) : elemVal fmt z 0x80 = .nan :=
  hf z 0x80

theorem exists_elemVal_eq_fin_of_quarter {f : FFmt} {fmt c : Nat} (hf : readsAsQuarter f fmt) (hc : c < 256) (hn : c ≠ 0x80) (z : Nat) :
    ∃ s m e, elemVal fmt z c = .fin s m e ∧ (m = 0 ↔ c = 0) ∧ (c = 0 → s = false) := by
  obtain ⟨m, e, hm, hzero⟩ := exists_mag_eq_fin f (bit c 7) (c % 128)
  refine ⟨bit c 7, m, e, by rw [hf, if_neg hn, hm], hzero.trans (by omega), ?_⟩
  rintro rfl
  rfl

/-- The value of a positive code of a nonzero exponent. -/
theorem elemVal_of_quarter_normal {f : FFmt} {fmt c : Nat} (hf : readsAsQuarter f fmt) (hlow : 2 ^ f.fb ≤ c) (hc : c < 128)
    (z : Nat) : elemVal fmt z c = .fin false (2 ^ f.fb + c % 2 ^ f.fb) (f.qmin + (c / 2 ^ f.fb - 1 : Nat)) := by
  have htop : c / 2 ^ 7 = 0 := Nat.div_eq_of_lt hc
  have hsign : bit c 7 = false := by
    rw [bit, htop]
    rfl
  rw [hf, if_neg (by omega), Nat.mod_eq_of_lt hc, hsign, mag_of_normal hlow]

/-- In Q8M3 the highest exponent is 15, whose fractions count in steps of 2^5. -/
theorem elemVal_Q8M3_highest {k : Nat} (hk : k < 8) (z : Nat) : elemVal 3 z (0x78 + k) = .fin false (8 + k) (5 : Nat) := by
  have hfrac : (0x78 + k) % 8 = k := by omega
  have hexp : (0x78 + k) / 8 = 15 := by omega
  rw [elemVal_of_quarter_normal readsAsQuarter_Q8M3 (by simp only [fQ8M3]; omega) (by omega)]
  simp only [fQ8M3, Nat.reducePow, hfrac, hexp]
  rfl

/-- In Q8M2 the highest exponent is 31, whose fractions count in steps of 2^14. -/
theorem elemVal_Q8M2_highest {k : Nat} (hk : k < 4) (z : Nat) : elemVal 4 z (0x7C + k) = .fin false (4 + k) (14 : Nat) := by
  have hfrac : (0x7C + k) % 4 = k := by omega
  have hexp : (0x7C + k) / 4 = 31 := by omega
  rw [elemVal_of_quarter_normal readsAsQuarter_Q8M2 (by simp only [fQ8M2]; omega) (by omega)]
  simp only [fQ8M2, Nat.reducePow, hfrac, hexp]
  rfl

/-- Settles O6: code 0x80 is taken out before the exponent and fraction are read, and those give finite values for every code left. -/
theorem quarterFormatsHaveNoInfinity : Obligations.QuarterFormatsHaveNoInfinity := by
  refine ⟨fun fmt z c hfmt hc => ?_, fun z k hk => ?_, fun z k hk => ?_⟩
  · obtain ⟨f, hf⟩ : ∃ f, readsAsQuarter f fmt := by
      obtain rfl | rfl := hfmt
      · exact ⟨_, readsAsQuarter_Q8M3⟩
      · exact ⟨_, readsAsQuarter_Q8M2⟩
    have hfin := fun hn => exists_elemVal_eq_fin_of_quarter hf hc hn z
    refine ⟨⟨fun hnan => ?_, ?_⟩, hfin⟩
    · refine Decidable.by_contra fun hn => ?_
      obtain ⟨s, m, e, hv, -⟩ := hfin hn
      rw [hnan] at hv
      cases hv
    · rintro rfl
      exact elemVal_eq_nan_of_quarter hf z
  · have hval : (256 + 32 * k : Int) = ((8 + k) * 2 ^ 5 : Nat) := by omega
    rw [elemVal_Q8M3_highest hk, hval]
    exact fEq_fin_ofInt _ _
  · have hval : (65536 + 16384 * k : Int) = ((4 + k) * 2 ^ 14 : Nat) := by omega
    rw [elemVal_Q8M2_highest hk, hval]
    exact fEq_fin_ofInt _ _

/-! ### Group scales and zero points (R127, R129) -/

theorem groupVal_of_invalid_group (fmt z q : Nat) : groupVal fmt z 0xFF q = .nan := rfl

theorem groupVal_of_elemVal_fin {fmt z c q m : Nat} {s : Bool} {e : Int} (hc : c < 255) (hv : elemVal fmt z q = .fin s m e) :
    groupVal fmt z c q = .fin s m (e + ((c : Int) - 127)) := by
  simp only [groupVal, if_neg (Nat.ne_of_lt hc), hv, Int.add_sub_assoc]

theorem elemVal_U4Z (z q : Nat) : elemVal 6 z q = ofInt ((q : Int) - z) := rfl

theorem elemVal_MASK1 (z q : Nat) : elemVal 9 z q = .fin false (q % 2) 0 := rfl

/-- Settles O7: the scale only moves a finite value's power of two, and the integer q − z of U4Z starts from 2^0. -/
theorem groupsScaleTheirElements : Obligations.GroupsScaleTheirElements := by
  refine ⟨fun z c q _ hc _ => ?_, fun _ _ _ _ _ _ _ hc hv => groupVal_of_elemVal_fin hc hv, groupVal_of_invalid_group,
    fun z => ⟨elemVal_MASK1 z 0, elemVal_MASK1 z 1⟩⟩
  obtain ⟨s, m, hi, hsigned⟩ := exists_ofInt_eq_fin ((q : Int) - z)
  have hg := groupVal_of_elemVal_fin hc ((elemVal_U4Z z q).trans hi)
  rw [Int.zero_add] at hg
  exact ⟨s, m, hg, hsigned⟩

end Sys2Proof.Machine
end
